-- ==== Sys2Proof/Word.lean ====
section
/-!
DEFINITION. The words of the machine: bytes, register words and instruction words, and the fixed-length
register files with their total read and write.
-/

namespace Sys2Proof

/-- One byte of memory (R5: little-endian in memory and in instruction words). -/
abbrev Byte := BitVec 8

/-- A 32-bit register word (R27). -/
abbrev W32 := BitVec 32

/-- A 64-bit value: an s register, a latch, an address or a pair of g registers (R27, R30). -/
abbrev W64 := BitVec 64

/-- A 96-bit instruction word (R17, R23). -/
abbrev InstrWord := BitVec 96

/-- A selector field of an instruction word (R26). -/
abbrev Selector := BitVec 8

/-- The number of a thread within its warp (R15). -/
abbrev Tid := Fin 16

/-- The element of a fixed-length file at a number, or a default past its end. -/
def vget {α : Type} {n : Nat} (v : Vector α n) (i : Nat) (d : α) : α := v.toArray.toList.getD i d

/-- A fixed-length file with one element replaced; past its end nothing changes. -/
def vset {α : Type} {n : Nat} (v : Vector α n) (i : Nat) (x : α) : Vector α n :=
  ⟨⟨v.toArray.toList.set i x⟩, by simp⟩

/-- A fixed-length file with a function applied to one element. -/
def vmod {α : Type} {n : Nat} (v : Vector α n) (i : Nat) (f : α → α) : Vector α n :=
  ⟨⟨v.toArray.toList.modify i f⟩, by simp⟩

/-- A fixed-length file with a function applied to every element. -/
def vmapAll {α β : Type} {n : Nat} (v : Vector α n) (f : α → β) : Vector β n :=
  ⟨⟨v.toArray.toList.map f⟩, by simp⟩

/-- A fixed-length file of one value. -/
def vfill {α : Type} (n : Nat) (x : α) : Vector α n :=
  ⟨⟨List.replicate n x⟩, by simp⟩

/-- The elements of a fixed-length file in order. -/
def vlist {α : Type} {n : Nat} (v : Vector α n) : List α := v.toArray.toList

/-- The threads of a warp in increasing order (R69). -/
def allTids : List Tid := [0, 1, 2, 3, 4, 5, 6, 7, 8, 9, 10, 11, 12, 13, 14, 15]

/-- The little-endian value of a list of bytes (R5). -/
def ofBytes : List Byte → Nat
  | [] => 0
  | b :: bs => b.toNat + 256 * ofBytes bs

/-- The low `n` bytes of a number, lowest first (R5). -/
def toBytes : Nat → Nat → List Byte
  | 0, _ => []
  | n + 1, v => BitVec.ofNat 8 (v % 256) :: toBytes n (v / 256)

/-- Bits `hi` to `lo` of a number, inclusive (R5). -/
def bitsOf (v hi lo : Nat) : Nat := (v >>> lo) % 2 ^ (hi + 1 - lo)

/-- One bit of a number. -/
def bitAt (v i : Nat) : Bool := v.testBit i

/-- The value of a `w`-bit number read as two's complement (R48, R66 `sext`). -/
def signedOf (w v : Nat) : Int :=
  let u := v % 2 ^ w
  if u < 2 ^ (w - 1) then (u : Int) else (u : Int) - (2 ^ w : Nat)

/-- The low `w` bits of an integer. -/
def wrapTo (w : Nat) (v : Int) : Nat := (v % ((2 ^ w : Nat) : Int)).toNat

end Sys2Proof
end

