-- ==== Sys2Proof/Syntax.lean ====
section
/-!
DEFINITION. The syntax of the machine: the five shapes of an instruction word (R23, R24) and `Instr`, one
constructor per row of the opcode table. Rows 1 to 145 are instruction words; the others are steps that the
host, an engine, a port or a timer makes, and their constructors carry the inputs of that step.
-/

namespace Sys2Proof

/-- The common fields of an instruction word but for OP, which the constructor of `Instr` gives (R23). -/
structure Head where
  /-- uniform: issued once per warp -/
  u : Bool
  /-- suppress register write-back -/
  ws : Bool
  /-- the latch that receives the result -/
  lt : BitVec 2
  /-- the predicate: bit 3 negates, bits 2 to 0 its index -/
  pr : BitVec 4
  /-- destination selector -/
  d : Selector
  /-- source selectors -/
  a : Selector
  b : Selector
  c : Selector
  deriving DecidableEq, Repr

/-- A K-format word (R24). -/
structure KWord where
  h : Head
  ty : BitVec 8
  md : BitVec 6
  imm : W32
  deriving DecidableEq, Repr

/-- A J-format word (R24). -/
structure JWord where
  h : Head
  md : BitVec 14
  off : W32
  deriving DecidableEq, Repr

/-- An M-format word (R24); `z` is X[63:61], which must be zero (R46). -/
structure MWord where
  h : Head
  space : BitVec 2
  size : BitVec 4
  ord : BitVec 2
  hint : BitVec 3
  z : BitVec 3
  off : W32
  deriving DecidableEq, Repr

/-- A T-format word (R24); `z` is X[95:86], which must be zero. -/
structure TWord where
  h : Head
  plane : BitVec 2
  tile : BitVec 6
  md : BitVec 6
  osrq : BitVec 4
  td : BitVec 4
  ct : BitVec 4
  asrc : BitVec 4
  atile : BitVec 6
  z : BitVec 10
  deriving DecidableEq, Repr

/-- An E-format word (R24); `z` is X[63:62], which must be zero. -/
structure EWord where
  h : Head
  pi : BitVec 3
  sub : BitVec 3
  sel : BitVec 6
  z : BitVec 2
  imm : W32
  deriving DecidableEq, Repr

/-- A management command's 64-byte record (R389), the first byte in the low bits. -/
abbrev Command := BitVec 512

/-- Where a warp stands: its core, and its warp id in that core (R15). -/
structure WarpId where
  core : Nat
  warp : Nat
  deriving DecidableEq, Repr

/-- A register that a write names (R6): a register of BAR 0 by its offset (R397), a system register of a
context by its number and index (R341), or a debug register of a core by its offset (R379, R383). -/
inductive RegTarget where
  | bar (offset : Nat)
  | system (ctx number index : Nat)
  | debug (core offset : Nat)
  deriving DecidableEq, Repr

/-- An operation that executes indivisibly at the home of its word (R120, R212, R236), on a physical address of
that home. Sizes are in bytes. -/
inductive HomeOp where
  /-- read bytes -/
  | load (pa size : Nat)
  /-- write bytes -/
  | store (pa size : Nat) (v : Nat)
  /-- masked merge (R219) -/
  | stbm (pa size : Nat) (mask v : Nat)
  /-- AMO or RED with the operation code of R237 -/
  | amo (pa size op : Nat) (v : Nat)
  /-- compare and swap -/
  | cas (pa size : Nat) (cmp new : Nat)
  /-- stalagmite add (R122) -/
  | sgAdd (pa : Nat) (amt : Nat)
  /-- stalagmite set (R131) -/
  | sgSet (pa : Nat) (v : Nat)
  /-- a wait presented for a target (R123) -/
  | sgWait (pa : Nat) (target : Nat)
  /-- barrier operations (R172) -/
  | bjoin (pa : Nat)
  | bleave (pa r : Nat)
  | barrive (pa : Nat)
  | bwait (pa : Nat) (target : Nat) (r : Option Nat)
  /-- a contribution to a reduction window (R240, R371): the address on its home device, the bytes, the operation, DET, the value, and ME
  and NC of the slot -/
  | contribution (pa size op : Nat) (det : Bool) (v me nc : Nat)
  deriving DecidableEq, Repr

/-- The bytes of the word that an operation names, and of the data that it carries or asks for (R365). -/
def HomeOp.bytes : HomeOp → Nat
  | .load _ n | .store _ n _ | .amo _ n _ _ | .contribution _ n _ _ _ _ _ => n
  | .stbm _ n _ _ | .cas _ n _ _ => 2 * n
  | .sgAdd _ _ | .sgSet _ _ | .sgWait _ _ => 8
  | .bjoin _ | .bleave _ _ | .barrive _ | .bwait _ _ _ => 32

/-- What a flit carries (R365, R368): a request, or the response to one. -/
inductive FabricMsg where
  | request (peer tag : Nat) (op : HomeOp)
  /-- `ok` false: refused (R369) -/
  | response (peer tag : Nat) (ok : Bool) (v : Nat)
  /-- a wait is withdrawn (R126, R127): its waiter entry at the home is free -/
  | withdraw (peer tag : Nat)
  /-- the answer of a migration's destination to its source (R390): the code of the refusal's cause, or none -/
  | migrated (peer : Nat) (cause : Option Nat)
  deriving DecidableEq, Repr

/-- A flit of a Karst port (R365): its class, its place in the order of sending, and its content. -/
structure Flit where
  cls : Nat
  seq : Nat
  msg : Option FabricMsg
  deriving DecidableEq, Repr

/-- An instruction or step of the machine, one constructor per row of the opcode table. -/
inductive Instr where
  /-- NOP (R87): Does nothing. -/
  | nop (w : KWord)
  /-- RGN (R87): Reads the live-in record, starts a discardable region at its PC, clears the latches and is a switch point. -/
  | rgn (w : EWord)
  /-- EXIT (R87): Ends each active thread whose predicate holds, and ends the warp when the last thread exits. -/
  | exit (w : EWord)
  /-- BRA (R88): Transfers to a slot-relative target after the target checks of R21. -/
  | bra (w : JWord)
  /-- BRX (R88): Transfers to a byte address read from a register. -/
  | brx (w : KWord)
  /-- CALL (R88): Transfers to a slot-relative target and writes the link next(PC). -/
  | call (w : JWord)
  /-- CALLX (R88): Transfers to a register target and writes the link next(PC). -/
  | callx (w : KWord)
  /-- RET (R88): Returns to a byte address read from a register, with RETURN_TARGET checks. -/
  | ret (w : KWord)
  /-- LOOP (R88): Decrements a 32-bit count and branches while the result is positive. -/
  | loop (w : JWord)
  /-- MCALL (R89): Runs a grotto macro body with its m0-m3 parameters substituted. -/
  | mcall (w : EWord)
  /-- IPF (R90): Hints that an instruction-cache line be filled, dropped silently on any failure. -/
  | ipf (w : JWord)
  /-- IFENCE (R91): Waits for the core's earlier CORE-path stores, then invalidates the instruction cache and fetch buffers. -/
  | ifence (w : EWord)
  /-- TRAP (R92): Raises TRAP_SOFTWARE with IMM32 in the fault record. -/
  | trap (w : EWord)
  /-- BKPT (R92): Raises BREAKPOINT with IMM32 in the fault record. -/
  | bkpt (w : EWord)
  /-- IADD (R101): Integer add, wrapping or saturating. -/
  | iadd (w : KWord)
  /-- ISUB (R101): Integer subtract, wrapping or saturating. -/
  | isub (w : KWord)
  /-- IMUL (R101): Integer multiply, low bits, wrapping or saturating. -/
  | imul (w : KWord)
  /-- IMULH (R101): High half of the exact integer product. -/
  | imulh (w : KWord)
  /-- IMAD (R101): Integer multiply-add as one exact sum. -/
  | imad (w : KWord)
  /-- IABS (R101): Integer absolute value. -/
  | iabs (w : KWord)
  /-- INEG (R101): Integer negation. -/
  | ineg (w : KWord)
  /-- IMIN (R101): Integer minimum. -/
  | imin (w : KWord)
  /-- IMAX (R101): Integer maximum. -/
  | imax (w : KWord)
  /-- ICMP (R102): Integer compare writing a register and optionally a predicate. -/
  | icmp (w : KWord)
  /-- SEL (R102): Selects A or B by a predicate. -/
  | sel (w : KWord)
  /-- MOV (R101): Copies a source to the destination. -/
  | mov (w : KWord)
  /-- MOVI (R103): Writes IMM32 zero-extended, sign-extended or into the high half. -/
  | movi (w : KWord)
  /-- LEA (R104): Forms a 64-bit address without access. -/
  | lea (w : KWord)
  /-- ADDC (R102): Add with carry in and out through a predicate. -/
  | addc (w : KWord)
  /-- AND (R105): Bitwise and. -/
  | and (w : KWord)
  /-- OR (R105): Bitwise or. -/
  | or (w : KWord)
  /-- XOR (R105): Bitwise exclusive or. -/
  | xor (w : KWord)
  /-- ANDN (R105): A and not B. -/
  | andn (w : KWord)
  /-- SHL (R105): Logical shift left. -/
  | shl (w : KWord)
  /-- SHR (R105): Logical shift right. -/
  | shr (w : KWord)
  /-- SAR (R105): Arithmetic shift right. -/
  | sar (w : KWord)
  /-- ROT (R105): Rotate left. -/
  | rot (w : KWord)
  /-- BFX (R106): Extracts a bit field. -/
  | bfx (w : KWord)
  /-- BFI (R106): Inserts a bit field. -/
  | bfi (w : KWord)
  /-- POPC (R105): Population count. -/
  | popc (w : KWord)
  /-- CLZ (R105): Count leading zeros. -/
  | clz (w : KWord)
  /-- CTZ (R105): Count trailing zeros. -/
  | ctz (w : KWord)
  /-- BREV (R105): Bit reversal. -/
  | brev (w : KWord)
  /-- PERM (R106): Byte permutation. -/
  | perm (w : KWord)
  /-- FADD (R108): Floating add rounded once. -/
  | fadd (w : KWord)
  /-- FSUB (R108): Floating subtract rounded once. -/
  | fsub (w : KWord)
  /-- FMUL (R108): Floating multiply rounded once. -/
  | fmul (w : KWord)
  /-- FFMA (R108): Fused multiply-add with one rounding. -/
  | ffma (w : KWord)
  /-- FMIN (R109): Floating minimum. -/
  | fmin (w : KWord)
  /-- FMAX (R109): Floating maximum. -/
  | fmax (w : KWord)
  /-- FCMP (R110): Floating compare writing a register and predicate. -/
  | fcmp (w : KWord)
  /-- FRCP (R111): Correctly rounded reciprocal. -/
  | frcp (w : KWord)
  /-- FRSQ (R111): Correctly rounded reciprocal square root. -/
  | frsq (w : KWord)
  /-- FSQRT (R111): Correctly rounded square root. -/
  | fsqrt (w : KWord)
  /-- FEXP2 (R111): Correctly rounded 2^x. -/
  | fexp2 (w : KWord)
  /-- FLOG2 (R111): Correctly rounded log2. -/
  | flog2 (w : KWord)
  /-- FSIN (R111): Correctly rounded sin(pi x). -/
  | fsin (w : KWord)
  /-- FCOS (R111): Correctly rounded cos(pi x). -/
  | fcos (w : KWord)
  /-- FCLASS (R112): Writes a one-hot class mask. -/
  | fclass (w : KWord)
  /-- FRND (R113): Rounds to an integral value in the same format. -/
  | frnd (w : KWord)
  /-- CVT (R114): Converts one scalar between integer and floating types. -/
  | cvt (w : KWord)
  /-- PACK (R115): Converts four FP32 values into a group of a packed destination. -/
  | pack (w : KWord)
  /-- UNPK (R116): Unpacks four packed elements to FP32 exactly. -/
  | unpk (w : KWord)
  /-- QNT (R117): Quantises one 32-element block held across the warp. -/
  | qnt (w : KWord)
  /-- DQNT (R118): Dequantises each thread's codes with its scale word. -/
  | dqnt (w : KWord)
  /-- SEED (R119): Sets each thread's stochastic state. -/
  | seed (w : KWord)
  /-- SHFL (R95): Exchanges values between participating threads. -/
  | shfl (w : KWord)
  /-- VOTE (R95): Ballot, any, all or uniform vote over participants. -/
  | vote (w : KWord)
  /-- WRED (R95): Reduces participant values in increasing tid. -/
  | wred (w : KWord)
  /-- WSCAN (R95): Inclusive scan over participants in increasing tid. -/
  | wscan (w : KWord)
  /-- PLOP (R93): Sets a predicate from a truth table of three predicates. -/
  | plop (w : KWord)
  /-- PMOV (R94): Moves predicates to or from a register. -/
  | pmov (w : KWord)
  /-- LD (R216): Loads from global, scratch, vault or debug space. -/
  | ld (w : MWord)
  /-- ST (R217): Stores to global, scratch, vault or debug space. -/
  | st (w : MWord)
  /-- STBM (R219): Merges masked bits at the word's home indivisibly. -/
  | stbm (w : MWord)
  /-- PREF (R220): Hints a fill into L1 or L2. -/
  | pref (w : MWord)
  /-- CLEAN (R221): Writes back the core's owned words of a line and keeps them Valid. -/
  | clean (w : MWord)
  /-- INVAL (R221): Writes back owned words of a line and invalidates it. -/
  | inval (w : MWord)
  /-- EVH (R222): Sets a line's eviction priority. -/
  | evh (w : MWord)
  /-- FENCE (R235): Release, acquire or both on the CORE path. -/
  | fence (w : EWord)
  /-- XFENCE (R235): Full fence that is a cross-path point for the named paths. -/
  | xfence (w : EWord)
  /-- AMO (R238): Atomic read-modify-write at the word's home. -/
  | amo (w : MWord)
  /-- AMOCAS (R238): Atomic compare-and-swap at the word's home. -/
  | amocas (w : MWord)
  /-- RED (R238): Atomic reduction without result, or a reduction-window contribution. -/
  | red (w : MWord)
  /-- SGADD (R129): Adds to stalagmites as a release, thread by thread. -/
  | sgadd (w : EWord)
  /-- SGWAIT (R130): Blocks until each named stalagmite reaches its target. -/
  | sgwait (w : EWord)
  /-- SGTEST (R130): Tests a stalagmite against a target into a predicate. -/
  | sgtest (w : EWord)
  /-- SGREAD (R130): Reads a stalagmite at its home as an acquire. -/
  | sgread (w : EWord)
  /-- SGSET (R131): Privileged set of a stalagmite when no waiter names it. -/
  | sgset (w : EWord)
  /-- RGRESV (R135): Waits until ring slot n is released and returns its address. -/
  | rgresv (w : EWord)
  /-- RGPUB (R135): Adds to a ring's FILL. -/
  | rgpub (w : EWord)
  /-- RGAWAIT (R135): Waits until ring slot n is published and returns its address. -/
  | rgawait (w : EWord)
  /-- RGREL (R135): Adds to a ring's REL. -/
  | rgrel (w : EWord)
  /-- BJOIN (R172): Registers at a barrier and returns an index. -/
  | bjoin (w : EWord)
  /-- BLEAVE (R172): Deregisters an index from a barrier. -/
  | bleave (w : EWord)
  /-- BARRIVE (R172): Arrives at a barrier or is refused while observations are owed. -/
  | barrive (w : EWord)
  /-- BWAIT (R172): Waits for a barrier phase and records the observation. -/
  | bwait (w : EWord)
  /-- GINFO (R180): Returns a group slot's number, size, rank or barrier. -/
  | ginfo (w : EWord)
  /-- GBAR (R181): Arrives at a group's barrier, ends the region and waits for the phase. -/
  | gbar (w : EWord)
  /-- WSYNC (R182): Synchronises threads of one warp by mask. -/
  | wsync (w : EWord)
  /-- SLOOP (R249): Starts a sump loop in producing mode. -/
  | sloop (w : EWord)
  /-- YIELD (R249): Appends entries to the sump and may switch to consuming. -/
  | yield (w : EWord)
  /-- PDONE (R249): Retires producer threads and may start draining or exit. -/
  | pdone (w : EWord)
  /-- CEND (R249): Ends threads' consumer round and may end the round. -/
  | cend (w : EWord)
  /-- RSB (R264): Enters a read section with an acquire. -/
  | rsb (w : EWord)
  /-- RSE (R264): Leaves a read section with a release. -/
  | rse (w : EWord)
  /-- GPNUM (R265): Reads GPREQ or requests a grace period. -/
  | gpnum (w : EWord)
  /-- GPWAIT (R266): Waits until GPDONE reaches a target. -/
  | gpwait (w : EWord)
  /-- DFREE (R267): Defers an extent or block-index entry to a grace period. -/
  | dfree (w : EWord)
  /-- WLOAD (R285): Starts loading a plane from a shape record. -/
  | wload (w : TWord)
  /-- WFREE (R286): Empties a plane after earlier MMAs leave the array. -/
  | wfree (w : TWord)
  /-- MMA_REGISTERS (R287): Matrix multiply with A rows from participant registers (ASRC 0). -/
  | mmaRegisters (w : TWord)
  /-- MMA_TILE (R287): Matrix multiply with A rows from an accumulator tile through the down-converter (ASRC 1). -/
  | mmaTile (w : TWord)
  /-- MMA_SHAPE_RECORD (R287): Matrix multiply with A rows from a shape record (ASRC 2). -/
  | mmaShapeRecord (w : TWord)
  /-- ACCRD (R288): Reads a window of tile columns into registers. -/
  | accrd (w : TWord)
  /-- ACCWR (R288): Writes registers into a window of tile columns. -/
  | accwr (w : TWord)
  /-- ACCZ (R289): Zeroes a tile. -/
  | accz (w : TWord)
  /-- DRAIN (R290): Quantises and encodes a tile, allocating before releasing the warp. -/
  | drain (w : TWord)
  /-- TDLD (R328): Loads a tensor descriptor into a td slot. -/
  | tdld (w : TWord)
  /-- TLD (R329): Decodes rows of a coded tile into registers. -/
  | tld (w : TWord)
  /-- TST (R330): Replaces rows of a coded tile and re-encodes and publishes it. -/
  | tst (w : TWord)
  /-- CTLD (R331): Loads a code table into a slot. -/
  | ctld (w : TWord)
  /-- CTINV (R331): Invalidates a code-table slot. -/
  | ctinv (w : TWord)
  /-- BIXRD (R332): Reads a block-index entry as an acquire. -/
  | bixrd (w : TWord)
  /-- XFORM (R334): Queues a transform command. -/
  | xform (w : EWord)
  /-- POOLQ (R333): Reads a pool's free-ring count or bump room. -/
  | poolq (w : EWord)
  /-- CPY (R296): Queues a linear copy command. -/
  | cpy (w : EWord)
  /-- CPY2 (R296): Queues a two-dimensional copy command. -/
  | cpy2 (w : EWord)
  /-- CPYT (R299): Queues a coded-tile copy command. -/
  | cpyt (w : EWord)
  /-- STADV (R306): Advances the stage counter and releases schedule entries. -/
  | stadv (w : EWord)
  /-- GSET (R303): Resolves a guard True or False. -/
  | gset (w : EWord)
  /-- GCLR (R303): Makes a guard Unresolved. -/
  | gclr (w : EWord)
  /-- LAUNCH (R142): Appends entries to a device queue. -/
  | launch (w : EWord)
  /-- SPAWN (R165): Pushes continuation records. -/
  | spawn (w : EWord)
  /-- TRIG (R166): Marks threads as triggered. -/
  | trig (w : EWord)
  /-- TASKQ (R167): Reads continuation-queue or kernel counts. -/
  | taskq (w : EWord)
  /-- FEAT (R348): Returns CTXPROF. -/
  | feat (w : EWord)
  /-- IMPLQ (R348): Returns an implementation figure latched at the last RGN. -/
  | implq (w : EWord)
  /-- SRRD (R349): Reads a system register, optionally clearing FLAGS bits. -/
  | srrd (w : EWord)
  /-- SRWR (R349): Privileged write of a system register. -/
  | srwr (w : EWord)
  /-- CLK (R350): Returns the core cycle count or the context time. -/
  | clk (w : EWord)
  /-- RESUME (R351): Makes a Suspended warp Ready with its saved state. -/
  | resume (w : EWord)
  /-- KILL (R351): Ends a task and faults its kernel. -/
  | kill (w : EWord)
  /-- TRCMK (R388): Writes a MARK trace frame when the warp is traced. -/
  | trcmk (w : EWord)
  /-- PERFRD (R388): Reads a profiling counter. -/
  | perfrd (w : EWord)
  /-- LNKQ (R375): Reads a Karst port's status, counts or rate. -/
  | lnkq (w : EWord)
  /-- REGISTER_WRITE (R6): A write to a register without behaviour of its own, field by field by access type. -/
  | registerWrite (r : RegTarget) (v : W64)
  /-- QUEUE_ENABLE (R141): QCTL ENABLE: checks the ring descriptor and sets QRDPOS to REL. -/
  | queueEnable (q : Nat)
  /-- QUEUE_DISABLE (R141): QCTL DISABLE: abandons the head and disables the queue. -/
  | queueDisable (q : Nat)
  /-- QUEUE_SUSPEND (R141): QCTL SUSPEND: stops reading entries. -/
  | queueSuspend (q : Nat)
  /-- QUEUE_RESUME (R141): QCTL RESUME: re-reads and re-evaluates the head. -/
  | queueResume (q : Nat)
  /-- QUEUE_SKIP (R141): QCTL SKIP: retires an erroring head unsubmitted. -/
  | queueSkip (q : Nat)
  /-- QUEUE_RETRY (R141): QCTL RETRY: reads an erroring head again. -/
  | queueRetry (q : Nat)
  /-- QUEUE_DRAIN (R141): QCTL DRAIN: serves entries below the noted FILL then becomes Drained. -/
  | queueDrain (q : Nat)
  /-- COPY_ENGINE_RETRY (R300): CECTL RETRY: restarts a stopped copy command. -/
  | copyEngineRetry (core : Nat)
  /-- COPY_ENGINE_DROP (R300): CECTL DROP: discards a stopped copy command. -/
  | copyEngineDrop (core : Nat)
  /-- XFORM_ENGINE_RETRY (R308): XECTL RETRY: restarts a stopped transform command. -/
  | xformEngineRetry (core : Nat)
  /-- XFORM_ENGINE_DROP (R308): XECTL DROP: discards a stopped transform command. -/
  | xformEngineDrop (core : Nat)
  /-- TLBINV_WRITE (R194): Write of TLBINV: reads the command record and queues an invalidation. -/
  | tlbinvWrite (ctx : Nat) (va : W64)
  /-- FRING_WRITE (R358): Write of FRING: re-examines the fault ring and pushes waiting records. -/
  | fringWrite (ctx : Nat) (v : W64)
  /-- DRES_RESUME (R379): DRES write with KILL 0: resumes a warp of the core. -/
  | dresResume (w : WarpId)
  /-- DRES_KILL (R379): DRES write with KILL 1: kills a warp's task. -/
  | dresKill (w : WarpId)
  /-- TRACE_ENABLE (R383): TRCCFG write with EN: resets POS and writes a SYNC frame. -/
  | traceEnable (core : Nat) (v : W64)
  /-- BOOTGO (R392): Host write of BOOTGO: copies the image and starts verifying. -/
  | bootgo (a : W64)
  /-- MCCFG_ENABLE (R389): MCCFG write of EN: enables or stops the command ring. -/
  | mccfgEnable (v : W64)
  /-- MCFILL (R389): Host write of MCFILL: makes commands pending on the ring. -/
  | mcfill (v : W64)
  /-- CREATE (R339): Creates a context in a free slot. -/
  | create (c : Command)
  /-- ASSIGN (R390): Assigns clusters to a partition of a context. -/
  | assign (c : Command)
  /-- NEGOTIATE (R339): Sets a context's CTXPROF. -/
  | negotiate (c : Command)
  /-- START (R339): Starts a ready context running. -/
  | start (c : Command)
  /-- PREEMPT (R343): Pre-empts a running context to shadow storage or memory. -/
  | preempt (c : Command)
  /-- SAVE (R345): Writes a context's save image to memory. -/
  | save (c : Command)
  /-- RESTORE (R344): Restores a suspended context and resumes it. -/
  | restore (c : Command)
  /-- MIGRATE_OUT (R346): Streams a saved context's image to a peer. -/
  | migrateOut (c : Command)
  /-- MIGRATE_IN (R346): Checks and accepts a migrated image into a free slot. -/
  | migrateIn (c : Command)
  /-- TEARDOWN (R339): Tears a context down, discarding its tasks and commands. -/
  | teardown (c : Command)
  /-- SRWRITE (R390): Management write of a context's system register. -/
  | srwrite (c : Command)
  /-- SRREAD (R390): Management read of a context's system register. -/
  | srread (c : Command)
  /-- WARPRESUME (R390): Management RESUME of a warp by handle. -/
  | warpresume (c : Command)
  /-- WARPKILL (R390): Management KILL of a warp's task by handle. -/
  | warpkill (c : Command)
  /-- PORTENABLE (R367): Enables a Karst port and starts training. -/
  | portenable (c : Command)
  /-- PORTDISABLE (R367): Turns a Karst port off. -/
  | portdisable (c : Command)
  /-- ROUTE (R368): Sets a peer's route mask of ports. -/
  | route (c : Command)
  /-- EXPORT (R369): Sets or removes an export range for a peer. -/
  | exportRange (c : Command)
  /-- WINDOW (R371): Writes a reduction-window slot. -/
  | window (c : Command)
  /-- DEBUGSET (R376): Designates the debug partition. -/
  | debugset (c : Command)
  /-- TLBINV (R194): Management TLB invalidation command. -/
  | tlbinv (c : Command)
  /-- CHECKPOINT (R374): Starts streaming memory ranges over the host ports. -/
  | checkpoint (c : Command)
  /-- GET_VERSION (R395): SPDM version request. -/
  | getVersion (fn : Nat)
  /-- GET_CAPABILITIES (R395): SPDM capabilities request. -/
  | getCapabilities (fn : Nat)
  /-- NEGOTIATE_ALGORITHMS (R395): SPDM algorithm negotiation, only P-521 with SHA-512. -/
  | negotiateAlgorithms (fn : Nat) (asym : W32) (hash : W32)
  /-- GET_DIGESTS (R395): SPDM certificate digests request. -/
  | getDigests (fn : Nat)
  /-- GET_CERTIFICATE (R395): SPDM certificate request. -/
  | getCertificate (fn : Nat) (off : Nat) (len : Nat)
  /-- CHALLENGE (R395): SPDM challenge signed with the device identity key. -/
  | challenge (fn : Nat) (nonce : BitVec 256)
  /-- GET_MEASUREMENTS (R395): SPDM measurement blocks request. -/
  | getMeasurements (fn : Nat) (index : Nat)
  /-- POWER_CONTROL_TICK (R396): Every 1 ms compares draw and temperature and moves the clock one level. -/
  | powerControlTick (draw : Nat) (temp : Nat)
  /-- THERMAL_EMERGENCY (R396): A die reaching 115 C sends the clock to 1.0 GHz. -/
  | thermalEmergency (temp : Nat)
  /-- ICACHE_FILL (R224): An instruction-cache fill returns from L2 and is allocated. -/
  | icacheFill (core : Nat) (n : Nat)
  /-- STALL_SWITCH (R73): A memory or fetch stall over 64 cycles makes a switch point. -/
  | stallSwitch (w : WarpId)
  /-- WARP_QUANTUM (R73): 512 cycles since selection forces a switch at the next RGN. -/
  | warpQuantum (w : WarpId)
  /-- STALAGMITE_ADD_APPLY (R120): An add arrives at the stalagmite's home, is applied or refused, and re-evaluates waiters and conditions. -/
  | stalagmiteAddApply (pa : Nat) (amt : W64)
  /-- WAKE_DELIVERY (R123): A wake reaches the lane and the waiting warp becomes Ready. -/
  | wakeDelivery (w : WarpId)
  /-- WAIT_REPRESENT (R124): A refused wait is presented again every 256 cycles. -/
  | waitRepresent (w : WarpId)
  /-- SG_WAIT_TIMEOUT (R126): A wait's timeout expires unsatisfied and raises SG_WAIT_TIMEOUT. -/
  | sgWaitTimeout (w : WarpId)
  /-- QUEUE_HEAD_READ (R138): The distributor reads and validates a queue's head entry. -/
  | queueHeadRead (q : Nat)
  /-- QUEUE_HEAD_SUBMIT (R141): A held head's dependences are met: it is submitted and retired. -/
  | queueHeadSubmit (q : Nat)
  /-- QUEUE_PRIORITY_AGE (R139): Each full millisecond a ready head raises its effective priority. -/
  | queuePriorityAge (q : Nat)
  /-- KERNEL_START (R149): A Ready kernel takes a launch handle and reads COND. -/
  | kernelStart (k : Nat)
  /-- KERNEL_EXPANSION (R151): Expansion pushes grid records, resuming when the continuation queue has room. -/
  | kernelExpansion (k : Nat)
  /-- CORE_PLACEMENT (R157): A core with room pops an eligible record and places the task. -/
  | corePlacement (core : Nat)
  /-- TASK_TIMEOUT (R159): A task's TLIMIT timer expires and its warps are suspended. -/
  | taskTimeout (t : Nat)
  /-- TASK_END (R158): A task ends and frees its resources, then storage and JOIN after its commands complete. -/
  | taskEnd (t : Nat)
  /-- KERNEL_COMPLETE (R162): The kernel's last task and engine command are done: status write and completion add. -/
  | kernelComplete (k : Nat)
  /-- GRACE_PERIOD_START (R261): The grace engine takes a request, marks warps in sections and adds to GPREQ. -/
  | gracePeriodStart (ctx : Nat)
  /-- GRACE_PERIOD_END (R261): No mark remains: GPDONE add and freeing of due entries. -/
  | gracePeriodEnd (ctx : Nat)
  /-- DEFERRED_FREE_DELIVER (R267): A held deferred-free entry is delivered once its destination ring has room. -/
  | deferredFreeDeliver (ctx : Nat)
  /-- PLANE_LOAD_COMPLETE (R275): A WLOAD finishes, latching the plane and releasing its warp. -/
  | planeLoadComplete (w : WarpId)
  /-- MMA_PORT_ENTRY (R277): An MMA's operand rows are fetched and it enters its port. -/
  | mmaPortEntry (w : WarpId)
  /-- MATRIX_PASS (R278): The array takes a pass of eligible port heads with fusion. -/
  | matrixPass (core : Nat)
  /-- PASS_RETIRE (R278): A pass's operations retire and write their rows. -/
  | passRetire (core : Nat)
  /-- DRAIN_PUBLISH (R290): A released DRAIN writes its stream, publishes the entry and makes its completion add. -/
  | drainPublish (core : Nat)
  /-- MATRIX_RESET (R291): 2^20 cycles without progress reset the core's matrix engine. -/
  | matrixReset (core : Nat)
  /-- COPY_COMMAND_START (R294): The next command in sequence reaches the copy engine head and runs or is held on its guard. -/
  | copyCommandStart (core : Nat)
  /-- COPY_COMMAND_COMPLETE (R297): A copy command's last byte is written and its completion add made. -/
  | copyCommandComplete (core : Nat)
  /-- RING_COPY_WRITE (R298): A ring copy finds room at REL and writes its slot then adds to FILL. -/
  | ringCopyWrite (core : Nat)
  /-- XFORM_COMMAND_START (R307): The transform engine takes a core's next command. -/
  | xformCommandStart (cluster : Nat)
  /-- XFORM_COMMAND_COMPLETE (R307): A transform command finishes and makes its completion add on CODEC. -/
  | xformCommandComplete (cluster : Nat)
  /-- OWNERSHIP_RECALL (R210): Another core's registration recalls an owned word's written bytes. -/
  | ownershipRecall (core : Nat) (pa : Nat)
  /-- FAULT_RECORD_PUSH (R357): A waiting fault record is pushed once the ring has room. -/
  | faultRecordPush (ctx : Nat)
  /-- PORT_TRAINED (R367): Training settles and the port goes up or degraded. -/
  | portTrained (port : Nat) (lanes : Nat) (rate : Nat) (peer : Nat)
  /-- PORT_TRAINING_TIMEOUT (R367): No lane trains within 100 ms and the port goes down. -/
  | portTrainingTimeout (port : Nat)
  /-- PORT_RETRAIN (R366): Eight failures of a flit or a lost lane start a retraining. -/
  | portRetrain (port : Nat)
  /-- FLIT_RECEIVE (R366): A flit arrives, is checked by CRC and delivered or replayed. -/
  | flitReceive (port : Nat) (f : Flit) (crcOk : Bool)
  /-- CONTROL_FLIT (R366): A control flit returns send allowances and acknowledgements. -/
  | controlFlit (port : Nat) (allow : Nat) (cls : Nat) (ack : Nat)
  /-- REMOTE_REQUEST (R369): A peer's request arrives and executes at the home through FABRIC. -/
  | remoteRequest (port : Nat)
  /-- REMOTE_RESPONSE (R370): A response or acknowledgement of a remote request returns. -/
  | remoteResponse (port : Nat)
  /-- REDUCTION_RESULT (R372): A merged reduction contribution is applied at the home slice. -/
  | reductionResult (pa : Nat) (size : Nat) (op : Nat) (v : W64)
  /-- CONTEXT_STATE_ERROR (R339): An uncorrectable error in context state faults the context. -/
  | contextStateError (ctx : Nat)
  /-- PREEMPT_COMPLETE (R343): The swap ends and the context reaches state 4 or 5. -/
  | preemptComplete (ctx : Nat)
  /-- SAVE_COMPLETE (R345): The save image is written and the shadow storage freed. -/
  | saveComplete (ctx : Nat)
  /-- MIGRATION_ANSWER (R346): The destination's acceptance or refusal reaches the source. -/
  | migrationAnswer (ctx : Nat) (cause : Nat)
  /-- TEARDOWN_RELEASE (R339): A torn-down context's clusters and queues are released and the slot freed. -/
  | teardownRelease (ctx : Nat)
  /-- UNASSIGNED_OPCODE (R41): A slot whose OP is absent from R40, an all-zero word included, issues and raises ILLEGAL_OPCODE precisely with no state change. -/
  | unassignedOpcode (w : InstrWord)
  /-- PASS_LEAVES_ARRAY (R278): A pass's last cycle in the array ends; WLOAD and WFREE waiting on earlier MMAs may proceed, and the array may take its next pass. -/
  | passLeavesArray (core : Nat)
  /-- CXL_MEM_ACCESS (R373): A host read or write of device memory arrives over CXL.mem on a host port and is served at the word's home. -/
  | cxlMemAccess (write : Bool) (pa : Nat) (len : Nat) (v : W64)
  /-- DBGCTL_FREEZE (R381): DBGCTL FREEZE: freezes the device without a fault. -/
  | dbgctlFreeze
  /-- DBGCTL_THAW (R382): DBGCTL THAW: ends the freeze. -/
  | dbgctlThaw
  /-- POWER_GOOD (R392): Power-good resets the device into Boot. -/
  | powerGood
  /-- HOST_RESET (R392): Host reset returns the device to Reset and Boot. -/
  | hostReset
  /-- IMAGE_VERIFY (R393): After the image copy, checks the image and runs it or reports ERR. -/
  | imageVerify
  /-- THERMAL_TRIP (R396): 120 C held for 100 ms trips the device to Reset and sets THERM. -/
  | thermalTrip
  /-- INVALIDATION_COMPLETE (R195): A queued invalidation drops translations, drains accesses, cleans and adds to SGA. -/
  | invalidationComplete
  /-- CHECKPOINT_COMPLETE (R374): A checkpoint's transfer ends with its completion add. -/
  | checkpointComplete
  /-- PROFILE_CYCLE (R387): Every core cycle each lane adds 1 to H(e) and charges a stall reason to its oldest warp when no warp is eligible, and the cycle count of CLK advances. -/
  | profileCycle
  deriving DecidableEq, Repr

end Sys2Proof
end

