-- ==== Sys2Proof/Config.lean ====
section
/-!
DEFINITION. What an implementation fixes and what the spec leaves open, as constants without a body: no proof can
see a value of them.
-/

namespace Sys2Proof.Config

/-- A value the spec leaves open, one for each value of the counter `State.freeCtr`. -/
opaque freeValue : Nat → W64

/-- The device serial number in fuses (R397 DEVID). -/
opaque deviceId : W64

/-- The minimum security version in fuses (R393, R395). -/
opaque fusedSvn : W32

/-- The key digest in fuses (R393). -/
opaque fusedKeyDigest : BitVec 512

/-- The version of the boot ROM (R395, measurement 1). -/
opaque bootRomVersion : W32

/-- SHA-512 of a byte string (R393, R395). -/
opaque sha512 : List Byte → BitVec 512

/-- ECDSA P-521 verification of a signature over a digest by a public key (R393). -/
opaque ecdsaVerify : (key : List Byte) → (sig : List Byte) → (digest : BitVec 512) → Bool

/-- The signature the device makes with its identity key (R395). -/
opaque identitySign : List Byte → List Byte

/-- The certificate chain of the identity key (R395). -/
opaque certificate : List Byte

/-- The bytes of the response of SPDM 1.3 to a request for which R395 states no content. -/
opaque spdmResponse : (code : Nat) → (arg : Nat) → List Byte

/-- The flit buffers of a traffic class at a Karst port (R366), of which no rule states the number. -/
opaque flitBuffers : (cls : Nat) → Nat

/-- The place of the storage that the host has assigned to a context for the image that PREEMPT writes without shadow storage (R343), of
which no rule states the address: counted in units of 64 bytes. -/
opaque imageArea : (ctx : Nat) → Nat

end Sys2Proof.Config
end

