-- ==== Sys2Proof/Machine/State.lean ====
section
/-!
DEFINITION. The state of the machine as plain data: everything the spec gives the device, its state after reset,
and the faults and refusals a step can end in.
-/

namespace Sys2Proof.Machine

open Sys2Proof

/-- Memory as a list of address and byte pairs in canonical form: addresses strictly rising, and no entry equal to
what an unlisted address reads as (zero: R392 writes HBM to zero and clears every vault; R207 for scratch). -/
abbrev Memory := List Host.Cell

/-- The cause codes of R361, in the order of their codes. -/
inductive Cause where
  /-- 0x00 TRAP_SOFTWARE: TRAP (R92); class N -/
  | trapSoftware
  /-- 0x01 BREAKPOINT: BKPT (R92); class G -/
  | breakpoint
  /-- 0x02 HW_BREAKPOINT: a hardware breakpoint; class G -/
  | hwBreakpoint
  /-- 0x03 WATCHPOINT: a hardware watchpoint; class G -/
  | watchpoint
  /-- 0x04 SINGLE_STEP: single-step mode; class G -/
  | singleStep
  /-- 0x05 ILLEGAL_OPCODE: R41; class W -/
  | illegalOpcode
  /-- 0x06 RESERVED_FIELD: R25 and every rule that names it; class W -/
  | reservedField
  /-- 0x07 ILLEGAL_SELECTOR: R26; class W -/
  | illegalSelector
  /-- 0x08 LATCH_MISUSE: R80; class W -/
  | latchMisuse
  /-- 0x09 PRIVILEGED: R42, R341; class W -/
  | privileged
  /-- 0x0A UNIFORM_MISUSE: R28; class W -/
  | uniformMisuse
  /-- 0x0B TYPE_INVALID: R45; class W -/
  | typeInvalid
  /-- 0x0C MACRO_INVALID: R89; class W -/
  | macroInvalid
  /-- 0x0D MACRO_PARAM: R26; class W -/
  | macroParam
  /-- 0x0E PROFILE: R43; class W -/
  | profile
  /-- 0x0F FP_TRAP: R57; class W -/
  | fpTrap
  /-- 0x10 FETCH_NOT_PRESENT: R85, R225; class W -/
  | fetchNotPresent
  /-- 0x11 FETCH_PERMISSION: R85; class W -/
  | fetchPermission
  /-- 0x12 FETCH_PARITY: R20; class W -/
  | fetchParity
  /-- 0x13 LINE_WORD_RESERVED: R20; class W -/
  | lineWordReserved
  /-- 0x14 BRANCH_TARGET: R21; class W -/
  | branchTarget
  /-- 0x15 MISALIGNED_PC: R21; class W -/
  | misalignedPc
  /-- 0x16 REGION_RECORD: R38, R67, R242; class W -/
  | regionRecord
  /-- 0x17 REGION_LENGTH: R77; class W -/
  | regionLength
  /-- 0x18 RETURN_TARGET: R21; class W -/
  | returnTarget
  /-- 0x19 SUMP_CONFIG: R254; class W -/
  | sumpConfig
  /-- 0x1A SUMP_OVERFLOW: R244; class W -/
  | sumpOverflow
  /-- 0x1B SUMP_STATE: R252, R254; class W -/
  | sumpState
  /-- 0x1C TRIGGER_TWICE: R166; class W -/
  | triggerTwice
  /-- 0x1D IFETCH_POISON: R85; class W -/
  | ifetchPoison
  /-- 0x1E GUARD_INVALID: R303; class W -/
  | guardInvalid
  /-- 0x1F TASK_TIMEOUT: R159; class A -/
  | taskTimeout
  /-- 0x20 NOT_PRESENT: R121, R185, R188; class W; E cause -/
  | notPresent
  /-- 0x21 PERMISSION_READ: R121, R188; class W; E cause -/
  | permissionRead
  /-- 0x22 PERMISSION_WRITE: R121, R188; class W; E cause -/
  | permissionWrite
  /-- 0x23 MISALIGNED: R121, R215 and the rules that name it; class W; E cause -/
  | misaligned
  /-- 0x24 PRIVILEGED_PAGE: R121, R188; class W; E cause -/
  | privilegedPage
  /-- 0x25 COMP_PAGE_STORE: R188; class W -/
  | compPageStore
  /-- 0x26 SG_PAGE_MISUSE: R188; class W; E cause -/
  | sgPageMisuse
  /-- 0x27 NOT_SG_PAGE: R121; class W; E cause -/
  | notSgPage
  /-- 0x28 SCRATCH_RANGE: R201; class W; E cause -/
  | scratchRange
  /-- 0x29 VAULT_RANGE: R202; class W; E cause -/
  | vaultRange
  /-- 0x2A DEBUG_SPACE: R203; class W -/
  | debugSpace
  /-- 0x2B PAGE_TABLE_FORMAT: R185, R186; an invalidation's SGA (R195); class W; E cause; R -/
  | pageTableFormat
  /-- 0x2C DATA_POISON: a load, atomic or TST reading poisoned memory; class W -/
  | dataPoison
  /-- 0x2D ATOMIC_UNSUPPORTED: R236, R237; class W -/
  | atomicUnsupported
  /-- 0x2E REDUCTION_WINDOW: R188; class W -/
  | reductionWindow
  /-- 0x2F REMOTE_UNREACHABLE: R120; class W; E cause -/
  | remoteUnreachable
  /-- 0x30 SG_OVERFLOW: R122, R290; class W; E cause; R for a released DRAIN -/
  | sgOverflow
  /-- 0x31 SG_WAIT_TIMEOUT: R126; class W -/
  | sgWaitTimeout
  /-- 0x32 BARRIER_STATE: R169, R172, R181; class W -/
  | barrierState
  /-- 0x33 BARRIER_OVERRUN: R172; class W -/
  | barrierOverrun
  /-- 0x34 GROUP_SLOT: R177, R180, R181; class W -/
  | groupSlot
  /-- 0x35 WSYNC_MASK: R182; class W -/
  | wsyncMask
  /-- 0x36 WSYNC_EXITED: R182; class W -/
  | wsyncExited
  /-- 0x37 RING_MISUSE: R134; class W; E cause -/
  | ringMisuse
  /-- 0x38 SECTION_UNDERFLOW: R264; class W -/
  | sectionUnderflow
  /-- 0x39 SECTION_DEPTH: R264; class W -/
  | sectionDepth
  /-- 0x3A GP_WAIT_IN_SECTION: R266; class W -/
  | gpWaitInSection
  /-- 0x3B SECTION_REQUIRED: R260; class W -/
  | sectionRequired
  /-- 0x3C DFQ_INVALID: R257, R267, R324; a bad destination when freeing (R267); class W; R -/
  | dfqInvalid
  /-- 0x3D STAGE_MISUSE: R306; class W -/
  | stageMisuse
  /-- 0x3E LAUNCH_DEPENDENCE: R145, R149, R153, R158, R162; class Q; R for R149, R153, R158 and R162 -/
  | launchDependence
  /-- 0x3F JOIN_MISUSE: R165; class W -/
  | joinMisuse
  /-- 0x40 PLANE_NOT_OWNED: R271, R275; class W -/
  | planeNotOwned
  /-- 0x41 TILE_NOT_OWNED: R271; class W -/
  | tileNotOwned
  /-- 0x42 SHAPE_RANGE: R285, R287, R290, R317, R329; class W -/
  | shapeRange
  /-- 0x43 FORMAT_MISMATCH: R270, R285; class W -/
  | formatMismatch
  /-- 0x44 SPARSE_META: R285; class W -/
  | sparseMeta
  /-- 0x45 MATRIX_RESET: R291; class A -/
  | matrixReset
  /-- 0x46 DRAIN_FORMAT: R290; class W -/
  | drainFormat
  /-- 0x47 ACC_RANGE: R288; class W -/
  | accRange
  /-- 0x48 COPY_INVALID: R296; class W -/
  | copyInvalid
  /-- 0x49 COPY_FAULT: R298, R299, R300; class E -/
  | copyFault
  /-- 0x4A XFORM_INVALID: R334; class W -/
  | xformInvalid
  /-- 0x4B XFORM_FAULT: R308; class E -/
  | xformFault
  /-- 0x4C ENGINE_POISON: R290, R300; class E; R for a released DRAIN -/
  | enginePoison
  /-- 0x4D COPY_SCHEDULE: R304; class W -/
  | copySchedule
  /-- 0x4E OSR_INVALID: R272; class W -/
  | osrInvalid
  /-- 0x4F HADAMARD_SHAPE: R290; class W -/
  | hadamardShape
  /-- 0x50 DECODE_HEADER: R321, R322; class W; E cause -/
  | decodeHeader
  /-- 0x51 DECODE_CODE: R321, R322; class W; E cause -/
  | decodeCode
  /-- 0x52 DECODE_LENGTH: R321, R322; class W; E cause -/
  | decodeLength
  /-- 0x53 DECODE_CHECK: R321, R322; class W; E cause -/
  | decodeCheck
  /-- 0x54 DECODE_TABLE_TAG: R321; class W; E cause -/
  | decodeTableTag
  /-- 0x55 DECODE_SCALE: R59, R118, R274, R321; class W; E cause -/
  | decodeScale
  /-- 0x56 CODE_TABLE_INVALID: R312, R330, R331, R334; class W -/
  | codeTableInvalid
  /-- 0x57 BIX_ENTRY: R267, R299, R321; class W; E cause -/
  | bixEntry
  /-- 0x58 POOL_EXHAUSTED: R320, R324; class W; E cause -/
  | poolExhausted
  /-- 0x59 TDESC_INVALID: R317, R319, R332; class W; E cause -/
  | tdescInvalid
  /-- 0x5A LAUNCH_INVALID: R138, R145; LAUNCH to a queue the context does not own (R142); class Q; W -/
  | launchInvalid
  /-- 0x5B QUEUE_ENTRY: R137, R138, R140; class Q -/
  | queueEntry
  /-- 0x5C CONTEXT_PROFILE: R339, R346; class H -/
  | contextProfile
  /-- 0x5D LINK_ERROR: a Karst port going down or frozen with the context's traffic in flight (see Link); class R -/
  | linkError
  /-- 0x5E UNCORRECTABLE_STATE: R339, R345, R346; class H -/
  | uncorrectableState
  /-- 0x5F KILLED: KILL, one record naming the task (R351); class R -/
  | killed
  deriving DecidableEq, Repr

/-- The code of a cause (R361). -/
def Cause.code : Cause → Nat
  | .trapSoftware => 0x00
  | .breakpoint => 0x01
  | .hwBreakpoint => 0x02
  | .watchpoint => 0x03
  | .singleStep => 0x04
  | .illegalOpcode => 0x05
  | .reservedField => 0x06
  | .illegalSelector => 0x07
  | .latchMisuse => 0x08
  | .privileged => 0x09
  | .uniformMisuse => 0x0A
  | .typeInvalid => 0x0B
  | .macroInvalid => 0x0C
  | .macroParam => 0x0D
  | .profile => 0x0E
  | .fpTrap => 0x0F
  | .fetchNotPresent => 0x10
  | .fetchPermission => 0x11
  | .fetchParity => 0x12
  | .lineWordReserved => 0x13
  | .branchTarget => 0x14
  | .misalignedPc => 0x15
  | .regionRecord => 0x16
  | .regionLength => 0x17
  | .returnTarget => 0x18
  | .sumpConfig => 0x19
  | .sumpOverflow => 0x1A
  | .sumpState => 0x1B
  | .triggerTwice => 0x1C
  | .ifetchPoison => 0x1D
  | .guardInvalid => 0x1E
  | .taskTimeout => 0x1F
  | .notPresent => 0x20
  | .permissionRead => 0x21
  | .permissionWrite => 0x22
  | .misaligned => 0x23
  | .privilegedPage => 0x24
  | .compPageStore => 0x25
  | .sgPageMisuse => 0x26
  | .notSgPage => 0x27
  | .scratchRange => 0x28
  | .vaultRange => 0x29
  | .debugSpace => 0x2A
  | .pageTableFormat => 0x2B
  | .dataPoison => 0x2C
  | .atomicUnsupported => 0x2D
  | .reductionWindow => 0x2E
  | .remoteUnreachable => 0x2F
  | .sgOverflow => 0x30
  | .sgWaitTimeout => 0x31
  | .barrierState => 0x32
  | .barrierOverrun => 0x33
  | .groupSlot => 0x34
  | .wsyncMask => 0x35
  | .wsyncExited => 0x36
  | .ringMisuse => 0x37
  | .sectionUnderflow => 0x38
  | .sectionDepth => 0x39
  | .gpWaitInSection => 0x3A
  | .sectionRequired => 0x3B
  | .dfqInvalid => 0x3C
  | .stageMisuse => 0x3D
  | .launchDependence => 0x3E
  | .joinMisuse => 0x3F
  | .planeNotOwned => 0x40
  | .tileNotOwned => 0x41
  | .shapeRange => 0x42
  | .formatMismatch => 0x43
  | .sparseMeta => 0x44
  | .matrixReset => 0x45
  | .drainFormat => 0x46
  | .accRange => 0x47
  | .copyInvalid => 0x48
  | .copyFault => 0x49
  | .xformInvalid => 0x4A
  | .xformFault => 0x4B
  | .enginePoison => 0x4C
  | .copySchedule => 0x4D
  | .osrInvalid => 0x4E
  | .hadamardShape => 0x4F
  | .decodeHeader => 0x50
  | .decodeCode => 0x51
  | .decodeLength => 0x52
  | .decodeCheck => 0x53
  | .decodeTableTag => 0x54
  | .decodeScale => 0x55
  | .codeTableInvalid => 0x56
  | .bixEntry => 0x57
  | .poolExhausted => 0x58
  | .tdescInvalid => 0x59
  | .launchInvalid => 0x5A
  | .queueEntry => 0x5B
  | .contextProfile => 0x5C
  | .linkError => 0x5D
  | .uncorrectableState => 0x5E
  | .killed => 0x5F

/-! ## Threads and warps -/

/-- The state of a latch (R80). -/
inductive LatchState where
  | cleared
  | valid
  | lost
  deriving DecidableEq, Repr

/-- One latch of a thread: up to 64 bits and its state (R30, R80). -/
structure Latch where
  st : LatchState
  val : W64
  deriving DecidableEq, Repr

/-- A live-in record (R38): the registers and predicates marked live at a region's entry. -/
structure LiveRecord where
  g : BitVec 128
  s : BitVec 64
  p : BitVec 8
  q : BitVec 8
  deriving DecidableEq, Repr

/-- A thread's region (R75 to R77, R99, R218, R281). -/
structure Region where
  /-- the thread stands in a region -/
  inside : Bool
  /-- the region entry PC -/
  entry : W64
  live : LiveRecord
  /-- the first committing instruction has been executed (R76) -/
  committed : Bool
  /-- instructions executed since the region committed (R77) -/
  count : Nat
  /-- the lines that loads of the region touched, at most 16 (R218): a space code and a line number -/
  lines : List (Nat × Nat)
  /-- more than 16 lines were touched -/
  many : Bool
  /-- the stochastic state copied at the region's entry (R99) -/
  seed : W32
  /-- the tiles the region has read (R281) -/
  tiles : List Nat
  /-- a replay has sent the thread to this entry and its RGN has not run since (R74) -/
  replayed : Bool
  /-- the entry is the wait half of a GBAR, which arrived before the region began (R181) -/
  half : Bool
  deriving DecidableEq, Repr

/-- What a sump loop keeps of a producer while consumers run (R245, R250). -/
structure Producer where
  pc : W64
  k : Vector Latch 4
  region : Region
  /-- the producer waits at a WSYNC (R182, R246), or stands at the wait half of a GBAR -/
  wsync : Option (W32 × Nat)
  atHalf : Bool
  deriving DecidableEq, Repr

/-- One thread of a warp (R67). -/
structure Thread where
  pc : W64
  g : Vector W32 128
  /-- g32 to g63 of the bank not in use (R241) -/
  bank : Vector W32 32
  /-- p0 to p6 -/
  p : BitVec 8
  k : Vector Latch 4
  /-- stochastic state (R55) -/
  seed : W32
  exited : Bool
  /-- TRIG has marked the thread (R166) -/
  triggered : Bool
  /-- the thread waits at a WSYNC: its whole mask operand and the path mask (R182) -/
  wsync : Option (W32 × Nat)
  /-- the thread stands at the wait half of a GBAR (R181) -/
  atHalf : Bool
  region : Region
  /-- the producer state kept while consumers run (R250) -/
  prod : Producer
  deriving DecidableEq, Repr

/-- States of a warp (R68). -/
inductive WarpState where
  | ready
  | running
  | blocked
  | suspended
  | done
  deriving DecidableEq, Repr

/-- Where an access lands after its checks: the home of a word (R200). -/
inductive Place where
  /-- local physical address -/
  | phys (pa : Nat)
  /-- a peer and the offset on that peer (R187) -/
  | remote (peer off : Nat)
  /-- offset into the task's scratchpad -/
  | scratch (off : Nat)
  /-- vault address: vault id in bits 29:24 -/
  | vault (a : Nat)
  /-- an address of the debug window (R377) -/
  | debug (a : Nat)
  deriving DecidableEq, Repr

/-- One stalagmite a warp's wait names, with the largest of its threads' targets (R123). -/
structure WaitItem where
  place : Place
  target : Nat
  /-- the lowest thread that names it, and its address -/
  tid : Nat
  va : Nat
  deriving DecidableEq, Repr

/-- A wait in progress (R123 to R127). -/
structure Wait where
  items : List WaitItem
  /-- the participants and their targets, for the mask of a timeout: threads, place, target, timeout -/
  parts : List (Nat × Place × Nat × Nat)
  /-- core cycles since the wait was issued while Blocked (R126) -/
  elapsed : Nat
  /-- the homes of this device have accepted a waiter entry for each item (R124) -/
  entered : Bool
  /-- a wake has been sent by the home (R127 Woken) -/
  woken : Bool
  /-- the stall reason it is counted under: 3 a Stalagmite or queue wait, 4 a barrier, 14 a gradient place (R387) -/
  why : Nat
  deriving DecidableEq, Repr

/-- Why a warp does not issue although it is Running or Ready; the indexes of R387 name what is charged. -/
inductive Stall where
  /-- an instruction-cache fill for the 256-byte line at a PC is outstanding (R84, R224) -/
  | fetch (line : Nat)
  /-- a remote response is outstanding (R368) -/
  | remote
  /-- the quarter's matrix port is full (R277) -/
  | matrixPort
  /-- the plane is Loading, or earlier MMAs still need it (R275) -/
  | planeBusy
  /-- an earlier operation naming the tile has not retired (R280) -/
  | tileInterlock
  /-- earlier users of a code-table slot have not finished (R315) -/
  | decode
  /-- TLBINV: no free command entry (R194) -/
  | tlbQueue
  /-- the operands of a WLOAD or an MMA are being fetched (R275, R277) -/
  | memory
  /-- the drain encoder serves earlier operations (R324) -/
  | encode
  /-- the warp is being sent back to its region entries (R81) -/
  | replay
  /-- a mode switch of the sump is being made (R250) -/
  | sumpSwitch
  deriving DecidableEq, Repr

/-- Position within a macro body (R83): the macro, the body slot, and the supplied selectors m0 to m3. -/
structure MacroPos where
  num : Nat
  slot : Nat
  body : List InstrWord
  m0 : Selector
  m1 : Selector
  m2 : Selector
  m3 : Selector
  deriving DecidableEq, Repr

/-- A filled group slot of a warp (R177). -/
structure GroupSlot where
  num : Nat
  bar : W64
  nmem : Nat
  rank : Nat
  deriving DecidableEq, Repr

/-- Modes of a sump loop (R245). -/
inductive SumpMode where
  | inactive
  | producing
  | consuming
  | draining
  deriving DecidableEq, Repr

/-- The sump state of a warp with its latched descriptor (R242, R245). -/
structure Sump where
  mode : SumpMode
  head : Nat
  count : Nat
  done : BitVec 16
  cmask : BitVec 16
  rmask : BitVec 16
  pe : W64
  ce : W64
  xe : W64
  base : Nat
  cap : Nat
  high : Nat
  width : Nat
  deriving DecidableEq, Repr

/-- A fault record as R352 lays it out, before it is written to memory. -/
structure FaultRec where
  cause : Cause
  /-- the source of bits 2:0 of CLASS -/
  source : Nat
  seqv : Bool
  macv : Bool
  coord : Bool
  mslot : Nat
  unit : Nat
  handle : Nat
  tmask : BitVec 16
  done : BitVec 16
  seq : Nat
  pc : Nat
  addr : Nat
  bitoff : Nat
  tag : Nat
  extra : Nat
  aux : Nat
  time : Nat
  /-- the stopped source that waits for the record, not part of its bytes: a warp by its task's name and index, or an
  engine by its core (R358) -/
  src : Nat × Nat
  deriving DecidableEq, Repr

/-- A suspension of a warp (R353). -/
structure Suspension where
  cause : Cause
  /-- class N or G: RESUME continues after the instruction for the threads of this mask (R353) -/
  skip : BitVec 16
  /-- class N: the threads that have executed the instruction (R77) -/
  ran : BitVec 16
  /-- the record has been pushed to its ring (R358) -/
  pushed : Bool
  /-- RESUME has come before the record was taken: the warp goes on when it is (R351, R358) -/
  resumed : Bool
  deriving DecidableEq, Repr

/-- A warp (R67, R68). -/
structure Warp where
  st : WarpState
  threads : Vector Thread 16
  s : Vector W64 64
  q : BitVec 8
  flags : W32
  /-- the done mask of a thread-by-thread instruction (R129) -/
  done : BitVec 16
  mac : Option MacroPos
  /-- section depth (R259) -/
  depth : Nat
  /-- held-command count (R259) -/
  held : Nat
  /-- the holding mark (R261) -/
  mark : Bool
  /-- GBAR's wait target (R181) -/
  gwt : W64
  groups : Vector (Option GroupSlot) 4
  /-- IMPLQ values latched at the last RGN (R348) -/
  implq : Vector W64 16
  sump : Sump
  /-- pending asynchronous causes (R355) -/
  pendTimeout : Bool
  pendReset : Option Nat
  wait : Option Wait
  susp : Option Suspension
  stall : Option Stall
  /-- remote stores that failed, for the next release to report: address and reason (R368) -/
  failed : List (Nat × Nat)
  /-- profiling counters (R387) -/
  issued : Nat
  stalls : Vector Nat 16
  /-- core cycles since the lane selected the warp (R73) -/
  since : Nat
  /-- core cycles of the memory or fetch stall in which the warp stands (R73) -/
  stalled : Nat
  /-- a switch is taken at the next RGN (R73) -/
  quantum : Bool
  /-- the threads that a pre-emption in progress has stopped (R78, R343) -/
  halted : BitVec 16
  lane : Nat
  slot : Nat
  /-- trace bookkeeping: the last issue PC and active mask of a traced warp (R384) -/
  lastPc : W64
  lastMask : BitVec 16
  /-- global CORE-path accesses of the instruction being executed, for watchpoints (R380): thread, write, address,
  bytes; the model's own field -/
  touched : List (Nat × Bool × Nat × Nat)
  /-- a write to the warp record left a value outside its limits (R345, R378) -/
  bad : Bool
  deriving DecidableEq, Repr

/-! ## Tasks and kernels -/

/-- State of a plane (R275). -/
inductive PlaneState where
  | empty
  | loading
  | loaded
  deriving DecidableEq, Repr

/-- A stationary plane (R270): format, K, N, 2:4 pattern, element codes and scale words by column. -/
structure Plane where
  st : PlaneState
  fmt : Nat
  k : Nat
  n : Nat
  sparse : Bool
  /-- 32-element scale blocks -/
  bs32 : Bool
  unit : Bool
  /-- per column, the stored elements: position along K and code -/
  cols : List (List (Nat × Nat))
  /-- per column, the scale words -/
  scales : List (List W32)
  deriving DecidableEq, Repr

/-- A code table (R312): the counts of each length, the symbols in code order, and the tag. -/
structure CodeTable where
  counts : List Nat
  order : List Nat
  tag : Nat
  deriving DecidableEq, Repr

/-- A guard (R302). -/
inductive Guard where
  | unresolved
  | isTrue
  | isFalse
  deriving DecidableEq, Repr

/-- An entry of the static copy schedule (R304). -/
structure SchedEntry where
  src : W64
  dst : W64
  sstr : W32
  dstr : W32
  rows : Nat
  len : Nat
  csg : W64
  amt : Nat
  stage : Nat
  sspace : Nat
  dspace : Nat
  guarded : Option Nat
  deriving DecidableEq, Repr

/-- A step of placement that failed and is repeated by RESUME (R157). -/
inductive PlaceStep where
  | frame
  | macros
  | tdescs
  | ctables
  | schedule
  | groups
  | entry
  deriving DecidableEq, Repr

/-! ## Engines -/

/-- What an engine command does (R295, R304, R334). -/
inductive CmdKind where
  | cpy (src : W64) (dst : W64) (len : Nat) (sspace dspace : Nat) (ring : Bool)
  | cpy2 (src : W64) (dst : W64) (sstr dstr : W32) (rows len : Nat) (sspace dspace : Nat)
  | cpyt (src : W64) (dst : W64) (pool : W64) (count : Nat)
  | xform (form : Nat) (tx ty : Nat) (raw : W64) (rawStride : W32) (rawSpace : Nat) (count : Nat)
      (srcTd dstTd : BitVec 512) (table : Option CodeTable) (slot mode : Nat) (fine : Bool) (srcSlot : Nat)
  deriving DecidableEq, Repr

/-- An engine command (R294, R307). -/
structure EngineCmd where
  seq : Nat
  pc : Nat
  task : Nat
  warp : Nat
  ctx : Nat
  kid : Nat
  priv : Bool
  kind : CmdKind
  csg : W64
  amt : Nat
  guarded : Option Nat
  /-- the command holds its warp's section (R259) -/
  hold : Bool
  /-- it came from the schedule and takes no queue place (R294) -/
  fromSched : Bool
  /-- FILL kept for a restart of a ring copy (R298), or the extent taken for the tile in hand (R299) -/
  kept : Option Nat
  /-- tiles of a CPYT completed (R299) -/
  progress : Nat
  /-- the payload is written; only the completion add is left -/
  moved : Bool
  /-- the destination entry of the tile in hand as it stood before the tile was written (R299) -/
  was : Option Nat
  /-- the slot of a ring copy is written; its FILL add is left (R298) -/
  wrote : Bool
  /-- a False guard has discarded it; its completion add is left (R302) -/
  dropped : Bool
  /-- the TAG of the launch -/
  tag : W32
  /-- a pre-emption has taken it stopped on a fault (R301, R358): whether its record had been taken, and a RETRY (1) or DROP (2) that
  waits for that -/
  stopped : Option (Bool × Nat)
  deriving DecidableEq, Repr

/-- A task (R156 to R159). -/
structure Task where
  /-- the model's name for the task, never reused -/
  id : Nat
  ctx : Nat
  /-- slot in the context's task directory (R351) -/
  dir : Nat
  /-- the kernel's name -/
  kid : Nat
  /-- the core it is resident on; none while saved -/
  core : Option Nat
  index : Nat
  x : W32
  y : W32
  z : W32
  frame : W64
  join : W64
  entry : W64
  /-- the fetch line at ENTRY from the launch buffer, for the kernel's first task (R163); none otherwise -/
  entryLine : List Byte
  spawned : Bool
  counted : Bool
  regs : Nat
  warps : List Warp
  spad : Nat
  scratch : Memory
  units : List Nat
  /-- vault id, offset and length in 64 KiB units (R202) -/
  vault : Option (Nat × Nat × Nat)
  /-- accumulator tiles: their bytes, tile t from 8192 t on (R271) -/
  tileMem : Memory
  tiles : List Nat
  planes : List Plane
  /-- physical planes of the core in order -/
  planeIds : List Nat
  ctn : Nat
  ctSlots : List (Option CodeTable)
  /-- physical code-table slots of the core in order -/
  ctIds : List Nat
  /-- td0 to td15: the 64 bytes of each (R316) -/
  td : Vector (BitVec 512) 16
  gd : Vector Guard 32
  stage : Nat
  sched : List SchedEntry
  /-- schedule entries released so far (R305) -/
  released : Nat
  /-- loaded macro bodies by number; none is invalid or empty (R82) -/
  macros : List (Nat × List InstrWord)
  /-- cycles left under TLIMIT (R159); none when TLIMIT is 0 -/
  timer : Option Nat
  pendingStep : Option PlaceStep
  /-- its warps and slots have been freed; commands of it may still run (R158) -/
  ended : Bool
  /-- placement order on the core, for the oldest warp of a lane (R387) -/
  born : Nat
  /-- engine commands kept while the task is off its core (R301), in order: whether of the transform engine -/
  cmds : List (Bool × EngineCmd)
  /-- KILL has ended it, and its KILLED record has not been taken yet (R351, R358) -/
  owes : Bool
  /-- the core that a pre-emption has taken it from, to which it returns where it can (R344); 192 for none -/
  last : Nat
  deriving DecidableEq, Repr

/-- A launch record (R144). -/
structure LaunchRec where
  entry : W64
  rtab : W64
  macros : W64
  macmask : BitVec 64
  tdtab : W64
  tdmask : BitVec 16
  ctmask : BitVec 16
  prof : Nat
  warps : Nat
  regs : Nat
  spad : Nat
  cttab : W64
  tiles : Nat
  planes : Nat
  place : Nat
  order : Nat
  prio : Nat
  cscnt : Nat
  vault : Nat
  gtab : W64
  gcnt : Nat
  ctn : Nat
  tlimit : Nat
  csched : W64
  gx : Nat
  gy : Nat
  gz : Nat
  cblk : Nat
  affbase : W64
  deps : List (W64 × Nat)
  cond : W64
  trigsg : W64
  donesg : W64
  trigamt : Nat
  doneamt : Nat
  status : W64
  deriving DecidableEq, Repr

/-- A kernel (R147). -/
structure Kernel where
  /-- the model's name for the kernel, never reused -/
  id : Nat
  ctx : Nat
  queue : Nat
  lrec : W64
  args : W64
  tag : W32
  lr : LaunchRec
  /-- state number of R147 -/
  st : Nat
  handle : Option Nat
  /-- grid records pushed, and the place on the curve from which the next is sought (R151, R154) -/
  pushed : Nat
  curve : Nat
  /-- SPAWN records so far (R151) -/
  spawns : Nat
  /-- live tasks, placed or not (R158) -/
  live : Nat
  /-- counted threads that have neither triggered nor exited (R161), of placed and unplaced tasks -/
  counted : Nat
  /-- the trigger add has been made -/
  trigDone : Bool
  /-- the status word has been written (R162) -/
  statusDone : Bool
  /-- the fetch line at ENTRY read when the head validated, kept for the first task (R163) -/
  line : List Byte
  placed : Bool
  /-- JOIN adds owed for records it has discarded (R158) -/
  joins : List W64
  deriving DecidableEq, Repr

/-- A continuation record waiting in a context's queue (R152, R153). -/
structure Cont where
  /-- the model's name for the record, never reused -/
  id : Nat
  w0 : W64
  w1 : W64
  w2 : W64
  w3 : W64
  kid : Nat
  index : Nat
  /-- grid coordinates; none for a spawned task -/
  coord : Option (Nat × Nat × Nat)
  counted : Bool
  /-- LAUNCH_DEPENDENCE has been pushed for condition 1, 2 (R153) -/
  told : List Nat
  /-- conditions that have been met -/
  met : List Nat
  /-- its place in the queue's memory (R342) -/
  slot : Nat
  deriving DecidableEq, Repr

/-- States of a queue (R136, R141). -/
inductive QueueState where
  | disabled
  | enabled
  | running
  | blocked
  | errored
  | suspended
  | drained
  deriving DecidableEq, Repr

/-- The head a queue holds (R138). -/
structure QueueHead where
  lrec : W64
  args : W64
  tag : W32
  lr : LaunchRec
  line : List Byte
  /-- dependence conditions that have been met (R148) -/
  met : List Nat
  /-- every one of them is met: the head is ready, from this time on (R139) -/
  ready : Option Nat
  deriving DecidableEq, Repr

/-- A queue (R136). -/
structure Queue where
  qring : W64
  st : QueueState
  dev : Bool
  aff : Bool
  ctx : Nat
  wgt : Nat
  pri : Nat
  rdpos : W64
  /-- a DRAIN's note F (R141) -/
  drain : Option Nat
  /-- appends counted by the distributor on a DEV queue (R140) -/
  appends : Nat
  head : Option QueueHead
  /-- full milliseconds the head has been ready (R139) -/
  age : Nat
  /-- launches served in the present turn (R139) -/
  served : Nat
  /-- the error's record has been taken by the fault ring, and a SKIP (1) or RETRY (2) that came before that (R358) -/
  told : Bool
  todo : Nat
  /-- an entry is being retired (R136, R141): 1 by its submission, 2 by SKIP, 3 by SKIP of a ring that was overrun; and the commands that
  wait, for that or for a peer -/
  retiring : Nat
  later : List Nat
  /-- the warp whose LAUNCH is appending an entry, and whether its add to FILL is on its way (R142): an append is one act -/
  appending : Option (Nat × Nat × Bool)
  deriving DecidableEq, Repr

/-- The state numbers of CECTL and XECTL (R300): 0 idle, 1 running, 2 held on a guard, 3 stopped. -/
structure Engine where
  st : Nat
  queue : List EngineCmd
  /-- the record of a stopped command has been pushed (R358) -/
  pushed : Bool
  /-- RETRY (1) or DROP (2) has come before the record was taken (R300, R358) -/
  todo : Nat
  deriving DecidableEq, Repr

/-- A matrix operation of a core (R276). -/
structure MatOp where
  /-- its number: operations are numbered as they come -/
  n : Nat
  /-- the core cycle at which it issued -/
  cycle : Nat
  quarter : Nat
  task : Nat
  warp : Nat
  /-- 0 MMA, 2 WLOAD; and an instruction that keeps its place while it waits: 1 ACCRD, ACCWR or ACCZ, 3 TLD, 4 an MMA before its
  plane is loaded or its port has a place, 5 TST, 6 DRAIN, 7 CTLD or CTINV -/
  kind : Nat
  /-- tile numbers of the task -/
  tile : Option Nat
  atile : Option Nat
  /-- plane number of the task -/
  plane : Option Nat
  /-- physical plane of the core -/
  physPlane : Nat
  /-- it decodes a coded tile, with a code-table slot that the tile names (R315) -/
  coded : Bool
  afmt : Nat
  m : Nat
  kA : Nat
  zero : Bool
  na : Bool
  nb : Bool
  /-- operand rows: the element codes and scale words of each (R273, R274), read in blocks of 32 or of 16 -/
  rows : List (List Nat × List W32)
  bs32 : Bool
  /-- the plane as it stood at the issue (R275) -/
  weights : Option Plane
  /-- its operands are held in the port (R277) -/
  inPort : Bool
  taken : Bool
  /-- its pass has left the array (R278) -/
  left : Bool
  /-- the word, kept for the end of an instruction whose warp waits for its operands (R275, R277) -/
  word : Option TWord
  /-- the registers of the shape record, and the descriptor, as they stood at its issue (R272, R328) -/
  osr : List W64
  td : Option (BitVec 512)
  /-- the address of a WLOAD's metadata at its issue (R285) -/
  maddr : Nat
  /-- the core cycle from which its bytes are fetched (R279) -/
  began : Option Nat
  deriving DecidableEq, Repr

/-- Bytes on their way to a place of local memory: virtual and physical address, and whether the page is a coded-pool
page (R197). -/
structure Piece where
  va : Nat
  pa : Nat
  comp : Bool
  bytes : List Byte
  deriving DecidableEq, Repr

/-- A DRAIN that has released its warp (R290). -/
structure DrainOp where
  task : Nat
  warp : Nat
  ctx : Nat
  kid : Nat
  priv : Bool
  pc : Nat
  seq : Nat
  /-- the block and the entry to write -/
  block : List Piece
  entry : List Piece
  /-- the old extent to defer, and the new one taken from the pool: address and size class -/
  old : Option (Nat × Nat)
  fresh : Option (Nat × Nat)
  pool : Nat
  /-- the completion stalagmite, when A names a register (R290) -/
  csg : Option W64
  hold : Bool
  /-- flags SU and SN to merge at retirement -/
  flags : W32
  tag : W32
  handle : Nat
  /-- the entry is published; the completion add is left -/
  published : Bool
  deriving DecidableEq, Repr

/-- A word of an L1 line (R210); Invalid words are not listed. An Owned word carries the mask of the bytes this
core has written. -/
structure L1Word where
  idx : Nat
  owned : Bool
  mask : BitVec 4
  val : W32
  deriving DecidableEq, Repr

/-- A line of an L1 (R209), most recently used first in the list of a core. -/
structure L1Line where
  pa : Nat
  /-- the way it stands in: a unit of the array from the boundary up (R204) -/
  way : Nat
  prio : Nat
  words : List L1Word
  deriving DecidableEq, Repr

/-- A line that a home slice holds (R212), most recently used first in the list of the device; its bytes are those of the memory
behind it, since no word of that is reached but through its slice (R213). -/
structure L2Line where
  pa : Nat
  prio : Nat
  deriving DecidableEq, Repr

/-- A 256-byte line of an instruction cache (R84): the address fetched, the physical address and its bytes. -/
structure ILine where
  ctx : Nat
  va : Nat
  pa : Nat
  bytes : Memory
  deriving DecidableEq, Repr

/-- An outstanding instruction-cache fill (R224). -/
structure IFill where
  ctx : Nat
  va : Nat
  pa : Nat
  deriving DecidableEq, Repr

/-- The debug registers of a core (R379, R383). -/
structure DebugRegs where
  hbp : Vector W64 8
  wpa : Vector W64 4
  wpl : Vector W64 4
  step0 : W64
  step1 : W64
  trccfg : W64
  trclen : W64
  trcpos : W64
  /-- warp instructions issued since the previous SYNC or ISSUE frame (R384) -/
  sinceFrame : Nat
  /-- frames of a freeze that wait for the THAW frame (R386): task, warp, TAG and body -/
  late : List (Nat × Nat × Nat × List Byte)
  deriving DecidableEq, Repr

/-- A lane: the slot that last ran and the eligibility counters (R73, R387). -/
structure Lane where
  last : Nat
  h : Vector Nat 5
  deriving DecidableEq, Repr

/-- A core (R8). -/
structure Core where
  cycles : Nat
  lanes : Vector Lane 32
  /-- the boundary between scratchpad units and L1 ways (R204) -/
  bound : Nat
  l1 : List L1Line
  icache : List ILine
  fills : List IFill
  /-- sequence counter of engine commands (R294) -/
  seq : W32
  copy : Engine
  xform : Engine
  /-- matrix operations not yet retired, in issue order (R276) -/
  ops : List MatOp
  nextOp : Nat
  /-- operations of the pass now in the array, and of passes that have left it, oldest first (R278) -/
  inArray : List Nat
  leaving : List (List Nat)
  lastLead : Nat
  /-- cycles without an advance (R291) -/
  idle : Nat
  drains : List DrainOp
  dbg : DebugRegs
  deriving DecidableEq, Repr

/-! ## Translation, contexts and the device -/

/-- A cached translation (R192): of a quarter's TLB (`quarter` some) or of a cluster's. -/
structure TlbEntry where
  cluster : Nat
  /-- core and quarter within it, none for the cluster TLB -/
  quarter : Option (Nat × Nat)
  ctx : Nat
  va : Nat
  /-- log2 of the bytes it maps: 16, 21 or 29 -/
  log : Nat
  pa : Nat
  /-- bits 15:0 of the entry, with A and D as cached -/
  bits : BitVec 16
  /-- physical address of the entry that the access's own VA indexes -/
  epa : Nat
  deriving DecidableEq, Repr

/-- A cached table entry of level 0 or 1 (R192). -/
structure WalkEntry where
  cluster : Nat
  ctx : Nat
  level : Nat
  va : Nat
  entry : W64
  deriving DecidableEq, Repr

/-- Who waits for a response to a request to a peer. -/
inductive Asker where
  /-- a warp; its answers belong to the instruction it stands at -/
  | warp (task warp : Nat)
  /-- a warp whose store has gone on; a release waits for it (R368, R370) -/
  | store (task warp : Nat)
  /-- the copy engine of a core, the transform engine serving a core, a released DRAIN -/
  | copy (core : Nat)
  | xform (core : Nat)
  | drain (core : Nat)
  /-- the distributor, for a queue, a kernel or a context -/
  | queue (q : Nat)
  | kernel (k : Nat)
  | context (c : Nat)
  /-- the fault ring of a context -/
  | ring (c : Nat)
  /-- an add or write that an agent makes for a kernel, or for a command (0), without waiting; a failure is reported under the cause -/
  | agent (cause : Cause) (kid : Nat)
  /-- a request whose answer nobody uses -/
  | post
  deriving DecidableEq, Repr

/-- Who waits on a stalagmite: a warp, a peer's tag, or an agent with the place of the wait in its access order (R124, R132). -/
inductive Waiter where
  | warp (task warp : Nat)
  | peer (peer tag : Nat)
  | agent (who : Asker) (key : Nat)
  deriving DecidableEq, Repr

/-- A waiter entry (R127). -/
structure WaiterEntry where
  pa : Nat
  target : Nat
  who : Waiter
  /-- state Woken: the wake is sent and not delivered yet -/
  woken : Bool
  deriving DecidableEq, Repr

/-- A queued invalidation command (R194). -/
structure Invalidation where
  va : Nat
  pa : Nat
  sga : W64
  npg : Nat
  ctx : Nat
  scope : Nat
  cln : Bool
  amt : Nat
  /-- the context whose tables and ring the completion add uses; none from the management interface -/
  from_ : Option Nat
  priv : Bool
  /-- it was the oldest when a freeze began, so it had started (R199) -/
  begun : Bool
  deriving DecidableEq, Repr

/-- A context slot (R337, R339, R341). -/
structure Context where
  /-- state number of R339 -/
  st : Nat
  priv : Bool
  prof : Nat
  ptroot0 : W64
  ptroot1 : W64
  /-- clusters and the partition each belongs to (R390 ASSIGN) -/
  parts : List (Nat × Nat)
  fpte : W32
  gpbase : W64
  dfqcfg : W64
  /-- the grace engine (R257, R261) -/
  gpreq : W64
  gpdone : W64
  req : Bool
  run : Bool
  /-- entries pushed since reset of the queue, for the place of the next (R258) -/
  dfqPushed : Nat
  /-- entries freed or dropped since then; the others stand in the queue memory (R258, R269) -/
  dfqFreed : Nat
  /-- places reserved by TST or DRAIN (R324) -/
  dfqHeld : Nat
  fring : W64
  fringTold : Bool
  cqcfg : W64
  shadow : Bool
  cq : List Cont
  /-- records waiting for the ring: of stopped sources, and of class R (R358) -/
  pend : List FaultRec
  rbuf : List FaultRec
  /-- where the save image lies and the length of its area (R345) -/
  image : Option (Nat × Nat)
  /-- a PREEMPT, SAVE, MIGRATE-OUT or TEARDOWN in progress -/
  moving : Bool
  deriving DecidableEq, Repr

/-- States of a Karst port by the numbers of R367, with its registers (R366, R375). -/
structure Port where
  st : Nat
  /-- the state it left when frozen -/
  was : Nat
  lanes : Nat
  rate : Nat
  peer : Nat
  /-- send allowances held, by class -/
  allow : Vector Nat 3
  crcFails : Nat
  replays : Nat
  /-- number of the next flit sent, and the unacknowledged flits -/
  txSeq : Nat
  replay : List Flit
  /-- flits held until the port is up and an allowance is there -/
  held : List Flit
  /-- number of the next flit expected -/
  rxSeq : Nat
  /-- consecutive failures of one flit -/
  fails : Nat
  /-- messages delivered and not yet executed, each in a buffer of its class -/
  inbox : List (Nat × FabricMsg)
  /-- allowances to return to the peer, and those that the peer holds, by class (R366) -/
  owed : Vector Nat 3
  granted : Vector Nat 3
  deriving DecidableEq, Repr

/-- An outstanding request of this device to a peer (R368). -/
structure Outstanding where
  tag : Nat
  peer : Nat
  port : Nat
  op : HomeOp
  who : Asker
  /-- place in the access order of who asks -/
  key : Nat
  ctx : Nat
  /-- the virtual address, for a record -/
  va : Nat
  /-- of a wait: 0 not answered yet, 1 the home has entered a waiter, 2 its table was full (R123, R124) -/
  entry : Nat
  /-- of a wait: the value that the home has answered -/
  seen : Nat
  deriving DecidableEq, Repr

/-- A response that came back and has not been used yet (R368): who asked, the place in its access order, whether
the request succeeded, and the value, or the reason of a failure (R368, R369). -/
structure Answer where
  who : Asker
  key : Nat
  ok : Bool
  val : Nat
  /-- the request that it answers, and its peer -/
  peer : Nat
  op : Option HomeOp
  deriving DecidableEq, Repr

/-- The folded contributions of this device to an element of a window in one round (R372): the peer by which they leave, their
operation, and the context and address that a record of their loss names. -/
structure Partial where
  peer : Nat
  op : HomeOp
  ctx : Nat
  va : Nat
  deriving DecidableEq, Repr

/-- A command of the ring in progress (R391): its TAG and what completes it. -/
inductive Busy where
  | preempt (ctx : Nat)
  | save (ctx : Nat)
  | migrate (ctx peer : Nat)
  | checkpoint (list : Nat) (count : Nat) (target : Nat) (cxl : Bool) (sga : Nat) (amt : Nat)
  | tlbinv
  deriving DecidableEq, Repr

/-- The management registers and what stands behind them (R389, R392 to R397). -/
structure Mgmt where
  /-- BOOTST.STATE: 0 Reset, 1 Boot, 2 Verifying, 3 Running -/
  boot : Nat
  svn : W32
  err : Nat
  therm : Bool
  bootAddr : W64
  /-- the copy of the image in on-die storage -/
  image : Memory
  /-- the verified image, for measurement 2 -/
  verified : Memory
  clkMax : Nat
  pwrCap : Nat
  clkLvl : Nat
  temp : Nat
  draw : Nat
  /-- milliseconds a die has been at or above 120 C (R396) -/
  hot : Nat
  mcBase : W64
  mcIrq : Bool
  mcEn : Bool
  mcLog : Nat
  mcFill : W64
  mcDone : W64
  busy : Option (W32 × Busy)
  /-- the host address of the slot of the command in progress, and whether MCDONE counts it: not after the ring has been enabled anew
  (R389) -/
  busySlot : Nat
  busyCounts : Bool
  spdmAgreed : Bool
  deriving DecidableEq, Repr

/-- Whose turn the next step is: a warp that issues, or a step of another agent. -/
inductive Turn where
  | issue (core warp : Nat)
  | event (i : Instr)
  /-- the management interface takes the next command of its ring (R389) -/
  | ring
  deriving DecidableEq, Repr

/-- A warp by its task's name and its index in the task. -/
structure WarpRef where
  task : Nat
  warp : Nat
  deriving DecidableEq, Repr

/-- Why a step ends in a fault of the model. -/
inductive Fault where
  /-- raised by a meaning that runs for a warp when `State.issuer` names no resident warp: only an agenda that names an
  instruction word as an event of another agent leads there (safe) -/
  | noIssuer
  deriving DecidableEq, Repr

/-- Why an instruction is refused. -/
inductive Refusal where
  /-- the arm of the dispatch has no meaning yet (safe) -/
  | notModelled (mnemonic : String)
  deriving DecidableEq, Repr

end Sys2Proof.Machine

namespace Sys2Proof.Machine

/-- The state of the device. -/
structure State where
  /-- management registers, boot and power -/
  mgmt : Mgmt
  /-- HBM behind its home slices, by local physical address (R213, R394) -/
  mem : Memory
  /-- the vaults, by vault address (R202) -/
  vault : Memory
  /-- the host's memory as the device reads and writes it (R373, R389) -/
  host : Memory
  /-- messages sent to the host: function and vector (R356, R389) -/
  msix : List (Nat × Nat)
  /-- reports to the host: context and cause code (R339, R358) -/
  reports : List (Nat × Nat)
  /-- SPDM responses sent: function, request code, response bytes (R395) -/
  spdm : List (Nat × Nat × List Byte)
  /-- poisoned 64-byte units of local memory -/
  poison : List Nat
  /-- the owner of each registered word: word address and core (R212) -/
  owners : List (Nat × Nat)
  /-- the lines that the home slices hold (R212) -/
  l2 : List L2Line
  /-- waiter entries of the slices (R124) -/
  waiters : List WaiterEntry
  tlb : List TlbEntry
  walks : List WalkEntry
  /-- queued invalidation commands (R194) -/
  invq : List Invalidation
  /-- TLBSTAT.BAD -/
  tlbBad : BitVec 8
  contexts : Vector Context 64
  queues : Vector Queue 64
  /-- the queue served last at each effective priority (R139) -/
  serving : Vector Nat 8
  /-- the queue whose turn it is (R139) -/
  turn : Option Nat
  kernels : List Kernel
  tasks : List Task
  cores : Vector Core 192
  /-- the core each transform engine served last (R307) -/
  xfTurn : Vector Nat 48
  ports : Vector Port 18
  /-- route mask of each peer (R368) -/
  routes : Vector (BitVec 18) 64
  /-- export ranges: peer, entry, first address, length (R369) -/
  exports : List (Nat × Nat × Nat × Nat)
  rwin : Vector W64 64
  rwrng : Vector W64 64
  outstanding : List Outstanding
  answers : List Answer
  /-- the contributions that stand at the egress port until their round is closed (R372) -/
  partials : List Partial
  nextTag : Nat
  /-- tags executed for peers, with the response kept until it is acknowledged (R368) -/
  served : List (Nat × Nat × Bool × Nat)
  /-- tags of peers whose response has been acknowledged: no request executes twice (R368) -/
  spent : List (Nat × Nat)
  /-- DBGCTL (R376) -/
  att : Nat
  atten : Bool
  frozen : Bool
  debugSlot : Option Nat
  /-- tasks that a write of DRES has killed during a freeze: they end at the thaw (R379, R381) -/
  doomed : List Nat
  /-- context time in units of 2 to the power -20 of a nanosecond-step of the model (R350) -/
  time : Nat
  /-- the model's own fields: whose turn it is, the issuing warp, and counters for free values and names -/
  agenda : List Turn
  issuer : Option WarpRef
  freeCtr : Nat
  nextId : Nat
  deriving DecidableEq, Repr

/-! ## The state after reset -/

/-- A latch after placement (R67). -/
def Latch.cleared : Latch := { st := .cleared, val := 0 }

/-- The record that marks nothing. -/
def LiveRecord.none : LiveRecord := { g := 0, s := 0, p := 0, q := 0 }

/-- A thread outside any region. -/
def Region.none : Region :=
  { inside := false, entry := 0, live := .none, committed := false, count := 0, lines := [], many := false, seed := 0,
    tiles := [], replayed := false, half := false }

/-- Profiling counters, lanes and debug registers after reset (R379, R383, R387). -/
def Lane.reset : Lane := { last := 0, h := vfill 5 0 }

def DebugRegs.reset : DebugRegs :=
  { hbp := vfill 8 0, wpa := vfill 4 0, wpl := vfill 4 0, step0 := 0, step1 := 0, trccfg := 0, trclen := 0, trcpos := 0,
    sinceFrame := 0, late := [] }

def Engine.reset : Engine := { st := 0, queue := [], pushed := false, todo := 0 }

/-- A core after reset: caches clear, engines idle (R392). -/
def Core.reset : Core :=
  { cycles := 0, lanes := vfill 32 .reset, bound := 0, l1 := [], icache := [], fills := [], seq := 0, copy := .reset,
    xform := .reset, ops := [], nextOp := 0, inArray := [], leaving := [], lastLead := 3, idle := 0, drains := [],
    dbg := .reset }

/-- A free context slot (R339, R341). -/
def Context.reset : Context :=
  { st := 0, priv := false, prof := 0, ptroot0 := 0, ptroot1 := 0, parts := [], fpte := 0, gpbase := 0, dfqcfg := 0,
    gpreq := 0, gpdone := 0, req := false, run := false, dfqPushed := 0, dfqFreed := 0, dfqHeld := 0, fring := 0,
    fringTold := false, cqcfg := 0, shadow := false, cq := [], pend := [], rbuf := [], image := none, moving := false }

/-- A queue after reset (R136). -/
def Queue.reset : Queue :=
  { qring := 0, st := .disabled, dev := false, aff := false, ctx := 0, wgt := 0, pri := 0, rdpos := 0, drain := none,
    appends := 0, head := none, age := 0, served := 0, told := false, todo := 0,
    retiring := 0, later := [], appending := none }

/-- A Karst port after reset: off (R392). -/
def Port.reset : Port :=
  { st := 0, was := 0, lanes := 0, rate := 0, peer := 0, allow := vfill 3 0, crcFails := 0, replays := 0, txSeq := 0,
    replay := [], held := [], rxSeq := 0, fails := 0, inbox := [], owed := vfill 3 0, granted := vfill 3 0 }

/-- The management registers after reset (R397). -/
def Mgmt.reset : Mgmt :=
  { boot := 0, svn := 0, err := 0, therm := false, bootAddr := 0, image := [], verified := [], clkMax := 15,
    pwrCap := 3000, clkLvl := 15, temp := 0, draw := 0, hot := 0, mcBase := 0, mcIrq := false, mcEn := false, mcLog := 0,
    mcFill := 0, mcDone := 0, busy := none, busySlot := 0, busyCounts := false, spdmAgreed := false }

/-- The device right after reset: state 0 of R392, every register at its reset value, every cache, vault, tile and
plane clear and all links off. -/
def State.reset : State :=
  { mgmt := .reset, mem := [], vault := [], host := [], msix := [], reports := [], spdm := [], poison := [], owners := [],
    l2 := [], waiters := [], tlb := [],
    walks := [], invq := [], tlbBad := 0, contexts := vfill 64 .reset, queues := vfill 64 .reset, serving := vfill 8 63, turn := none,
    kernels := [], tasks := [], cores := vfill 192 .reset, xfTurn := vfill 48 3, ports := vfill 18 .reset,
    routes := vfill 64 0, exports := [], rwin := vfill 64 0, rwrng := vfill 64 0, outstanding := [], answers := [], partials := [], nextTag := 0,
    served := [], spent := [], att := 0, atten := false, frozen := false, debugSlot := none, doomed := [], time := 0, agenda := [], issuer := none,
    freeCtr := 0, nextId := 0 }

end Sys2Proof.Machine
end

