-- ==== Sys2Proof/Machine/Ops.lean ====
section
/-!
DEFINITION. The named operations over memory and registers, and taking a fault and returning from it.
-/

namespace Sys2Proof.Machine

open Sys2Proof

/-! ## Memory -/

/-- The byte at an address; an unlisted address reads as zero (R392, R207). -/
def Memory.get : Memory → Nat → Byte
  | [], _ => 0
  | (k, b) :: r, a => if a = k then b else Memory.get r a

/-- Memory with one byte written, in canonical form. -/
def Memory.set : Memory → Nat → Byte → Memory
  | [], a, b => if b = 0 then [] else [(a, b)]
  | (k, c) :: r, a, b =>
    if a < k then (if b = 0 then (k, c) :: r else (a, b) :: (k, c) :: r)
    else if a = k then (if b = 0 then r else (a, b) :: r)
    else (k, c) :: Memory.set r a b

/-- The canonical form: addresses strictly rising from `lo` up, and no byte that an unlisted address reads as. -/
def Memory.wfFrom : Nat → Memory → Bool
  | _, [] => true
  | lo, (k, b) :: r => decide (lo ≤ k) && (b != 0) && Memory.wfFrom (k + 1) r

/-- The canonical form of memory. -/
def Memory.wf (m : Memory) : Bool := Memory.wfFrom 0 m

/-- `n` bytes from an address, lowest first. -/
def Memory.bytes (m : Memory) (a : Nat) : Nat → List Byte
  | 0 => []
  | n + 1 => m.get a :: Memory.bytes m (a + 1) n

/-- Memory with a list of bytes written from an address up. -/
def Memory.setBytes : Memory → Nat → List Byte → Memory
  | m, _, [] => m
  | m, a, b :: bs => Memory.setBytes (m.set a b) (a + 1) bs

/-- The little-endian number of `n` bytes (R5). -/
def Memory.getN (m : Memory) (a n : Nat) : Nat := ofBytes (m.bytes a n)

/-- Memory with the low `n` bytes of a number written (R5). -/
def Memory.setN (m : Memory) (a n v : Nat) : Memory := m.setBytes a (toBytes n v)

/-! ## The state's parts -/

/-- A core by number (R15). -/
def State.core (s : State) (c : Nat) : Core := vget s.cores c .reset

/-- The state with one core changed. -/
def State.modCore (s : State) (c : Nat) (f : Core → Core) : State := { s with cores := vmod s.cores c f }

/-- A context slot (R337). -/
def State.ctx (s : State) (c : Nat) : Context := vget s.contexts c .reset

/-- The state with one context slot changed. -/
def State.modCtx (s : State) (c : Nat) (f : Context → Context) : State := { s with contexts := vmod s.contexts c f }

/-- A queue (R136). -/
def State.queue (s : State) (q : Nat) : Queue := vget s.queues q .reset

/-- The state with one queue changed. -/
def State.modQueue (s : State) (q : Nat) (f : Queue → Queue) : State := { s with queues := vmod s.queues q f }

/-- A Karst port (R15). -/
def State.port (s : State) (p : Nat) : Port := vget s.ports p .reset

/-- The state with one port changed. -/
def State.modPort (s : State) (p : Nat) (f : Port → Port) : State := { s with ports := vmod s.ports p f }

/-- The task of a name. -/
def State.task? (s : State) (id : Nat) : Option Task := s.tasks.find? (fun t => t.id == id)

/-- The state with one task changed. -/
def State.modTask (s : State) (id : Nat) (f : Task → Task) : State :=
  { s with tasks := s.tasks.map fun t => if t.id = id then f t else t }

/-- The kernel of a name. -/
def State.kernel? (s : State) (id : Nat) : Option Kernel := s.kernels.find? (fun k => k.id == id)

/-- The state with one kernel changed. -/
def State.modKernel (s : State) (id : Nat) (f : Kernel → Kernel) : State :=
  { s with kernels := s.kernels.map fun k => if k.id = id then f k else k }

/-- A warp of a task. -/
def State.warp? (s : State) (task warp : Nat) : Option Warp := (s.task? task).bind fun t => t.warps[warp]?

/-- The state with one warp changed. -/
def State.modWarp (s : State) (task warp : Nat) (f : Warp → Warp) : State :=
  s.modTask task fun t => { t with warps := t.warps.modify warp f }

/-- The warp id in its core (R15). -/
def Warp.id (w : Warp) : Nat := w.lane * 4 + w.slot

/-- The warp handle of R351. -/
def Task.handle (t : Task) (warp : Nat) : Nat := t.dir + warp * 2 ^ 16

/-- The resident warp of a core and warp id. -/
def State.warpAt (s : State) (core id : Nat) : Option WarpRef :=
  s.tasks.findSome? fun t =>
    if t.core = some core ∧ t.ended = false then
      (t.warps.findIdx? fun w => w.id == id).map fun i => { task := t.id, warp := i }
    else none

/-- The clusters of a context (R340). -/
def Context.ncl (c : Context) : Nat := c.parts.length

/-- Whether a cluster belongs to the context (R341 PARTMAP). -/
def Context.hasCluster (c : Context) (cl : Nat) : Bool := c.parts.any fun p => p.1 == cl

/-- The cluster id of a core (R15). -/
def clusterOf (core : Nat) : Nat := core / 4

/-- Warps of the context are privileged (R338): PRIV, or the debug partition. -/
def State.privCtx (s : State) (c : Nat) : Bool := (s.ctx c).priv || s.debugSlot == some c

/-- Context time in whole nanoseconds (R350). -/
def State.timeNs (s : State) : Nat := s.time / 2 ^ 20

/-! ## Operations that may stop -/

/-- What a fault says beyond its cause (R352). -/
structure Trap where
  cause : Cause
  mask : BitVec 16
  addr : Nat := 0
  extra : Nat := 0
  aux : Nat := 0
  bitoff : Nat := 0
  coord : Bool := false
  seq : Option Nat := none
  /-- the body slot of a macro, where it is not the warp's own macro position (R83, R380) -/
  slot : Option Nat := none
  /-- the source of bits 2:0 of CLASS: 1 for an asynchronous cause (R352, R355) -/
  source : Nat := 0
  /-- the translation caches that the failing checks left, which a precise fault keeps too (R193) -/
  cached : Option (List TlbEntry × List WalkEntry) := none
  deriving DecidableEq, Repr

/-- Why an operation did not run to its end. -/
inductive Stop where
  /-- a fault before any effect: the state is as before the instruction (R31) -/
  | trap (t : Trap)
  /-- a fault after effects that stay (R57, R129) -/
  | trapAt (s : State) (t : Trap)
  /-- a fault that an instruction raises once it has taken effect (R380) -/
  | after (s : State) (t : Trap)
  /-- the instruction stays where it is: the warp waits or stalls, in this state -/
  | hold (s : State)
  /-- the model stops -/
  | halt (f : Fault)

/-- An operation over the state that may stop. -/
abbrev Op (α : Type) := StateT State (Except Stop) α

/-- The state. -/
def Op.state : Op State := fun s => .ok (s, s)

/-- Replace the state. -/
def Op.put (s : State) : Op Unit := fun _ => .ok ((), s)

/-- Change the state. -/
def Op.modify (f : State → State) : Op Unit := fun s => .ok ((), f s)

/-- Stop. -/
def Op.stop {α : Type} (x : Stop) : Op α := fun _ => .error x

/-- Stop with a fault that leaves the effects made so far (R129). -/
def Op.trapHere {α : Type} (t : Trap) : Op α := fun s => .error (.trapAt s t)

/-- Hold the instruction in the present state. -/
def Op.holdHere {α : Type} : Op α := fun s => .error (.hold s)

/-- The outcome of a step of an agent that cannot stop. -/
abbrev Out := Host.Outcome State Fault Refusal

/-- The registers that only the management interface and reset write, as they were: those of management (R397), and the routes,
export ranges and reduction windows that the command ring sets (R368, R369, R371, R390). -/
def State.guarded (s s' : State) : State :=
  { s' with mgmt := s.mgmt, routes := s.routes, exports := s.exports, rwin := s.rwin, rwrng := s.rwrng }

/-- The outcome of an agent other than the management interface. -/
def State.keeping (s : State) : Out → Out
  | .next s' => .next (s.guarded s')
  | .fault f => .fault f
  | .refused r => .refused r

/-! ## The issuing warp -/

/-- What an instruction knows about its issue: the warp, its core and context, and the threads it runs for. -/
structure Ctx where
  task : Nat
  warp : Nat
  core : Nat
  ctx : Nat
  kid : Nat
  lane : Nat
  wid : Nat
  index : W32
  /-- g registers allocated to a thread -/
  regs : Nat
  prof : Nat
  priv : Bool
  fpte : W32
  u : Bool
  /-- the active set (R69) -/
  active : List Tid
  /-- the threads the instruction runs for (R29, R69): with U = 1 all of the active set when q holds -/
  parts : List Tid
  /-- the PC of the active set -/
  pc : W64
  /-- the value of selector 0xD0 -/
  imm : W32
  /-- the body slot of a macro (R83) -/
  mslot : Option Nat
  deriving DecidableEq, Repr

/-- A set of threads as a mask. -/
def maskOf (ts : List Tid) : BitVec 16 := ts.foldl (fun m t => m ||| (1#16 <<< t.val)) 0

/-- The threads of a mask, in increasing order. -/
def tidsOf (m : BitVec 16) : List Tid := allTids.filter fun t => m.getLsbD t.val

/-- No producer is kept. -/
def Producer.none : Producer := { pc := 0, k := vfill 4 .cleared, region := .none, wsync := .none, atHalf := false }

/-- A thread of a warp. -/
def Warp.thread (w : Warp) (t : Tid) : Thread :=
  w.threads.toArray.toList.getD t.val
    { pc := 0, g := vfill 128 0, bank := vfill 32 0, p := 0, k := vfill 4 .cleared, seed := 0, exited := true,
      triggered := false, wsync := none, atHalf := false, region := .none, prod := .none }

/-- A warp with one thread changed. -/
def Warp.modThread (w : Warp) (t : Tid) (f : Thread → Thread) : Warp := { w with threads := vmod w.threads t.val f }

/-- A warp with each of some threads changed. -/
def Warp.modThreads (w : Warp) (ts : List Tid) (f : Thread → Thread) : Warp :=
  ts.foldl (fun w t => w.modThread t f) w

/-- A sump loop parks the thread (R246). -/
def Warp.parked (w : Warp) (t : Tid) : Bool :=
  match w.sump.mode with
  | .inactive => false
  | .producing => w.sump.done.getLsbD t.val
  | .consuming | .draining => !w.sump.rmask.getLsbD t.val || w.sump.cmask.getLsbD t.val

/-- The thread is unblocked (R69), and no pre-emption has stopped it (R78). -/
def Warp.unblocked (w : Warp) (t : Tid) : Bool :=
  !(w.thread t).exited && (w.thread t).wsync.isNone && !w.parked t && !w.halted.getLsbD t.val

/-- The lowest PC among the unblocked threads (R69). -/
def Warp.lowestPc (w : Warp) : Option W64 :=
  (allTids.filter w.unblocked).foldl (fun m t =>
    let pc := (w.thread t).pc
    match m with
    | none => some pc
    | some q => if pc.toNat < q.toNat then some pc else some q) none

/-- The active set (R69). -/
def Warp.activeSet (w : Warp) : List Tid :=
  match w.lowestPc with
  | none => []
  | some pc => allTids.filter fun t => w.unblocked t && (w.thread t).pc == pc

/-- MODE of SUMPST (R245). -/
def SumpMode.code : SumpMode → Nat
  | .inactive => 0
  | .producing => 1
  | .consuming => 2
  | .draining => 3

/-- A warp out of its section loses its mark (R261). -/
def Warp.leaveSection (w : Warp) : Warp := if w.depth = 0 ∧ w.held = 0 then { w with mark := false } else w

/-! ## Registers -/

/-- The first committing instruction of a region marks it committed (R76). -/
def Region.commit (r : Region) : Region :=
  if r.inside && !r.committed then { r with committed := true, count := 0 } else r

/-- The region of a thread after a committing instruction. -/
def Thread.commit (th : Thread) : Thread := { th with region := th.region.commit }

/-- A g register written; a live-in register commits (R76). -/
def Thread.setG (th : Thread) (n : Nat) (v : W32) : Thread :=
  { th with g := vset th.g n v, region := if th.region.live.g.getLsbD n then th.region.commit else th.region }

/-- Whether predicate `i` of a predicate file holds; index 7 always does (R29). -/
def predOf (p : BitVec 8) (i : Nat) : Bool := i == 7 || p.getLsbD i

/-- A predicate file with one predicate set. -/
def setPred (p : BitVec 8) (i : Nat) (b : Bool) : BitVec 8 :=
  if b then p ||| (1#8 <<< i) else p &&& ~~~(1#8 <<< i)

/-- A predicate p written; a live-in predicate commits (R76). -/
def Thread.setP (th : Thread) (i : Nat) (b : Bool) : Thread :=
  { th with p := setPred th.p i b, region := if th.region.live.p.getLsbD i then th.region.commit else th.region }

/-- A latch written: it becomes Valid (R80). -/
def Thread.setK (th : Thread) (i : Nat) (v : W64) : Thread := { th with k := vset th.k i { st := .valid, val := v } }

/-- An s register written for the threads of an active set; a live-in register commits all of them (R76). -/
def Warp.setS (w : Warp) (active : List Tid) (n : Nat) (v : W64) : Warp :=
  let live := active.any fun t => (w.thread t).region.live.s.getLsbD n
  let w := { w with s := vset w.s n v }
  if live then w.modThreads active .commit else w

/-- A predicate q written for the threads of an active set. -/
def Warp.setQ (w : Warp) (active : List Tid) (i : Nat) (b : Bool) : Warp :=
  let live := active.any fun t => (w.thread t).region.live.q.getLsbD i
  let w := { w with q := setPred w.q i b }
  if live then w.modThreads active .commit else w

/-- The 64-bit value of a pair of g registers (R27). -/
def Thread.pair (th : Thread) (n : Nat) : W64 := (vget th.g (n + 1) 0) ++ (vget th.g n 0)

/-- The value of a selector for a thread as a 64-bit operand (R26, R27). -/
def read64 (c : Ctx) (w : Warp) (t : Tid) (sel : Selector) : W64 :=
  let n := sel.toNat
  if n < 0x80 then (w.thread t).pair n
  else if n < 0xC0 then vget w.s (n - 0x80) 0
  else if n < 0xC4 then (vget (w.thread t).k (n - 0xC0) .cleared).val
  else if n = 0xC9 then BitVec.ofNat 64 t.val
  else if n = 0xCA then BitVec.ofNat 64 c.lane
  else if n = 0xCB then BitVec.ofNat 64 c.wid
  else if n = 0xCC then BitVec.ofNat 64 c.core
  else if n = 0xCD then c.index.setWidth 64
  else if n = 0xD0 then c.imm.setWidth 64
  else 0

/-- The value of a selector for a thread as a 32-bit operand (R26, R27, R30). -/
def read32 (c : Ctx) (w : Warp) (t : Tid) (sel : Selector) : W32 :=
  let n := sel.toNat
  if n < 0x80 then vget (w.thread t).g n 0
  else (read64 c w t sel).setWidth 32

/-- The value of a selector as a 128-bit operand, low half first: a g quad or an even s pair (R27). -/
def read128 (_c : Ctx) (w : Warp) (t : Tid) (sel : Selector) : W64 × W64 :=
  let n := sel.toNat
  if n < 0x80 then ((w.thread t).pair n, (w.thread t).pair (n + 2))
  else if n < 0xC0 then (vget w.s (n - 0x80) 0, vget w.s (n - 0x80 + 1) 0)
  else (0, 0)

/-- The widths of a register operand. -/
inductive Width where
  | w32
  | w64
  | w128
  deriving DecidableEq, Repr

/-- The value of a selector as an operand of a width of at most 64 bits, extended with zeros. -/
def readSel (c : Ctx) (w : Warp) (t : Tid) (wd : Width) (sel : Selector) : W64 :=
  match wd with
  | .w32 => (read32 c w t sel).setWidth 64
  | _ => read64 c w t sel

/-- A g destination of a thread written with the low half, or the whole, of a value (R27). -/
def Thread.writeG (th : Thread) (n : Nat) (wd : Width) (v : W64) : Thread :=
  match wd with
  | .w32 => th.setG n (v.setWidth 32)
  | _ => (th.setG n (v.setWidth 32)).setG (n + 1) (v.extractLsb' 32 32)

/-- The result of an instruction for one thread: D unless it is 0xC8, and latch LT (R30, R66 `write_sel`). -/
def putThread (h : Head) (wd : Width) (th : Thread) (v : W64) : Thread :=
  let n := h.d.toNat
  let v := match wd with
    | .w32 => (v.setWidth 32).setWidth 64
    | _ => v
  let th := if n < 0x80 then th.writeG n wd v else th
  th.setK h.lt.toNat v

/-- The result of a uniform instruction: D an s register unless it is 0xC8, and latch LT of every thread (R30). -/
def putUniform (c : Ctx) (h : Head) (wd : Width) (w : Warp) (v : W64) : Warp :=
  let n := h.d.toNat
  let v := match wd with
    | .w32 => (v.setWidth 32).setWidth 64
    | _ => v
  let w := if 0x80 ≤ n ∧ n < 0xC0 then w.setS c.active (n - 0x80) v else w
  w.modThreads allTids (fun th => th.setK h.lt.toNat v)

/-- The result of an instruction for a participant, or for the warp when U = 1. -/
def putResult (c : Ctx) (h : Head) (wd : Width) (w : Warp) (t : Tid) (v : W64) : Warp :=
  if c.u then putUniform c h wd w v else w.modThread t (fun th => putThread h wd th v)

/-- A 128-bit result: a g quad or an even s pair, and no latch (R30). -/
def putWide (c : Ctx) (d : Selector) (w : Warp) (t : Tid) (lo hi : W64) : Warp :=
  let n := d.toNat
  if c.u then
    if 0x80 ≤ n ∧ n < 0xC0 then (w.setS c.active (n - 0x80) lo).setS c.active (n - 0x80 + 1) hi else w
  else if n < 0x80 then
    w.modThread t (fun th => (th.writeG n .w64 lo).writeG (n + 2) .w64 hi)
  else w

/-- A result predicate PI (R24): none for 7, p of the thread when U = 0, q when U = 1. -/
def putPred (c : Ctx) (i : Nat) (w : Warp) (t : Tid) (b : Bool) : Warp :=
  if i = 7 then w
  else if c.u then w.setQ c.active i b
  else w.modThread t (fun th => th.setP i b)

/-- The threads an instruction is applied to one after another: the participants, or the lowest thread of the active set
once for the warp when U = 1 (R69). -/
def Ctx.units (c : Ctx) : List Tid :=
  if c.u then (if c.parts.isEmpty then [] else c.active.take 1) else c.parts

/-- The mask of a fault at a unit: the thread, or the active set when U = 1. -/
def Ctx.maskAt (c : Ctx) (t : Tid) : BitVec 16 := if c.u then maskOf c.active else maskOf [t]

/-- The issuing warp. -/
def Op.warp (c : Ctx) : Op Warp := fun s =>
  match s.warp? c.task c.warp with
  | some w => .ok (w, s)
  | none => .error (.halt .noIssuer)

/-- Change the issuing warp. -/
def Op.modWarp (c : Ctx) (f : Warp → Warp) : Op Unit := Op.modify fun s => s.modWarp c.task c.warp f

/-- The issuing warp's task. -/
def Op.task (c : Ctx) : Op Task := fun s =>
  match s.task? c.task with
  | some t => .ok (t, s)
  | none => .error (.halt .noIssuer)

/-- Commit the regions of the threads an instruction runs for: of the active set when U = 1 (R76). -/
def Op.commit (c : Ctx) (ts : List Tid) : Op Unit :=
  Op.modWarp c fun w => w.modThreads (if c.u then c.active else ts) .commit

/-- Stop with a fault of an instruction. -/
def Op.trap {α : Type} (cause : Cause) (mask : BitVec 16) (addr : Nat := 0) (extra : Nat := 0) : Op α :=
  Op.stop (.trap { cause := cause, mask := mask, addr := addr, extra := extra })

/-! ## Program counters -/

/-- The sequential successor of a PC (R18). -/
def nextPc (pc : W64) : W64 := if pc.toNat % 64 = 48 then pc + 16 else pc + 12

/-- The linear slot number of a PC (R18). -/
def linOf (pc : W64) : Nat := pc.toNat / 64 * 5 + pc.toNat % 64 / 12

/-- The PC of a linear slot number, modulo 2 to the power 64 (R18). -/
def pcOfLin (n : Int) : W64 := BitVec.ofInt 64 (n / 5 * 64 + n % 5 * 12)

/-- The target of a J-format transfer (R18). -/
def jTarget (pc : W64) (off : W32) : W64 := pcOfLin ((linOf pc : Int) + off.toInt)

/-! ## Trace (R383 to R386) -/

/-- Fields of TRCCFG (R383). -/
def DebugRegs.traceOn (d : DebugRegs) : Bool := d.trccfg.getLsbD 63
def DebugRegs.traceCtx (d : DebugRegs) : Nat := (d.trccfg.extractLsb' 56 6).toNat
def DebugRegs.traceHandle (d : DebugRegs) : Nat := (d.trccfg.extractLsb' 32 21).toNat
def DebugRegs.traceBuf (d : DebugRegs) : Nat := (d.trccfg.extractLsb' 0 30).toNat

/-- The core that traces a warp, if one does (R383). -/
def State.tracer (s : State) (task warp : Nat) : Option Nat :=
  (s.task? task).bind fun t => t.core.bind fun c =>
    let d := (s.core c).dbg
    if d.traceOn && d.traceCtx == t.ctx && d.traceHandle == t.handle warp then some c else none

/-- One 32-byte frame at its place in the buffer: frame n lies at BUF + 32 × (n mod (16 × LEN)) (R383, R384). -/
def State.putFrame (s : State) (core wid tag : Nat) (body : List Byte) : State :=
  let c := s.core core
  let n := c.dbg.trcpos.toNat
  let len := (c.dbg.trclen.extractLsb' 0 16).toNat
  let head := [BitVec.ofNat 8 tag, BitVec.ofNat 8 wid] ++ toBytes 2 n ++ toBytes 4 c.cycles
  let bytes := head ++ body.take 24 ++ List.replicate (24 - body.length) 0
  let s := { s with vault := s.vault.setBytes (c.dbg.traceBuf + 32 * (n % (16 * len))) bytes }
  s.modCore core fun c =>
    { c with dbg := { c.dbg with trcpos := c.dbg.trcpos + 1, sinceFrame := if tag ≤ 2 then 0 else c.dbg.sinceFrame } }

/-- The TAG of a task's launch (R137). -/
def State.tagOf (s : State) (t : Task) : Nat := match s.kernel? t.kid with
  | some k => k.tag.toNat
  | none => 0

/-- The bytes of a SYNC frame (R384). -/
def State.syncBody (s : State) (t : Task) (warp : Nat) (w : Warp) : List Byte :=
  toBytes 8 (w.lowestPc.getD 0).toNat ++ toBytes 4 (t.handle warp) ++ toBytes 4 (s.tagOf t)
    ++ toBytes 2 (maskOf w.activeSet).toNat ++ [BitVec.ofNat 8 t.ctx]

/-- A frame that waits for the THAW frame of the core that traces its warp. -/
def State.frameLater (s : State) (core task warp tag : Nat) (body : List Byte) : State :=
  s.modCore core fun c => { c with dbg := { c.dbg with late := c.dbg.late ++ [(task, warp, tag, body)] } }

/-- The buffer of the core that traces a warp is full (R386). -/
def State.traceFull (s : State) (task warp : Nat) : Bool := match s.tracer task warp with
  | some core => decide (64 ≤ (s.core core).dbg.late.length)
  | none => false

/-- A frame of a traced warp; the frame that would fall on a multiple of 16 follows a SYNC frame (R385). In a freeze no frame is written
before the THAW frame: a frame of the debug partition waits in the core's buffer (R386). -/
def State.traceFrame (s : State) (task warp tag : Nat) (body : List Byte) : State :=
  match s.tracer task warp, s.task? task with
  | some core, some t =>
    match t.warps[warp]? with
    | none => s
    | some w =>
      if s.frozen && tag != 8 then s.frameLater core task warp tag body
      else
        let s := if (s.core core).dbg.trcpos.toNat % 16 = 0 then s.putFrame core w.id 1 (s.syncBody t warp w) else s
        s.putFrame core w.id tag body
  | _, _ => s

/-- The frames that a freeze or a thaw writes on every core that traces a resident warp (R386). -/
def State.traceAll (s : State) (tag : Nat) : State :=
  s.tasks.foldl (fun s t =>
    (List.range t.warps.length).foldl (fun s w => s.traceFrame t.id w tag (toBytes 8 s.timeNs)) s) s

/-- The frames that waited for the THAW frame are written after it (R386). -/
def State.lateFrames (s : State) : State :=
  (List.range 192).foldl (fun (s : State) (core : Nat) =>
    match (s.core core).dbg.late with
    | [] => s
    | fs => fs.foldl (fun (s : State) (f : Nat × Nat × Nat × List Byte) => s.traceFrame f.1 f.2.1 f.2.2.1 f.2.2.2)
        (s.modCore core fun c => { c with dbg := { c.dbg with late := [] } })) s

/-! ## Lanes and switch points (R68, R73) -/

/-- A switched-out warp loses its Valid latches (R80). -/
def Thread.loseLatches (th : Thread) : Thread :=
  { th with k := vmapAll th.k fun l => if l.st = .valid then { st := .lost, val := 0 } else l }

/-- The warp with every Valid latch Lost. -/
def Warp.loseLatches (w : Warp) : Warp := w.modThreads allTids .loseLatches

/-- Whether the context of a task is running and the warp may issue: not frozen, or in the debug partition (R381). -/
def State.mayRun (s : State) (ctx : Nat) : Bool :=
  s.mgmt.boot == 3 && (s.ctx ctx).st == 3 && (!s.frozen || s.debugSlot == some ctx)

/-- The warps of a lane: task, index in the task and slot. -/
def State.laneWarps (s : State) (core lane : Nat) : List (WarpRef × Nat × WarpState) :=
  (s.tasks.filter fun t => t.core = some core && !t.ended).flatMap fun t =>
    (t.warps.zipIdx.filter fun p => p.1.lane == lane).map fun p =>
      ({ task := t.id, warp := p.2 }, p.1.slot, p.1.st)

/-- The ready warp of a lane that comes next in round-robin order after a slot (R73); one of a task that is not placed whole issues
nothing (R157). -/
def State.nextReady (s : State) (core lane after : Nat) : Option (WarpRef × Nat) :=
  let ws := (s.laneWarps core lane).filter fun p => p.2.2 == .ready && (s.task? p.1.task).any fun t => t.pendingStep.isNone
  [1, 2, 3, 4].findSome? fun k =>
    (ws.find? fun p => p.2.1 == (after + k) % 4).map fun p => (p.1, p.2.1)

/-- A warp that a lane still held, and that a pre-emption has stopped, gives the lane up (R78). -/
def State.restLane (s : State) (core lane : Nat) : State :=
  (s.laneWarps core lane).foldl (fun (s : State) (p : WarpRef × Nat × WarpState) =>
    if p.2.2 = .running then s.modWarp p.1.task p.1.warp fun w => { w.loseLatches with st := .ready } else s) s

/-- A lane begins to run a ready warp. -/
def State.select (s : State) (core lane : Nat) (r : WarpRef) (slot : Nat) : State :=
  let s := (s.restLane core lane).modWarp r.task r.warp fun w => { w with st := .running, since := 0, quantum := false }
  s.modCore core fun c => { c with lanes := vmod c.lanes lane fun l => { l with last := slot } }

/-- A switch point of a warp (R73): if another warp of the lane is ready, it is selected, and a Running warp goes to Ready
and loses its Valid latches; if none is, the warp runs on. A lane that already runs another warp keeps it. -/
def State.switchPoint (s : State) (task warp : Nat) : State :=
  match s.task? task with
  | none => s
  | some t =>
    match t.core, t.warps[warp]? with
    | some core, some w =>
      if (s.laneWarps core w.lane).any fun p => p.2.2 == .running && p.1 != { task := task, warp := warp } then s
      else
      match s.nextReady core w.lane w.slot with
      | none => s
      | some (r, slot) =>
        let s := s.modWarp task warp fun w =>
          if w.st = .running then { w.loseLatches with st := .ready } else w
        s.select core w.lane r slot
    | _, _ => s

/-! ## Taking a fault, and returning from it (R79, R352 to R359) -/

/-- The debug causes of class G (R376). -/
def Cause.isDebug : Cause → Bool
  | .breakpoint | .hwBreakpoint | .watchpoint | .singleStep => true
  | _ => false

/-- The cause after which RESUME continues past the instruction at which the warp stands (class N, R353); the debug causes
are raised when the warp has passed it (R380). -/
def Cause.resumesPast : Cause → Bool
  | .trapSoftware => true
  | _ => false

/-- The fault record of a warp (R352). -/
def State.warpRecord (s : State) (t : Task) (warp : Nat) (w : Warp) (pc : W64) (x : Trap) : FaultRec :=
  let slot := match x.slot with
    | some n => some n
    | none => w.mac.map fun (m : MacroPos) => m.slot
  { cause := x.cause, source := x.source, seqv := x.seq.isSome, macv := slot.isSome, coord := x.coord,
    mslot := slot.getD 0,
    unit := t.core.getD 255, handle := t.handle warp, tmask := x.mask, done := w.done, seq := x.seq.getD 0,
    pc := pc.toNat, addr := x.addr, bitoff := x.bitoff,
    tag := s.tagOf t,
    extra := x.extra, aux := x.aux, time := s.timeNs, src := (t.id, warp) }

/-- A record of a stopped source waits in its context until its ring takes it (R358). -/
def State.queueRecord (s : State) (ctx : Nat) (r : FaultRec) : State :=
  s.modCtx ctx fun c => { c with pend := c.pend ++ [r] }

/-- A record of class R enters the buffer of 256 (R358); the caller has looked for room. -/
def State.bufferRecord (s : State) (ctx : Nat) (r : FaultRec) : State :=
  s.modCtx ctx fun c => { c with rbuf := c.rbuf ++ [r] }

/-- Room in the buffer of class R records (R358). -/
def State.recordRoom (s : State) (ctx : Nat) : Bool := decide ((s.ctx ctx).rbuf.length < 256)

/-- The attached context freezes the device (R376, R381): Karst ports go to the frozen state. -/
def State.freeze (s : State) : State :=
  if s.frozen then s
  else
    let s := s.traceAll 7
    { s with frozen := true,
             invq := (s.invq.take 1).map (fun (x : Invalidation) => { x with begun := true }) ++ s.invq.drop 1,
             ports := vmapAll s.ports fun p => if p.st = 2 ∨ p.st = 3 then { p with st := 4, was := p.st } else p }

/-- A request that waits at a peer (R124). -/
def opWaits : HomeOp → Bool
  | .sgWait _ _ => true
  | _ => false

/-- A port may send (R366, R367): up or degraded. -/
def Port.open_ (p : Port) : Bool := p.st == 2 || p.st == 3

/-- A control flit leaves (R365, R366): the peer has back the allowances of the buffers that are free. A freeze withholds them
(R367). -/
def Port.control (p : Port) : Port :=
  if p.st = 4 then p
  else
    { p with owed := vfill 3 0,
             granted := [0, 1, 2].foldl (fun (g : Vector Nat 3) (i : Nat) => vmod g i (· + vget p.owed i 0)) p.granted }

/-- The first held flit whose class has a send allowance leaves, unless the replay buffer holds 64 flits (R366); a control flit follows
every 20 flits (R365). -/
def Port.sendOne (p : Port) : Port :=
  if !p.open_ || decide (64 ≤ p.replay.length) then p
  else
    match p.held.find? fun f => decide (0 < vget p.allow f.cls 0) with
    | none => p
    | some f =>
      let p := { p with
        held := p.held.erase f, replay := p.replay ++ [{ f with seq := p.txSeq }], txSeq := p.txSeq + 1,
        allow := vmod p.allow f.cls fun n => n - 1 }
      if p.txSeq % 20 = 0 then p.control else p

/-- Held flits leave as long as allowances last (R366). -/
def Port.pump (p : Port) : Port := (List.range (p.held.length)).foldl (fun p _ => p.sendOne) p

/-- A message joins the flits of a port, in a flit of its own. -/
def State.sendOn (s : State) (port cls : Nat) (m : FabricMsg) : State :=
  let f : Flit := { cls := cls, seq := 0, msg := some m }
  s.modPort port fun p => Port.pump { p with held := p.held ++ [f] }

/-- A port holds new traffic (R367): frozen, or in a retraining. -/
def Port.holds (p : Port) : Bool := p.st == 4 || p.st == 5

/-- The port by which a request to a peer leaves: the first of its route mask that is up or degraded (R368), else the first that
holds new traffic until it is up again (R367). DEDUCED (log 39). -/
def State.routeTo (s : State) (peer : Nat) : Option Nat :=
  let mask := vget s.routes peer 0
  match (List.range 18).find? fun p => mask.getLsbD p && (s.port p).open_ with
  | some p => some p
  | none => (List.range 18).find? fun p => mask.getLsbD p && (s.port p).holds

/-- Waits at peers are withdrawn (R126, R127): the home of each is told, and no answer is awaited. -/
def State.withdrawRemote (s : State) (p : Asker → Nat → Bool) : State :=
  let gone (o : Outstanding) : Bool := opWaits o.op && p o.who o.key
  (s.outstanding.filter gone).foldl (fun (s : State) (o : Outstanding) => match s.routeTo o.peer with
    | some port => s.sendOn port 0 (.withdraw o.peer o.tag)
    | none => s) { s with outstanding := s.outstanding.filter fun (o : Outstanding) => !gone o }

/-- An append that a warp does not end itself is over; its add to FILL, if it is on its way, counts (R140, R142). -/
def State.endAppends (s : State) (task warp : Nat) : State :=
  if (vlist s.queues).all fun q => q.appending.isNone then s
  else
    { s with queues := vmapAll s.queues fun (q : Queue) => match q.appending with
        | some (t, w, sent) =>
          if t = task ∧ w = warp then { q with appending := none, appends := q.appends + sent.toNat } else q
        | none => q }

/-- The waiter entries of a warp are withdrawn, and its answers from peers are no longer used (R126, R127); what it has asked of them is
still to complete, as its stores are (R262, R370). -/
def State.withdrawWaits (s : State) (task warp : Nat) : State :=
  let s := (s.endAppends task warp).withdrawRemote fun a _ => a == .warp task warp
  { s with
    waiters := s.waiters.filter fun (w : WaiterEntry) => w.who != Waiter.warp task warp,
    outstanding := s.outstanding.map fun (o : Outstanding) => if o.who = Asker.warp task warp then { o with who := Asker.store task warp } else o,
    answers := s.answers.filter fun (a : Answer) => a.who != Asker.warp task warp }

/-- Waits of agents are withdrawn (R127, R132). -/
def State.quitWaits (s : State) (p : Asker → Nat → Bool) : State :=
  let s := s.withdrawRemote p
  { s with waiters := s.waiters.filter fun (w : WaiterEntry) => match w.who with
      | .agent a k => !p a k
      | _ => true }

/-- The core on which a task is resident; core 0 stands for none. -/
def State.coreOf (s : State) (task : Nat) : Nat := match s.task? task with
  | some t => t.core.getD 0
  | none => 0

/-- A matrix operation whose instruction has not ended: one that keeps its place, a WLOAD, or an MMA whose operands are not held. -/
def MatOp.pending (o : MatOp) : Bool := o.kind != 0 || !o.inPort

/-- MMAs of a task that wait for the load of a plane take it as the load leaves it (R275). -/
def Core.planeReady (c : Core) (task p : Nat) (y : Plane) : Core :=
  { c with ops := c.ops.map fun (o : MatOp) =>
      if o.kind = 4 ∧ o.task = task ∧ o.plane = some p ∧ o.weights = none then { o with weights := some y } else o }

/-- The operations that an instruction of a warp has begun and not ended are dropped; the plane of an unfinished WLOAD becomes
Empty (R275). -/
def State.dropTurns (s : State) (task warp : Nat) : State :=
  let core := s.coreOf task
  let mine (o : MatOp) : Bool := o.task == task && o.warp == warp && o.pending
  let ops := (s.core core).ops
  let rest := ops.filter fun (o : MatOp) => !mine o
  let s := s.modCore core fun c => { c with ops := rest }
  ops.foldl (fun (s : State) (o : MatOp) =>
    match mine o && o.kind == 2, o.plane, s.task? task with
    | true, some p, some t =>
      match t.planes[p]? with
      | some y =>
        (s.modTask task fun t => { t with planes := t.planes.modify p fun (x : Plane) => { x with st := .empty } }).modCore core
          fun c => c.planeReady task p { y with st := .empty }
      | none => s
    | _, _, _ => s) s

/-- An instruction of the warp has sent requests to peers and has not ended, or fetches operands of the matrix array: the warp
stands at no instruction boundary. -/
def State.midway (s : State) (task warp : Nat) : Bool :=
  ((s.core (s.coreOf task)).ops.any fun (o : MatOp) =>
    o.task == task && o.warp == warp && (o.kind == 2 || (o.kind == 0 && !o.inPort))) ||
  (((s.outstanding.any fun o => o.who == .warp task warp && !opWaits o.op) || s.answers.any fun a => a.who == .warp task warp) &&
    match s.warp? task warp with
      | some w => w.st != .blocked
      | none => false)

/-! ## Reads at a home (R206, R209, R210) -/

/-- The address of the 32-bit word that holds a byte. -/
def wordOf (pa : Nat) : Nat := pa / 4 * 4

/-- The address of the 128-byte line that holds a byte (R209). -/
def lineOf (pa : Nat) : Nat := pa / 128 * 128

/-- The line of an L1 that holds a physical line address. -/
def Core.line? (c : Core) (pa : Nat) : Option L1Line := c.l1.find? fun l => l.pa == lineOf pa

/-- The word of an L1 at a word address. -/
def Core.word? (c : Core) (pa : Nat) : Option L1Word :=
  (c.line? pa).bind fun l => l.words.find? fun w => w.idx == pa % 128 / 4

/-- The core that has registered a word (R212). -/
def State.ownerOf (s : State) (pa : Nat) : Option Nat :=
  (s.owners.find? fun o => o.1 == wordOf pa).map (·.2)

/-- A byte as a read at its home returns it: words owned by a core are forwarded from their owner (R210). -/
def State.homeByte (s : State) (pa : Nat) : Byte :=
  match s.ownerOf pa with
  | none => s.mem.get pa
  | some c =>
    match (s.core c).word? (wordOf pa) with
    | some w =>
      if w.owned && w.mask.getLsbD (pa % 4) then w.val.extractLsb' (8 * (pa % 4)) 8 else s.mem.get pa
    | none => s.mem.get pa

/-- `n` bytes as a read at their home returns them. -/
def State.homeBytes (s : State) (pa n : Nat) : List Byte := (List.range n).map fun i => s.homeByte (pa + i)

/-- The number in `n` bytes at their home. -/
def State.homeN (s : State) (pa n : Nat) : Nat := ofBytes (s.homeBytes pa n)

/-! ## The fault itself -/

/-- A translation that stays cached has the A and D of the copy that stood before, or of its entry: what the failing instruction would have
set is not set (R191). -/
def State.unmarked (s : State) (e : TlbEntry) : TlbEntry :=
  let old := s.tlb.find? fun x =>
    x.cluster == e.cluster && x.quarter == e.quarter && x.ctx == e.ctx && x.va == e.va && x.log == e.log && x.epa == e.epa
  let ad : BitVec 16 := match old with
    | some x => x.bits
    | none => BitVec.ofNat 16 (s.homeN e.epa 8)
  { e with bits := (e.bits &&& 0xFF3F) ||| (e.bits &&& ad &&& 0xC0) }

/-- The translations that the failing checks of a fault have read stay cached (R193). -/
def State.keepCached (s : State) (x : Trap) : State :=
  match x.cached with
  | some (tlb, walks) => { s with tlb := tlb.map s.unmarked, walks := walks }
  | none => s

/-- TAKING A FAULT, the one operation of every warp fault (R79, R353, R357): the warp becomes Suspended with its full
state kept, the record waits for the ring of the context, or of the debug partition for a debug cause of the attached
context, which also freezes the device; a fault is a switch point. `pc` is the PC of the faulting instruction. -/
def State.takeFault (s : State) (task warp : Nat) (pc : W64) (x : Trap) : State :=
  let s := s.keepCached x
  match s.task? task with
  | none => s
  | some t =>
    match t.warps[warp]? with
    | none => s
    | some w =>
      let record := s.warpRecord t warp w pc x
      let debug := x.cause.isDebug && s.atten && s.att == t.ctx && s.debugSlot.isSome && s.debugSlot != some t.ctx
      let ring := if debug then s.debugSlot.getD t.ctx else t.ctx
      let skip : BitVec 16 := if x.cause.resumesPast then maskOf w.activeSet else 0
      let ran : BitVec 16 := if x.cause.resumesPast then x.mask else 0
      let s := s.modWarp task warp fun w =>
        { w with st := .suspended, wait := none, stall := none,
                 susp := some { cause := x.cause, skip := skip, ran := ran, pushed := false, resumed := false } }
      let s := s.withdrawWaits task warp
      let s := s.dropTurns task warp
      let s := s.queueRecord ring record
      let s := s.traceFrame task warp 5
        (BitVec.ofNat 8 x.cause.code :: (List.replicate 7 0 ++ toBytes 8 pc.toNat ++ toBytes 2 x.mask.toNat))
      let s := if debug then s.freeze else s
      s.switchPoint task warp

/-- The outcome of taking a fault. -/
def faultOut (s : State) (task warp : Nat) (pc : W64) (x : Trap) : Out := .next (s.takeFault task warp pc x)

/-- The counts of R77 after an instruction that the threads executed: `before` is the warp at its start. -/
def Warp.countRegion (w before : Warp) (ts : List Tid) : Warp :=
  ts.foldl (fun w t =>
    if (before.thread t).region.committed && (w.thread t).region.committed then
      w.modThread t fun th => { th with region := { th.region with count := th.region.count + 1 } }
    else w) w

/-- A macro body goes on with its next slot; at the end of the body the threads pass the MCALL (R83). -/
def Warp.nextSlot (w : Warp) : Warp :=
  match w.mac with
  | none => w
  | some m =>
    if m.slot + 1 < m.body.length then { w with mac := some { m with slot := m.slot + 1 } }
    else { w.modThreads w.activeSet (fun th => { th with pc := nextPc th.pc }) with mac := none }

/-- A Suspended warp as RESUME continues it (R353): past the instruction for class N, which its threads have executed (R77). -/
def Warp.continue (w : Warp) : Warp :=
  match w.susp with
  | none => w
  | some x =>
    let w := { w.countRegion w (tidsOf x.ran) with susp := none }
    if x.skip = 0 then w
    else if w.mac.isSome then w.nextSlot
    else w.modThreads (tidsOf x.skip) (fun th => { th with pc := nextPc th.pc })

/-- REGION REPLAY (R81, R99): every thread of the active set returns to its region entry, with the stochastic state copied
there; the Lost latches that the instruction reads (`ks`) become Cleared (R80). The cycles until the warp issues again are charged
as REGION_REPLAY (R387). -/
def Warp.replay (w : Warp) (active : List Tid) (ks : List Nat) : Warp :=
  { w.modThreads active (fun th =>
      let th := { th with k := ks.foldl (fun (k : Vector Latch 4) (i : Nat) =>
        vmod k i fun (l : Latch) => if l.st = LatchState.lost then Latch.cleared else l) th.k }
      if th.region.inside then
        { th with pc := th.region.entry, seed := th.region.seed, atHalf := th.region.half,
                  region := { th.region with replayed := true } }
      else th) with mac := none, stall := some .replay }

/-- A warp is pinned (R74): a thread of it has committed its region, or is being replayed. -/
def Warp.pinned (w : Warp) : Bool :=
  allTids.any fun t =>
    let th := w.thread t
    !th.exited && (th.region.committed || th.region.replayed)

end Sys2Proof.Machine
end

