-- ==== Sys2Proof/Machine/Numbers.lean ====
section
/-!
DEFINITION. Numbers (04_numbers): the element formats, exact values, rounding to a format with its flags, and the
stochastic state.
-/

namespace Sys2Proof.Machine

open Sys2Proof

/-- The element formats of R47, R48 and R51, in the order of their FMT codes (R270, R309). -/
inductive Fmt where
  | fp32
  | bf16
  | fp16
  | e4m3
  | e5m2
  | e2m1
  | dps8
  | int8
  | int4
  deriving DecidableEq, Repr

/-- The format of an FMT code (R270). -/
def Fmt.ofCode : Nat → Option Fmt
  | 0 => some .fp32
  | 1 => some .bf16
  | 2 => some .fp16
  | 3 => some .e4m3
  | 4 => some .e5m2
  | 5 => some .e2m1
  | 6 => some .dps8
  | 7 => some .int8
  | 8 => some .int4
  | _ => none

/-- Bits of an element (R47, R48, R51). -/
def Fmt.bits : Fmt → Nat
  | .fp32 => 32
  | .bf16 | .fp16 => 16
  | .e4m3 | .e5m2 | .dps8 | .int8 => 8
  | .e2m1 | .int4 => 4

/-- Fraction bits of a floating-point format (R47). -/
def Fmt.frac : Fmt → Nat
  | .fp32 => 23
  | .bf16 => 7
  | .fp16 => 10
  | .e4m3 => 3
  | .e5m2 => 2
  | .e2m1 => 1
  | _ => 0

/-- The exponent bias of a floating-point format (R47). -/
def Fmt.bias : Fmt → Nat
  | .fp32 | .bf16 => 127
  | .fp16 | .e5m2 => 15
  | .e4m3 => 7
  | .e2m1 => 1
  | _ => 0

/-- Exponent bits of a floating-point format (R47). -/
def Fmt.exp : Fmt → Nat
  | .fp32 | .bf16 => 8
  | .fp16 | .e5m2 => 5
  | .e4m3 => 4
  | .e2m1 => 2
  | _ => 0

/-- The format has infinities (R47). -/
def Fmt.hasInf : Fmt → Bool
  | .fp32 | .bf16 | .fp16 | .e5m2 => true
  | _ => false

/-- The format carries block scales (R60). -/
def Fmt.scaled : Fmt → Bool
  | .fp32 | .bf16 | .fp16 => false
  | _ => true

/-- The canonical NaN (R50). -/
def Fmt.nan : Fmt → Nat
  | .fp32 => 0x7FC00000
  | .fp16 => 0x7E00
  | .bf16 => 0x7FC0
  | .e4m3 => 0x7F
  | .e5m2 => 0x7E
  | _ => 0

/-- The code of the largest finite magnitude (R47). -/
def Fmt.largest : Fmt → Nat
  | .fp32 => 0x7F7FFFFF
  | .fp16 => 0x7BFF
  | .bf16 => 0x7F7F
  | .e4m3 => 0x7E
  | .e5m2 => 0x7B
  | .e2m1 => 7
  | _ => 0

/-- The zero code (R61). -/
def Fmt.zero : Fmt → Nat
  | .dps8 => 0x77
  | _ => 0

/-- A value: a NaN with its quiet bit, an infinity, or a signed dyadic (-1)^neg × m × 2^e. -/
inductive Val where
  | nan (quiet : Bool)
  | inf (neg : Bool)
  | num (neg : Bool) (m : Nat) (e : Int)
  deriving DecidableEq, Repr

/-- The value of a DPS8 term in 64ths (R51). -/
def dpsTerm (neg : Bool) (k : Nat) : Int :=
  if k = 7 then 0 else if neg then -(2 ^ (6 - k) : Nat) else (2 ^ (6 - k) : Nat)

/-- The value of an integer as a dyadic. -/
def Val.ofInt (v : Int) (e : Int) : Val := .num (decide (v < 0)) v.natAbs e

/-- The exact value of an element code (R47, R48, R51, R66 `value_of`). A NaN of E4M3 or E5M2 is quiet: it sets no NV (R50). -/
def Fmt.value (f : Fmt) (code : Nat) : Val :=
  match f with
  | .int8 => .ofInt (signedOf 8 code) 0
  | .int4 => .ofInt (signedOf 4 code) 0
  | .dps8 =>
    .ofInt (dpsTerm (bitAt code 7) (bitsOf code 6 4) + dpsTerm (bitAt code 3) (bitsOf code 2 0)) (-6)
  | f =>
    let neg := bitAt code (f.bits - 1)
    let ex := bitsOf code (f.bits - 2) f.frac
    let fr := code % 2 ^ f.frac
    let top := 2 ^ f.exp - 1
    if f.hasInf && ex == top then (if fr = 0 then .inf neg else .nan (f == .e5m2 || bitAt fr (f.frac - 1)))
    else if f = .e4m3 && ex == top && fr == 7 then .nan true
    else if ex = 0 then .num neg fr (1 - (f.bias : Int) - f.frac)
    else .num neg (2 ^ f.frac + fr) ((ex : Int) - f.bias - f.frac)

/-- The rounding modes of R46. -/
inductive Mode where
  | rne
  | rtz
  | rup
  | rdn
  | rsr
  deriving DecidableEq, Repr

/-- The mode of a field value (R46); 5 to 7 are reserved and read here as RNE. -/
def Mode.ofCode : Nat → Mode
  | 1 => .rtz
  | 2 => .rup
  | 3 => .rdn
  | 4 => .rsr
  | _ => .rne

/-- The bits of FLAGS (R56). -/
def flagNV : W32 := 0x01
def flagDZ : W32 := 0x02
def flagOF : W32 := 0x04
def flagUF : W32 := 0x08
def flagNX : W32 := 0x10
def flagSU : W32 := 0x20
def flagSN : W32 := 0x40

/-- Whether a magnitude between two adjacent values `k` and `k + 1` goes up (R54): `rem` of `2 ^ d` is its fraction,
`sticky` says that the exact fraction lies above it by less than one unit, `u` is the random draw. -/
def roundUp (mode : Mode) (neg : Bool) (k rem d : Nat) (sticky : Bool) (u : Nat) : Bool :=
  if rem = 0 && !sticky then false
  else
    match mode with
    | .rne =>
      let half := 2 ^ d
      if 2 * rem < half then false
      else if 2 * rem = half && !sticky then k % 2 == 1
      else true
    | .rtz => false
    | .rup => !neg
    | .rdn => neg
    | .rsr =>
      let q := rem * 65536 / 2 ^ d
      let exact := rem * 65536 % 2 ^ d == 0 && !sticky
      if neg then !(decide (u < if exact then 65536 - q else 65535 - q)) else decide (u < q)

/-- The code of a magnitude of `k` quanta of exponent `q` in a floating-point format. -/
def Fmt.pack (f : Fmt) (neg : Bool) (k : Nat) (q : Int) : Nat :=
  let sign := if neg then 2 ^ (f.bits - 1) else 0
  if k < 2 ^ f.frac then sign + k
  else
    let sh := Nat.log2 k - f.frac
    let ex := (Nat.log2 k : Int) + q + f.bias
    sign + ex.toNat * 2 ^ f.frac + (k / 2 ^ sh - 2 ^ f.frac)

/-- Whether `a × 2^x` exceeds `b × 2^y`. -/
def dyadLt (b : Nat) (y : Int) (a : Nat) (x : Int) : Bool :=
  let lo := min x y
  decide (b * 2 ^ (y - lo).toNat < a * 2 ^ (x - lo).toNat)

/-- The result of an overflow (R54). -/
def Fmt.overflow (f : Fmt) (neg : Bool) (mode : Mode) (sat : Bool) : Nat :=
  let sign := if neg then 2 ^ (f.bits - 1) else 0
  let inf := (2 ^ f.exp - 1) * 2 ^ f.frac
  if f.hasInf && !sat then
    match mode with
    | .rne | .rsr => sign + inf
    | .rtz => sign + f.largest
    | .rup => if neg then sign + f.largest else inf
    | .rdn => if neg then sign + inf else f.largest
  else sign + f.largest

/-- The magnitude of the largest finite value as a dyadic. -/
def Fmt.maxMag (f : Fmt) : Nat × Int :=
  match f.value f.largest with
  | .num _ m e => (m, e)
  | _ => (0, 0)

/-- Rounding of a non-zero magnitude to a floating-point format (R54). -/
def Fmt.roundMag (f : Fmt) (neg : Bool) (m : Nat) (e : Int) (sticky : Bool) (mode : Mode) (sat : Bool) (u : Nat) :
    Nat × W32 :=
  let top := (Nat.log2 m : Int) + e
  let emin : Int := 1 - (f.bias : Int)
  let q := max top emin - f.frac
  let d := (q - e).toNat
  let k := if q ≤ e then m * 2 ^ (e - q).toNat else m / 2 ^ d
  let rem := if q ≤ e then 0 else m % 2 ^ d
  let k' := if roundUp mode neg k rem d sticky u then k + 1 else k
  let inexact := rem != 0 || sticky
  let mx := f.maxMag
  if dyadLt mx.1 mx.2 k' q then (f.overflow neg mode sat, flagOF ||| flagNX)
  else
    let code := f.pack neg k' q
    if inexact then
      (code, flagNX ||| (if k' ≠ 0 ∧ top < emin then flagUF else 0))
    else (code, 0)

/-- The integer that a magnitude rounds to (R54). -/
def roundInt (neg : Bool) (m : Nat) (e : Int) (sticky : Bool) (mode : Mode) (u : Nat) : Int × Bool :=
  let d := (-e).toNat
  let k := if 0 ≤ e then m * 2 ^ e.toNat else m / 2 ^ d
  let rem := if 0 ≤ e then 0 else m % 2 ^ d
  let k' := if roundUp mode neg k rem d sticky u then k + 1 else k
  (if neg then -(k' : Int) else k', rem != 0 || sticky)

/-- Rounding to an integer range, saturating (R54). -/
def roundToRange (lo hi : Int) (neg : Bool) (m : Nat) (e : Int) (sticky : Bool) (mode : Mode) (u : Nat) : Int × W32 :=
  let r := roundInt neg m e sticky mode u
  if hi < r.1 then (hi, flagOF ||| flagNX)
  else if r.1 < lo then (lo, flagOF ||| flagNX)
  else (r.1, if r.2 then flagNX else 0)

/-- The canonical DPS8 code of a positive value of `n` 64ths, if it is representable (R52). -/
def dpsCode (n : Nat) : Option Nat :=
  let ks := List.range 7
  let pow (k : Nat) := 2 ^ (6 - k)
  match ks.find? fun k => pow k == n with
  | some k => some (k * 16 + 7)
  | none =>
    match ks.findSome? fun a => (ks.find? fun b => decide (a ≤ b) && pow a + pow b == n).map fun b => a * 16 + b with
    | some c => some c
    | none => ks.findSome? fun a =>
        (ks.find? fun b => decide (a < b) && pow a - pow b == n).map fun b => a * 16 + 8 + b

/-- The representable DPS8 magnitudes in 64ths, rising. -/
def dpsMags : List Nat := 0 :: ((List.range 129).filter fun n => n != 0 && (dpsCode n).isSome)

/-- The canonical DPS8 code of a signed value of `n` 64ths (R52). -/
def dpsSigned (neg : Bool) (n : Nat) : Nat :=
  if n = 0 then 0x77
  else
    match dpsCode n with
    | none => 0x77
    | some c =>
      if neg then (if c % 8 = 7 then c + 128 else if c % 16 < 8 then c + 136 else c + 120) else c

/-- Rounding of a magnitude to DPS8 (R53): the nearest value, ties to the smaller magnitude. -/
def dpsRound (neg : Bool) (m : Nat) (e : Int) (sticky : Bool) : Nat × W32 :=
  let d := (-(e + 6)).toNat
  let k := if 0 ≤ e + 6 then m * 2 ^ (e + 6).toNat else m / 2 ^ d
  let rem := if 0 ≤ e + 6 then 0 else m % 2 ^ d
  let exact := rem == 0 && !sticky
  if 128 < k || (k == 128 && !exact) then (dpsSigned neg 128, flagOF ||| flagNX)
  else
    let lo := (dpsMags.filter fun n => decide (n ≤ k)).getLastD 0
    if exact && lo == k then (dpsSigned neg k, 0)
    else
      let hi := (dpsMags.find? fun n => decide (k < n)).getD 128
      -- twice the distance to the middle: 2x - (lo + hi), with x = k + rem / 2^d
      let up := decide ((lo + hi) * 2 ^ d < 2 * (k * 2 ^ d + rem)) ||
        ((lo + hi) * 2 ^ d == 2 * (k * 2 ^ d + rem) && sticky)
      (dpsSigned neg (if up then hi else lo), flagNX)

/-- round_to of R54 for an element format; `sticky` marks an exact value just above the magnitude given, `u` is the random
draw of RSR, `sym` clamps an integer format symmetrically as the quantiser does (R60). -/
def Fmt.round (f : Fmt) (x : Val) (sticky : Bool) (mode : Mode) (sat : Bool) (u : Nat) (sym : Bool := false) : Nat × W32 :=
  match f with
  | .int8 | .int4 =>
    let hi : Int := if f = .int8 then 127 else 7
    let lo : Int := if sym then -hi else -hi - 1
    match x with
    | .nan _ => (0, flagNV)
    | .inf neg => (wrapTo f.bits (if neg then lo else hi), flagNV)
    | .num neg m e =>
      let r := roundToRange lo hi neg m e sticky mode u
      (wrapTo f.bits r.1, r.2)
  | .dps8 =>
    match x with
    | .nan _ => (0x77, flagNV)
    | .inf neg => (dpsSigned neg 128, flagNV)
    | .num neg m e => if m = 0 && !sticky then (0x77, 0) else dpsRound neg m e sticky
  | f =>
    let sign (neg : Bool) : Nat := if neg then 2 ^ (f.bits - 1) else 0
    match x with
    | .nan _ => if f = .e2m1 then (0, flagNV) else (f.nan, 0)
    | .inf neg =>
      if f.hasInf then (sign neg + (2 ^ f.exp - 1) * 2 ^ f.frac, 0) else (sign neg + f.largest, flagNV)
    | .num neg m e => if m = 0 && !sticky then (sign neg, 0) else f.roundMag neg m e sticky mode sat u

/-! ## Exact arithmetic -/

/-- The negation of a value. -/
def Val.neg : Val → Val
  | .nan q => .nan q
  | .inf n => .inf (!n)
  | .num n m e => .num (!n) m e

/-- The value is a NaN. -/
def Val.isNan : Val → Bool
  | .nan _ => true
  | _ => false

/-- The value is a NaN whose quiet bit is clear. -/
def Val.isSignal : Val → Bool
  | .nan q => !q
  | _ => false

/-- The exact product; none for 0 × ∞, which is invalid (R50). NaN operands are handled before. -/
def Val.mul : Val → Val → Option Val
  | .inf a, .inf b => some (.inf (xor a b))
  | .inf a, .num b m _ => if m = 0 then none else some (.inf (xor a b))
  | .num a m _, .inf b => if m = 0 then none else some (.inf (xor a b))
  | .num a m e, .num b n f => some (.num (xor a b) (m * n) (e + f))
  | _, _ => none

/-- The signed integer of a dyadic at an exponent at or below its own. -/
def dyadInt (neg : Bool) (m : Nat) (e lo : Int) : Int :=
  let v := m * 2 ^ (e - lo).toNat
  if neg then -(v : Int) else v

/-- The exact sum of two numbers, with the sign of a zero by R49. -/
def addNum (mode : Mode) (a : Bool) (m : Nat) (e : Int) (b : Bool) (n : Nat) (f : Int) : Val :=
  let lo := min e f
  let v := dyadInt a m e lo + dyadInt b n f lo
  if v = 0 then .num (if a == b then a else mode == .rdn) 0 0
  else .num (decide (v < 0)) v.natAbs lo

/-- The exact sum; none for ∞ − ∞. NaN operands are handled before. -/
def Val.add (mode : Mode) : Val → Val → Option Val
  | .inf a, .inf b => if a = b then some (.inf a) else none
  | .inf a, .num _ _ _ => some (.inf a)
  | .num _ _ _, .inf b => some (.inf b)
  | .num a m e, .num b n f => some (addNum mode a m e b n f)
  | _, _ => none

/-- Comparison of two values that are no NaN, −0 equal to +0: less, equal, greater. -/
def Val.cmp : Val → Val → Ordering
  | .inf a, .inf b => if a = b then .eq else if a then .lt else .gt
  | .inf a, _ => if a then .lt else .gt
  | _, .inf b => if b then .gt else .lt
  | .num a m e, .num b n f =>
    let lo := min e f
    compare (dyadInt a m e lo) (dyadInt b n f lo)
  | _, _ => .eq

/-- The sign of a value. -/
def Val.sign : Val → Bool
  | .nan _ => false
  | .inf n => n
  | .num n _ _ => n

/-- The exact sum of a list of terms and the sign of a zero sum by R49: −0 only when every term is negative. -/
def sumNums (ts : List (Bool × Nat × Int)) : Val :=
  let lo := ts.foldl (fun l t => min l t.2.2) 0
  let v := ts.foldl (fun (acc : Int) t => acc + dyadInt t.1 t.2.1 t.2.2 lo) 0
  if v = 0 then .num (!ts.isEmpty && ts.all fun t => t.1) 0 0
  else .num (decide (v < 0)) v.natAbs lo

/-! ## The stochastic state (R55) -/

/-- One xorshift32 step. -/
def xorshift (s : W32) : W32 :=
  let s := s ^^^ (s <<< 13)
  let s := s ^^^ (s >>> 17)
  s ^^^ (s <<< 5)

/-- The next 16 random bits and the state after them. -/
def srand (s : W32) : Nat × W32 :=
  let s := xorshift s
  ((s >>> 16).toNat, s)

/-- `n` draws and the state after them. -/
def srands : Nat → W32 → List Nat × W32
  | 0, s => ([], s)
  | n + 1, s =>
    let r := srand s
    let q := srands n r.2
    (r.1 :: q.1, q.2)

/-- NV for operands that are NaNs with a clear quiet bit (R50). -/
def signalFlag (vs : List Val) : W32 := if vs.any Val.isSignal then flagNV else 0

/-- The FP32 sum of two exact values, rounded once, with its flags (R49, R50). -/
def fp32Sum (mode : Mode) (x y : Val) : Nat × W32 :=
  let snan := if x.isSignal || y.isSignal then flagNV else 0
  if x.isNan || y.isNan then (Fmt.fp32.nan, snan)
  else
    match x.add mode y with
    | none => (Fmt.fp32.nan, flagNV)
    | some v => Fmt.fp32.round v false mode false 0

/-- FP32 addition as atomics and matrix sums make it: rounded once, no flag kept (R64, R238). -/
def fp32Add (mode : Mode) (a b : Nat) : Nat × W32 := fp32Sum mode (Fmt.fp32.value a) (Fmt.fp32.value b)

end Sys2Proof.Machine
end

