-- ==== Sys2Proof/Machine/Quant.lean ====
section
/-!
DEFINITION. Block scales, the quantiser, the Hadamard transform and the checksums (R58 to R62, R309, R318).
-/

namespace Sys2Proof.Machine

open Sys2Proof

/-- One byte of a CRC taken most significant bit first, of `w` bits. -/
def crcMsb (w poly : Nat) : Nat → Nat → Nat
  | 0, r => r
  | n + 1, r =>
    let r' := r * 2 % 2 ^ w
    crcMsb w poly n (if r.testBit (w - 1) then r' ^^^ poly else r')

/-- CRC-8 of R59 over the bytes of a word's bits 23:0, least significant byte first. -/
def crc8 (v : Nat) : Nat :=
  [v % 256, v / 256 % 256, v / 65536 % 256].foldl (fun r b => crcMsb 8 0x07 8 (r ^^^ b)) 0

/-- CRC-16 of R318 over bytes in address order. -/
def crc16 (bs : List Byte) : Nat :=
  bs.foldl (fun r b => crcMsb 16 0x1021 8 (r ^^^ (b.toNat * 256))) 0xFFFF

/-- One byte of a reflected CRC-32C. -/
def crcLsb : Nat → Nat → Nat
  | 0, r => r
  | n + 1, r => crcLsb n (if r.testBit 0 then (r / 2) ^^^ 0x82F63B78 else r / 2)

/-- CRC-32C of R309 over bytes in address order. -/
def crc32c (bs : List Byte) : Nat :=
  (bs.foldl (fun r b => crcLsb 8 (r ^^^ b.toNat)) 0xFFFFFFFF) ^^^ 0xFFFFFFFF

/-- The fields of a scale word (R58). -/
def scaleExp (w : W32) : Nat := (w.extractLsb' 0 8).toNat
def scaleFrac (w : W32) : Nat := (w.extractLsb' 8 8).toNat
def scaleHad (w : W32) : Bool := w.getLsbD 16
def scaleSz (w : W32) : Bool := w.getLsbD 17
def scaleZb (w : W32) : Bool := w.getLsbD 18

/-- A scale word with its check bits (R58, R59). -/
def mkScale (exp frac : Nat) (had sz zb : Bool) : W32 :=
  let v := exp + frac * 256 + (if had then 2 ^ 16 else 0) + (if sz then 2 ^ 17 else 0) + (if zb then 2 ^ 18 else 0)
  BitVec.ofNat 32 (v + crc8 v * 2 ^ 24)

/-- A consumer that expects blocks of 32 (`sz`) or 16 elements accepts the word (R59). -/
def scaleOk (w : W32) (sz : Bool) : Bool :=
  (w.extractLsb' 24 8).toNat == crc8 (w.toNat % 2 ^ 24) && w.extractLsb' 19 5 == 0 && scaleSz w == sz
    && !(scaleZb w && (scaleExp w != 0 || scaleFrac w != 0))

/-- scale_value (R58) as a dyadic; meaningful when EXP is not 0xFF. -/
def scaleMag (w : W32) : Nat × Int := (256 + scaleFrac w, (scaleExp w : Int) - 127 - 8)

/-- The exact value of an element under its scale word (R58): NaN when EXP = 0xFF. -/
def scaledValue (f : Fmt) (code : Nat) (w : W32) : Val :=
  if scaleExp w = 255 then .nan true
  else
    match f.value code with
    | .num neg m e => .num neg (m * (scaleMag w).1) (e + (scaleMag w).2)
    | v => v

/-- The element of a block: +0 in a ZB block (R58, R321), else its scaled value. -/
def blockValue (f : Fmt) (code : Nat) (w : W32) : Val :=
  if scaleZb w && scaleExp w != 255 then .num false 0 0 else scaledValue f code w

/-- One butterfly stage of R62 over exact values, each result rounded to an FP32 code: pairs at distance `h`. -/
def butterfly (x : List Val) (h : Nat) : List Nat :=
  (List.range x.length).map fun i =>
    let a := x.getD (i - i / h % 2 * h) (.num false 0 0)
    let b := x.getD (i - i / h % 2 * h + h) (.num false 0 0)
    (fp32Sum .rne a (if i / h % 2 = 0 then b else b.neg)).1

/-- hadamard of R62 for blocks of 16 and 32 exact values. -/
def hadamardVals (x : List Val) : List Nat :=
  let next (h : Nat) (x : List Nat) : List Nat := butterfly (x.map Fmt.fp32.value) h
  let x := next 8 (next 4 (next 2 (butterfly x 1)))
  if x.length = 32 then next 16 x else x

/-- hadamard of R62 for FP32 codes. -/
def hadamard (x : List Nat) : List Nat := hadamardVals (x.map Fmt.fp32.value)

/-- The largest magnitude of a scaled format (R60) and its emax. -/
def Fmt.fmax : Fmt → Nat × Int
  | .e4m3 => (448, 8)
  | .e5m2 => (57344, 15)
  | .e2m1 => (6, 2)
  | .dps8 => (2, 1)
  | .int8 => (127, 6)
  | .int4 => (7, 2)
  | _ => (1, 0)

/-- EXP, FRAC and whether SU is set, for a block whose largest magnitude is `m × 2^e` (R61). -/
def quantScale (f : Fmt) (fine : Bool) (m : Nat) (e : Int) : Nat × Nat × Bool :=
  let top := (Nat.log2 m : Int) + e
  let ef : Int × Nat :=
    if !fine then (top - f.fmax.2, 0)
    else
      let fm := f.fmax.1
      let l := top - Nat.log2 fm
      -- the largest exponent with fmax × 2^l at most the magnitude
      let l := if dyadLt m e fm l then l - 1 else l
      -- smallest FRAC with m × 2^e ≤ fmax × 2^l × (1 + FRAC/256)
      let ok (fr : Nat) := !dyadLt (fm * (256 + fr)) (l - 8) m e
      match (List.range 256).find? ok with
      | some fr => (l, fr)
      | none => (l + 1, 0)
  let x := ef.1 + 127
  if x < 0 then (0, 0, true) else if 254 < x then (254, 255, false) else (x.toNat, ef.2, false)

/-- What quantise_block gives: each element's code with the flags that the element raises, the scale word, and whether the block's
exponent was clamped at 0 (SU). -/
structure Quantised where
  elems : List (Nat × W32)
  scale : W32
  clamped : Bool
  deriving DecidableEq, Repr

/-- Each code of a block of zeros, with no flag. -/
def zeroBlock (f : Fmt) (n : Nat) (scale : W32) : Quantised :=
  { elems := List.replicate n (f.zero, 0), scale := scale, clamped := false }

/-- The largest magnitude among values, as a dyadic; 0 for none. -/
def largestMag (vs : List Val) : Nat × Int :=
  vs.foldl (fun acc v => match v with
    | .num _ m e => if dyadLt acc.1 acc.2 m e then (m, e) else acc
    | _ => acc) (0, 0)

/-- quantise_block of R61 over exact values. `had` is what the scale word says of them; `us` are the random draws, one for each
element. -/
def quantiseVals (vs : List Val) (f : Fmt) (fine had : Bool) (mode : Mode) (us : List Nat) : Quantised :=
  let sz := vs.length == 32
  let bad (v : Val) : Bool := match v with
    | .num _ _ _ => false
    | _ => true
  if vs.any bad then
    { elems := vs.map fun v => (f.zero, if bad v then flagSN else 0), scale := mkScale 255 0 had sz false, clamped := false }
  else
    let mx := largestMag vs
    if mx.1 = 0 then zeroBlock f vs.length (mkScale 0 0 had sz true)
    else
      let s := quantScale f fine mx.1 mx.2
      let den := 256 + s.2.1
      let se : Int := (s.1 : Int) - 127 - 8
      let rs := vs.zipIdx.map fun p =>
        match p.1 with
        | .num neg n g =>
          let r := f.round (.num neg (n * 2 ^ 64 / den) (g - 64 - se)) (n * 2 ^ 64 % den != 0) mode true
            (us.getD p.2 0) true
          (r.1, if r.2 = 0 then (0 : W32) else flagNX)
        | _ => (f.zero, 0)
      { elems := rs, scale := mkScale s.1 s.2.1 had sz false, clamped := s.2.2 }

/-- quantise_block of R61 with its Hadamard transform, over exact values. -/
def transformVals (x : List Val) (f : Fmt) (fine had : Bool) (mode : Mode) (us : List Nat) : Quantised :=
  quantiseVals (if had then (hadamardVals x).map Fmt.fp32.value else x) f fine had mode us

/-- quantise_block of R61 over FP32 codes. -/
def quantise (x : List Nat) (f : Fmt) (fine had : Bool) (mode : Mode) (us : List Nat) : Quantised :=
  transformVals (x.map Fmt.fp32.value) f fine had mode us

/-- The flags of a quantised block (R61). -/
def Quantised.flags (q : Quantised) : W32 := q.elems.foldl (fun a r => a ||| r.2) (if q.clamped then flagSU else 0)

/-- quantise_block of R61: element codes, scale word and the flags it raises. -/
def quantiseBlock (x : List Nat) (f : Fmt) (fine had : Bool) (mode : Mode) (us : List Nat) : List Nat × W32 × W32 :=
  let q := quantise x f fine had mode us
  (q.elems.map (·.1), q.scale, q.flags)

end Sys2Proof.Machine
end

