-- ==== Sys2Proof/Machine/Coded.lean ====
section
/-!
DEFINITION. Coded blocks, code tables, tensor descriptors and block-index entries (R309 to R322), as functions of bytes.
-/

namespace Sys2Proof.Machine

open Sys2Proof

/-! ## Tensor descriptors (R316, R317) -/

/-- A tensor descriptor (R316). -/
structure TDesc where
  bix : Nat
  rbix : Nat
  pool : Nat
  dimx : Nat
  dimy : Nat
  tr : Nat
  tc : Nat
  fmt : Nat
  bs32 : Bool
  had : Bool
  reloc : Bool
  recl : Bool
  dct : Nat
  /-- sub-streams for PFX -/
  nsub : Nat
  deriving DecidableEq, Repr

/-- The fields of the 64 bytes of a descriptor. -/
def TDesc.ofBits (v : Nat) : TDesc :=
  let byte (lo n : Nat) := bitsOf v (8 * (lo + n) - 1) (8 * lo)
  let flags := byte 37 1
  { bix := byte 0 8, rbix := byte 8 8, pool := byte 16 8, dimx := byte 24 4, dimy := byte 28 4, tr := byte 32 2,
    tc := byte 34 2, fmt := byte 36 1, bs32 := flags.testBit 0, had := flags.testBit 1, reloc := flags.testBit 2,
    recl := flags.testBit 3, dct := byte 38 1 % 16, nsub := byte 39 1 % 16 + 1 }

/-- The element format of a descriptor. -/
def TDesc.format (d : TDesc) : Fmt := (Fmt.ofCode d.fmt).getD .fp32

/-- Elements of a scale block. -/
def TDesc.bs (d : TDesc) : Nat := if d.bs32 then 32 else 16

/-- Elements of a tile. -/
def TDesc.elems (d : TDesc) : Nat := d.tr * d.tc

/-- Scale words of a tile (R309). -/
def TDesc.nscale (d : TDesc) : Nat := if d.format.scaled then d.elems / d.bs else 0

/-- Tiles across and down (R316). -/
def TDesc.txn (d : TDesc) : Nat := d.dimx / d.tc
def TDesc.tyn (d : TDesc) : Nat := d.dimy / d.tr

/-- Bytes of `n` elements packed (R48). -/
def packedBytes (f : Fmt) (n : Nat) : Nat := (n * f.bits + 7) / 8

/-- The 64 bytes of a descriptor meet R316 and R317. -/
def tdescOk (v : Nat) : Bool :=
  let d := TDesc.ofBits v
  let byte (lo n : Nat) := bitsOf v (8 * (lo + n) - 1) (8 * lo)
  decide (1 ≤ d.tr) && decide (d.tr ≤ 512) && decide (1 ≤ d.tc) && decide (d.tc ≤ 512) && decide (d.fmt ≤ 8)
    && d.bix % 16 == 0 && d.rbix % 16 == 0 && d.pool % 256 == 0 && d.dimx % d.tc == 0 && d.dimy % d.tr == 0
    && decide (byte 37 1 < 16) && decide (byte 38 1 < 16) && decide (byte 39 1 < 16) && byte 40 24 == 0
    && decide (d.elems ≤ 65536)
    && (if d.format.scaled then d.tc % d.bs == 0 else !d.bs32 && !d.had)
    && (d.format.bits != 4 || d.tc % 2 == 0)
    && decide (36 + 4 * d.nscale + packedBytes d.format d.elems ≤ 65536)

/-! ## Code tables (R312, R313) -/

/-- The codes of a canonical table: symbol, length and code (R313). -/
def canonical : List Nat → Nat → Nat → List Nat → List (Nat × Nat × Nat)
  | [], _, _, _ => []
  | n :: ns, l, code, order =>
    ((order.take n).zipIdx.map fun p => (p.1, l, code + p.2)) ++ canonical ns (l + 1) ((code + n) * 2) (order.drop n)

/-- The codes of a table. -/
def CodeTable.codes (t : CodeTable) : List (Nat × Nat × Nat) := canonical t.counts 1 0 t.order

/-- The Kraft sum in units of 2 to the power −15 (R312). -/
def kraft : List Nat → Nat → Nat
  | [], _ => 0
  | n :: ns, l => n * 2 ^ (15 - l) + kraft ns (l + 1)

/-- The table of a record's 288 bytes, none when it is invalid (R312). -/
def tableOfRecord (bs : List Byte) : Option CodeTable :=
  let nat (lo n : Nat) := ofBytes ((bs.drop lo).take n)
  let counts := (bs.take 15).map fun (b : Byte) => b.toNat
  let order := ((bs.drop 16).take 256).map fun (b : Byte) => b.toNat
  if nat 280 4 == crc32c (bs.take 280) && nat 15 1 == 0 && nat 274 6 == 0 && nat 284 4 == 0 && counts.sum == 256
      && order.length == 256 && (List.range 256).all order.contains && kraft counts 1 == 2 ^ 15 then
    some { counts := counts, order := order, tag := nat 272 2 }
  else none

/-- The 288 bytes of a table's record (R312). -/
def CodeTable.record (t : CodeTable) : List Byte :=
  let b (n : Nat) : Byte := BitVec.ofNat 8 n
  let body := t.counts.map b ++ [0] ++ t.order.map b ++ toBytes 2 t.tag ++ List.replicate 6 0
  body ++ toBytes 4 (crc32c body) ++ [0, 0, 0, 0]

/-- The bits of a number, most significant first. -/
def bitsMsb : Nat → Nat → List Bool
  | 0, _ => []
  | n + 1, v => v.testBit n :: bitsMsb n v

/-- Bits packed into bytes, most significant bit first, the last padded with zeros (R310): `n` bytes. -/
def packBits : Nat → List Bool → List Byte
  | 0, _ => []
  | n + 1, bs =>
    let one := (List.range 8).foldl (fun v i => v * 2 + (if bs.getD i false then 1 else 0)) 0
    BitVec.ofNat 8 one :: packBits n (bs.drop 8)

/-- The bits of a byte string, most significant bit of each byte first. -/
def unpackBits (bs : List Byte) : List Bool := bs.flatMap fun b => bitsMsb 8 b.toNat

/-- One code read from the front of a bit string: the symbol and the rest; none when the bits end inside it (R313). -/
def readCode : List Nat → List Nat → Nat → Nat → List Bool → Option (Nat × List Bool)
  | [], _, _, _, _ => none
  | _ :: _, _, _, _, [] => none
  | n :: ns, order, base, acc, b :: bs =>
    let code := acc * 2 + (if b then 1 else 0)
    if code - base < n then some (order.getD (code - base) 0, bs)
    else readCode ns (order.drop n) ((base + n) * 2) code bs

/-- Symbols of a sub-stream, each followed by a raw byte for 16-bit formats: the symbols and the rest, or the bit position at
which the one that runs out begins (R310, R322). -/
def readSymbols (t : CodeTable) (raw : Bool) : Nat → Nat → List Bool → Except Nat (List Nat × List Bool)
  | 0, _, bits => .ok ([], bits)
  | n + 1, pos, bits =>
    match readCode t.counts t.order 0 0 bits with
    | none => .error pos
    | some (sym, rest) =>
      let used := bits.length - rest.length
      if !raw then
        match readSymbols t raw n (pos + used) rest with
        | .ok (xs, r) => .ok (sym :: xs, r)
        | .error e => .error e
      else if rest.length < 8 then .error (pos + used)
      else
        let low := (rest.take 8).foldl (fun v b => v * 2 + (if b then 1 else 0)) 0
        match readSymbols t raw n (pos + used + 8) (rest.drop 8) with
        | .ok (xs, r) => .ok ((sym * 256 + low) :: xs, r)
        | .error e => .error e

/-! ## The coded block (R309 to R311) -/

/-- The content of a tile: element codes in row-major order, and the scale words. -/
structure TileData where
  codes : List Nat
  scales : List W32
  deriving DecidableEq, Repr

/-- The scale word of an all-zero block (R61): HAD as the descriptor has it. -/
def zeroScale (d : TDesc) : W32 := mkScale 0 0 d.had d.bs32 true

/-- A tile whose every element is the zero code (R321). -/
def zeroTile (d : TDesc) : TileData :=
  { codes := List.replicate d.elems d.format.zero, scales := List.replicate d.nscale (zeroScale d) }

/-- The elements of the blocks whose scale word has ZB = 0 (R310). -/
def sequenceOf (d : TDesc) (t : TileData) : List Nat :=
  if d.format.scaled then
    t.codes.zipIdx.filterMap fun p => if scaleZb (t.scales.getD (p.2 / d.bs) 0) then none else some p.1
  else t.codes

/-- The codes of a tile from its element sequence: ZB blocks take the zero code (R321). -/
def spreadBlocks (zeroCode bs : Nat) : List W32 → List Nat → List Nat
  | [], _ => []
  | w :: ws, seq =>
    if scaleZb w then List.replicate bs zeroCode ++ spreadBlocks zeroCode bs ws seq
    else seq.take bs ++ spreadBlocks zeroCode bs ws (seq.drop bs)

/-- The tile of an element sequence and scale words. -/
def spread (d : TDesc) (ws : List W32) (seq : List Nat) : TileData :=
  { codes := if d.format.scaled then spreadBlocks d.format.zero d.bs ws seq else seq, scales := ws }

/-- Pairs of elements as bytes, the first in the low nibble (R310). -/
def pairUp : List Nat → List Nat
  | a :: b :: r => (a + 16 * b) :: pairUp r
  | [a] => [a]
  | [] => []

/-- Elements of nibble pairs. -/
def unpair (bs : List Nat) : List Nat := bs.flatMap fun b => [b % 16, b / 16]

/-- The symbols of an element sequence, with the raw low byte of 16-bit elements kept below the symbol (R310). -/
def symbolsOf (f : Fmt) (seq : List Nat) : List Nat := if f.bits = 4 then pairUp seq else seq

/-- The bits of the symbols of one sub-stream. -/
def streamBits (codes : List (Nat × Nat × Nat)) (f : Fmt) (syms : List Nat) : List Bool :=
  syms.flatMap fun s =>
    let sym := if f.bits = 16 then s / 256 else s
    match codes.find? fun c => c.1 == sym with
    | some c => bitsMsb c.2.1 c.2.2 ++ (if f.bits = 16 then bitsMsb 8 (s % 256) else [])
    | none => []

/-- The symbols of sub-stream `j` of `n`. -/
def strideOf (n j : Nat) (syms : List Nat) : List Nat :=
  syms.zipIdx.filterMap fun p => if p.2 % n = j then some p.1 else none

/-- The bytes of a block from its sub-streams (R309): header, length table, scale words, payload. -/
def blockBytes (d : TDesc) (mode tslot ttag : Nat) (ws : List W32) (subs : List (List Byte)) : List Byte :=
  let scales := ws.flatMap fun w => toBytes 4 w.toNat
  let payload := subs.flatten
  let body := scales ++ payload
  let header := 0xC7 + 2 ^ 8 + mode * 2 ^ 12 + d.fmt * 2 ^ 16 + tslot * 2 ^ 24 + ttag * 2 ^ 32 + (d.elems - 1) * 2 ^ 48
    + ws.length * 2 ^ 64 + (subs.length - 1) * 2 ^ 80 + (if d.bs32 then 2 ^ 84 else 0) + 8 * payload.length * 2 ^ 96
    + crc32c body * 2 ^ 128
  toBytes 32 header ++ subs.flatMap (fun s => toBytes 4 s.length) ++ body

/-- The RAW block of a tile (R310). -/
def rawBlock (d : TDesc) (t : TileData) : List Byte :=
  let seq := sequenceOf d t
  blockBytes d 0 0 0 t.scales [toBytes (packedBytes d.format seq.length) (seq.foldr (fun x acc => x + 2 ^ d.format.bits * acc) 0)]

/-- The PFX block of a tile with a table (R310). -/
def pfxBlock (d : TDesc) (slot : Nat) (ct : CodeTable) (t : TileData) : List Byte :=
  let syms := symbolsOf d.format (sequenceOf d t)
  blockBytes d 1 slot ct.tag t.scales ((List.range d.nsub).map fun j =>
    let bits := streamBits ct.codes d.format (strideOf d.nsub j syms)
    packBits ((bits.length + 7) / 8) bits)

/-- The tile is written as no block (R311). -/
def TileData.allZero (d : TDesc) (t : TileData) : Bool :=
  if d.format.scaled then t.scales.all scaleZb else t.codes.all (· == 0)

/-- The block that the encoder writes and its TTAG (R311): PFX only when it is shorter. -/
def encodeTile (d : TDesc) (slot : Nat) (ct : CodeTable) (t : TileData) : List Byte × Nat :=
  let raw := rawBlock d t
  let pfx := pfxBlock d slot ct t
  if d.fmt != 0 && decide (pfx.length < raw.length) then (pfx, ct.tag) else (raw, 0)

/-! ## Block-index entries (R318) -/

/-- A block-index entry (R318). -/
structure BixEntry where
  addr : Nat
  scls : Nat
  v : Bool
  z : Bool
  len : Nat
  ttag : Nat
  deriving DecidableEq, Repr

/-- The fields of the 16 bytes of an entry. -/
def BixEntry.ofBits (e : Nat) : BixEntry :=
  { addr := bitsOf e 49 0 * 64, scls := bitsOf e 59 56, v := e.testBit 60, z := e.testBit 61, len := bitsOf e 95 64,
    ttag := bitsOf e 111 96 }

/-- The 16 bytes of an entry with a new CHK. -/
def withChk (e : Nat) : Nat := e % 2 ^ 112 + crc16 (toBytes 14 e) * 2 ^ 112

/-- CHK of an entry matches (R318). -/
def chkOk (e : Nat) : Bool := bitsOf e 127 112 == crc16 (toBytes 14 e)

/-- Check 1 of R321. -/
def bixOk (e : Nat) : Bool :=
  chkOk e && bitsOf e 55 50 == 0 && bitsOf e 63 62 == 0 && decide (bitsOf e 59 56 ≤ 10)

/-- An entry with another extent, or none (0): every other field is carried over, and CHK is new (R299). -/
def moveEntry (e addr scls : Nat) : Nat :=
  withChk (e - bitsOf e 49 0 - bitsOf e 59 56 * 2 ^ 56 + addr / 64 % 2 ^ 50 + scls * 2 ^ 56)

/-- The 16 bytes of an entry as a number, with its CHK. -/
def BixEntry.bits (b : BixEntry) : Nat :=
  let v := b.addr / 64 % 2 ^ 50 + b.scls * 2 ^ 56 + (if b.v then 2 ^ 60 else 0) + (if b.z then 2 ^ 61 else 0)
    + b.len % 2 ^ 32 * 2 ^ 64 + b.ttag * 2 ^ 96
  withChk v

/-- The entry of a tile without a block. -/
def BixEntry.zero : BixEntry := { addr := 0, scls := 0, v := true, z := true, len := 0, ttag := 0 }

/-- The entry of a tile that is absent. -/
def BixEntry.absent : BixEntry := { addr := 0, scls := 0, v := false, z := false, len := 0, ttag := 0 }

/-- The size class of a block of `len` bytes (R320); 11 when none is large enough. -/
def sizeClass (len : Nat) : Nat :=
  ((List.range 11).find? fun c => decide ((len + 63) / 64 * 64 ≤ 64 * 2 ^ c)).getD 11

/-! ## Decoding (R321, R322) -/

/-- A failure of a decode, with what the record adds: the sub-stream, the bit offset and the scale index. -/
structure DecodeFault where
  cause : Cause
  j : Nat := 0
  bit : Nat := 0
  k : Nat := 0
  deriving DecidableEq, Repr

/-- The first scale word that fails R59. -/
def badScale (d : TDesc) (ws : List W32) : Option Nat := ws.findIdx? fun w => !scaleOk w d.bs32

/-- The symbols of the sub-streams of a PFX block, or where one fails: sub-stream lengths, its bytes, and the number of
sub-streams and symbols in all (R321 check 7). -/
def readStreams (t : CodeTable) (raw : Bool) (nsub total : Nat) :
    List Nat → Nat → Nat → List Byte → Except DecodeFault (List (List Nat))
  | [], _, _, _ => .ok []
  | len :: lens, j, before, bs =>
    let fault (pos : Nat) : DecodeFault := { cause := .decodeCode, j := j, bit := 8 * before + pos }
    match readSymbols t raw ((total + nsub - 1 - j) / nsub) 0 (unpackBits (bs.take len)) with
    | .error pos => .error (fault pos)
    | .ok (syms, rest) =>
      match rest.findIdx? (· == true) with
      | some i => .error (fault (8 * len - rest.length + i))
      | none =>
        match readStreams t raw nsub total lens (j + 1) (before + len) (bs.drop len) with
        | .error e => .error e
        | .ok r => .ok (syms :: r)

/-- A decode of the bytes read for an entry (R321 checks 2 to 7); `table` gives the code table of a slot. -/
def decodeBlock (d : TDesc) (e : BixEntry) (table : Nat → Option CodeTable) (bs : List Byte) :
    Except DecodeFault TileData :=
  let h := ofBytes (bs.take 32)
  let nat (lo n : Nat) := ofBytes ((bs.drop lo).take n)
  let mode := bitsOf h 15 12
  let nsub := bitsOf h 83 80 + 1
  let ttag := bitsOf h 47 32
  let tslot := bitsOf h 27 24
  let nscale := bitsOf h 79 64
  let lens := (List.range nsub).map fun j => nat (32 + 4 * j) 4
  let start := 32 + 4 * nsub
  let data := start + 4 * nscale
  let len := data + lens.sum
  let ws := (List.range nscale).map fun k => BitVec.ofNat 32 (nat (start + 4 * k) 4)
  let count := if d.format.scaled then (ws.filter fun w => !scaleZb w).length * d.bs else d.elems
  if bitsOf h 7 0 != 0xC7 || bitsOf h 11 8 != 1 || decide (1 < mode) || bitsOf h 31 28 != 0 || bitsOf h 95 88 != 0
      || bitsOf h 255 160 != 0 || bitsOf h 23 16 != d.fmt || bitsOf h 63 48 + 1 != d.elems
      || bitsOf h 87 84 != (if d.bs32 then 1 else 0) || nscale != d.nscale
      || (mode == 0 && (nsub != 1 || tslot != 0 || ttag != 0)) || (mode == 1 && d.fmt == 0) || ttag != e.ttag then
    .error { cause := .decodeHeader }
  else if bitsOf h 127 96 != 8 * lens.sum || len != e.len || decide (64 * 2 ^ e.scls < len)
      || (mode == 0 && lens.sum != packedBytes d.format count) then
    .error { cause := .decodeLength }
  else if bitsOf h 159 128 != crc32c ((bs.drop start).take (len - start)) then .error { cause := .decodeCheck }
  else
    match badScale d ws with
    | some k => .error { cause := .decodeScale, k := k }
    | none =>
      if mode = 0 then
        let v := nat data lens.sum
        .ok (spread d ws ((List.range count).map fun i => bitsOf v ((i + 1) * d.format.bits - 1) (i * d.format.bits)))
      else
        match table tslot with
        | none => .error { cause := .decodeTableTag }
        | some t =>
          if t.tag != ttag then .error { cause := .decodeTableTag }
          else
            let total := if d.format.bits = 4 then count / 2 else count
            match readStreams t (d.format.bits == 16) nsub total lens 0 0 (bs.drop data) with
            | .error f => .error f
            | .ok subs =>
              let syms := (List.range total).map fun s => (subs.getD (s % nsub) []).getD (s / nsub) 0
              .ok (spread d ws (if d.format.bits = 4 then unpair syms else syms))

/-! ## Values of tiles -/

/-- The scale word of the element at a position of the row-major order. -/
def TileData.scaleAt (d : TDesc) (t : TileData) (i : Nat) : W32 := t.scales.getD (i / d.bs) 0

/-- The exact value of an element (R58). -/
def TileData.value (d : TDesc) (t : TileData) (i : Nat) : Val :=
  if d.format.scaled then blockValue d.format (t.codes.getD i 0) (t.scaleAt d i) else d.format.value (t.codes.getD i 0)

/-- Consecutive pieces of `n` elements; `fuel` bounds their number. -/
def pieces {α : Type} (n : Nat) : Nat → List α → List (List α)
  | 0, _ => []
  | fuel + 1, xs => if xs.isEmpty then [] else xs.take n :: pieces n fuel (xs.drop n)

/-- The quantised content of FP32 codes in row-major order (R290, R330, R334): codes, scale words and flags; `us` are the
draws of RSR. -/
def quantiseTile (d : TDesc) (fine : Bool) (mode : Mode) (xs us : List Nat) : TileData × W32 :=
  if d.format.scaled then
    let n := xs.length
    let rs := ((pieces d.bs n xs).zip (pieces d.bs n us)).map fun p => quantiseBlock p.1 d.format fine d.had mode p.2
    ({ codes := rs.flatMap fun r => r.1, scales := rs.map fun r => r.2.1 },
      rs.foldl (fun f r => f ||| r.2.2) 0)
  else if d.fmt = 0 then ({ codes := xs, scales := [] }, 0)
  else
    let rs := (xs.zip us).map fun p =>
      let v := Fmt.fp32.value p.1
      let r := d.format.round v false mode false p.2
      (r.1, signalFlag [v] ||| r.2)
    ({ codes := rs.map fun r => r.1, scales := [] }, rs.foldl (fun f r => f ||| r.2) 0)

/-- The quantised content of exact values in row-major order (R334): codes and scale words. -/
def quantiseExact (d : TDesc) (fine : Bool) (mode : Mode) (xs : List Val) (us : List Nat) : TileData :=
  if d.format.scaled then
    let n := xs.length
    let rs := ((pieces d.bs n xs).zip (pieces d.bs n us)).map fun p => transformVals p.1 d.format fine d.had mode p.2
    { codes := rs.flatMap fun q => q.elems.map (·.1), scales := rs.map fun q => q.scale }
  else { codes := (xs.zip us).map fun p => (d.format.round p.1 false mode false p.2).1, scales := [] }

end Sys2Proof.Machine
end

