-- ==== Sys2Proof/Machine/Home.lean ====
section
/-!
DEFINITION. The homes of words and the L1 caches (R206, R209 to R213, R219, R228, R236): reads and writes at a home, the
ownership of words, and what an L1 does on a load, a store, an acquire and an eviction.
-/

namespace Sys2Proof.Machine

open Sys2Proof

/-! ## Physical memory -/

/-- The end of local physical memory (R394). -/
def hbmEnd : Nat := 0x00B2D05E0000

/-- The home slice of a local physical address (R211). -/
def sliceOf (pa : Nat) : Nat :=
  bitsOf pa 13 7 ^^^ bitsOf pa 20 14 ^^^ bitsOf pa 27 21 ^^^ bitsOf pa 34 28 ^^^ bitsOf pa 41 35 ^^^ bitsOf pa 48 42

/-- The words that `n` bytes from an address touch. -/
def wordsOf (pa n : Nat) : List Nat :=
  (List.range ((pa % 4 + n + 3) / 4)).map fun i => wordOf pa + 4 * i

/-- A byte of a unit of poisoned memory lies in the range. -/
def State.poisoned (s : State) (pa n : Nat) : Bool :=
  s.poison.any fun u => decide (u * 64 < pa + n) && decide (pa < u * 64 + 64)

/-! ## Lines of an L1 (R209, R210) -/

/-- The words of a line with one replaced or added. -/
def putWord (ws : List L1Word) (w : L1Word) : List L1Word :=
  if ws.any (fun x => x.idx == w.idx) then ws.map fun x => if x.idx = w.idx then w else x else ws ++ [w]

/-- An L1 without one word; a line that holds no word is gone. -/
def dropWord (ls : List L1Line) (pa : Nat) : List L1Line :=
  (ls.map fun l => if l.pa = lineOf pa then { l with words := l.words.filter fun w => w.idx != pa % 128 / 4 } else l)
    |>.filter fun l => !l.words.isEmpty

/-- The bytes of an owned word that its core has written, with their addresses (R210). -/
def L1Word.written (w : L1Word) (line : Nat) : List (Nat × Byte) :=
  ((List.range 4).filter fun i => w.mask.getLsbD i).map fun i =>
    (line + w.idx * 4 + i, w.val.extractLsb' (8 * i) 8)

/-- Memory with written bytes merged. -/
def Memory.merge (m : Memory) (bs : List (Nat × Byte)) : Memory := bs.foldl (fun m b => m.set b.1 b.2) m

/-- The registration of a word ends: the owner's written bytes are merged at the home, and its copy stays Valid or becomes
Invalid (R210). -/
def State.release (s : State) (pa : Nat) (keep : Bool) : State :=
  match s.ownerOf pa with
  | none => s
  | some c =>
    let s := { s with owners := s.owners.filter fun (o : Nat × Nat) => o.1 != wordOf pa }
    match (s.core c).word? (wordOf pa) with
    | none => s
    | some w =>
      let s := { s with mem := s.mem.merge (w.written (lineOf pa)) }
      s.modCore c fun k =>
        if keep then
          { k with l1 := k.l1.map fun l =>
              if l.pa = lineOf pa then { l with words := putWord l.words { w with owned := false, mask := 0 } } else l }
        else { k with l1 := dropWord k.l1 (wordOf pa) }

/-! ## Lines of the home slices (R212) -/

/-- The set of a line in its slice: DESIGN CHOICE (log 134), physical address bits 23:14, since bits 13:7 choose the slice. -/
def l2Set (pa : Nat) : Nat := pa / 16384 % 1024

/-- The slice line to replace: the lowest priority, and the least recently used among equals. -/
def l2Victim (ls : List L2Line) : Option L2Line :=
  ls.foldl (fun v l => match v with
    | none => some l
    | some x => if l.prio ≤ x.prio then some l else some x) none

/-- A slice evicts a line: every registration on it is recalled first, with the written bytes merged (R212). -/
def State.l2Evict (s : State) (pa : Nat) : State :=
  let s := ((s.owners.map (·.1)).filter fun w => lineOf w == lineOf pa).foldl (fun s w => s.release w false) s
  { s with l2 := s.l2.filter fun l => l.pa != lineOf pa }

/-- An access at a home: its line becomes the most recently used of the slice's set of 16 ways, and is allocated, one line being
evicted when the ways are in use, unless the access allocates nothing new (CL = 10) (R212). DESIGN CHOICE (log 134): what
replaces what. -/
def State.l2Touch (s : State) (pa : Nat) (alloc : Bool) (prio : Nat) : State :=
  match s.l2.find? fun l => l.pa == lineOf pa with
  | some l => { s with l2 := l :: s.l2.filter fun x => x.pa != lineOf pa }
  | none =>
    if !alloc then s
    else
      let set := s.l2.filter fun l => sliceOf l.pa == sliceOf pa && l2Set l.pa == l2Set pa
      let s := if set.length < 16 then s
        else match l2Victim set with
          | none => s
          | some v => s.l2Evict v.pa
      { s with l2 := { pa := lineOf pa, prio := prio } :: s.l2 }

/-- The lines of a range are touched at their homes. -/
def State.l2Range (s : State) (pa n : Nat) (alloc : Bool) (prio : Nat) : State :=
  (List.range ((pa % 128 + n + 127) / 128)).foldl (fun s i => s.l2Touch (lineOf pa + 128 * i) alloc prio) s

/-- Every registration on the words of a range is recalled (R210, R212). -/
def State.recall (s : State) (pa n : Nat) : State := (wordsOf pa n).foldl (fun s w => s.release w false) s

/-- A write at the home: owners are recalled first and then the bytes are written. -/
def State.homeWrite (s : State) (pa : Nat) (bs : List Byte) : State :=
  let s := s.recall pa bs.length
  { s with mem := s.mem.setBytes pa bs }

/-- A write of an engine to a coded-pool page: the home keeps registrations, and a later write-back of an owned word
replaces these bytes (R197). -/
def State.rawWrite (s : State) (pa : Nat) (bs : List Byte) : State := { s with mem := s.mem.setBytes pa bs }

/-- Every L1 copy of the words of a range becomes Invalid (R210, R236). -/
def State.invalidateCopies (s : State) (pa n : Nat) : State :=
  { s with cores := vmapAll s.cores fun c => { c with l1 := (wordsOf pa n).foldl dropWord c.l1 } }

/-- The write of an operation that executes at the home: the owner's bytes are merged first, and every L1 copy of the word
becomes Invalid (R210, R219, R236). -/
def State.atomicWrite (s : State) (pa n v : Nat) : State :=
  let s := s.recall pa n
  let s := s.invalidateCopies pa n
  { s with mem := s.mem.setN pa n v }

/-! ## Evictions and acquires -/

/-- A line leaves an L1: its owned words are written back and released (R206, R210). -/
def State.evict (s : State) (core : Nat) (pa : Nat) : State :=
  match (s.core core).line? pa with
  | none => s
  | some l =>
    let s := l.words.foldl (fun s w => if w.owned then s.release (l.pa + w.idx * 4) false else s) s
    s.modCore core fun c => { c with l1 := c.l1.filter fun l => l.pa != lineOf pa }

/-- The set of a line (R209). -/
def setOf (pa : Nat) : Nat := pa / 128 % 64

/-- The victim of a miss (R209): the lowest priority in the set, and the least recently used among equals. -/
def victim (ls : List L1Line) : Option L1Line :=
  ls.foldl (fun v l => match v with
    | none => some l
    | some x => if l.prio ≤ x.prio then some l else some x) none

/-- The lines of a set, most recently used first. -/
def Core.setLines (c : Core) (set : Nat) : List L1Line := c.l1.filter fun l => setOf l.pa == set

/-- The lowest way of L1 that a set does not use (R204). DESIGN CHOICE (log 135): the order in which free ways are taken. -/
def Core.freeWay (c : Core) (set : Nat) : Option Nat :=
  ((List.range 40).drop c.bound).find? fun w => !(c.setLines set).any fun l => l.way == w

/-- Room for a line in its set: its way, and the state in which one line has been evicted when every way is in use (R209). -/
def State.makeRoom (s : State) (core pa : Nat) : Nat × State :=
  let c := s.core core
  match c.freeWay (setOf pa) with
  | some w => (w, s)
  | none =>
    match victim (c.setLines (setOf pa)) with
    | none => (c.bound, s)
    | some l => (l.way, s.evict core l.pa)

/-- A line becomes the most recently used. -/
def Core.touchLine (c : Core) (pa : Nat) : Core :=
  { c with l1 := (c.l1.filter fun l => l.pa == lineOf pa) ++ (c.l1.filter fun l => l.pa != lineOf pa) }

/-- A line is allocated, without words, unless it is present. -/
def State.allocate (s : State) (core pa prio : Nat) : State :=
  match (s.core core).line? pa with
  | some _ => s.modCore core fun c => c.touchLine pa
  | none =>
    let r := s.makeRoom core pa
    r.2.modCore core fun c => { c with l1 := { pa := lineOf pa, way := r.1, prio := prio, words := [] } :: c.l1 }

/-- The line is fetched from its home: every word but an Owned one, so that no load joins words of two fetches (R210, R227). -/
def State.fillLine (s : State) (core pa : Nat) : State :=
  let line := lineOf pa
  let owned : List L1Word := match (s.core core).line? pa with
    | some l => l.words.filter fun w => w.owned
    | none => []
  let new := ((List.range 32).filter fun i => !owned.any fun w => w.idx == i).map fun i =>
    ({ idx := i, owned := false, mask := 0, val := BitVec.ofNat 32 (s.homeN (line + 4 * i) 4) } : L1Word)
  s.modCore core fun c =>
    { c with l1 := c.l1.map fun l => if l.pa = line then { l with words := owned ++ new } else l }

/-- An acquire executed on a core: its Valid words become Invalid (R210). -/
def Core.acquire (c : Core) : Core :=
  let kept := c.l1.map fun l => { l with words := l.words.filter fun w => w.owned }
  { c with l1 := kept.filter fun l => !l.words.isEmpty }

/-- The state after an acquire executed on a core. -/
def State.acquire (s : State) (core : Nat) : State := s.modCore core .acquire

/-- A new boundary: every line of a way that becomes scratchpad is written back and dropped (R205, R206). -/
def State.setBound (s : State) (core n : Nat) : State :=
  let s := s.modCore core fun c => { c with bound := n }
  ((s.core core).l1.filter fun l => decide (l.way < n)).foldl (fun s l => s.evict core l.pa) s

/-! ## Loads and stores of a core (R210, R216, R217) -/

/-- The number in `n` bytes as an L1 holds them, all of whose words are present. -/
def Core.cached (c : Core) (pa n : Nat) : Nat :=
  ofBytes ((List.range n).map fun i =>
    match c.word? (wordOf (pa + i)) with
    | some w => w.val.extractLsb' (8 * ((pa + i) % 4)) 8
    | none => 0)

/-- A load of a core through its L1: the words of the line that are Invalid are fetched from their homes; a word present is
returned as it is, even when it is no longer the newest (R210, R228). -/
def State.l1Load (s : State) (core pa n prio : Nat) : Nat × State :=
  let c := s.core core
  if (wordsOf pa n).all fun w => (c.word? w).isSome then
    (c.cached pa n, s.modCore core fun c => c.touchLine pa)
  else
    let s := (s.l2Touch pa true prio).allocate core pa prio
    let s := s.fillLine core pa
    ((s.core core).cached pa n, s)

/-- The other word of an aligned unit of 8 bytes leaves an L1 that holds it Valid. -/
def Core.dropSibling (c : Core) (word : Nat) : Core :=
  let other := if word % 8 = 0 then word + 4 else word - 4
  if (c.word? other).any fun w => !w.owned then { c with l1 := dropWord c.l1 other } else c

/-- One word of a store of a core: it registers the word if it does not own it, and writes the bytes (R210). DEDUCED (log 155): a word
that is registered comes fresh from its home, so the Valid copy of the other word of its 8 bytes becomes Invalid, and no aligned load
joins the two (R227). -/
def State.l1StoreWord (s : State) (core word prio : Nat) (bs : List (Nat × Byte)) : State :=
  let s := if s.ownerOf word = some core then s
    else ((s.l2Touch word true prio).release word false).modCore core fun c => c.dropSibling word
  let s := s.allocate core word prio
  let owned := s.ownerOf word = some core
  let old : L1Word := match (s.core core).word? word with
    | some w =>
      if owned then w else { w with owned := true, mask := 0, val := BitVec.ofNat 32 (s.homeN word 4) }
    | none => { idx := word % 128 / 4, owned := true, mask := 0, val := BitVec.ofNat 32 (s.homeN word 4) }
  let new := bs.foldl (fun (w : L1Word) b =>
    if wordOf b.1 = word then
      let i := b.1 % 4
      { w with
        mask := w.mask ||| (1#4 <<< i),
        val := (w.val &&& ~~~(0xFF#32 <<< (8 * i))) ||| ((b.2.setWidth 32 : W32) <<< (8 * i)) }
    else w) old
  let s := { s with owners := if owned then s.owners else (word, core) :: s.owners }
  s.modCore core fun c =>
    { c with l1 := c.l1.map fun l => if l.pa = lineOf word then { l with words := putWord l.words new } else l }

/-- A store of a core through its L1 (R210). -/
def State.l1Store (s : State) (core pa prio : Nat) (bs : List Byte) : State :=
  let bytes := bs.zipIdx.map fun p => (pa + p.2, p.1)
  (wordsOf pa bs.length).foldl (fun s w => s.l1StoreWord core w prio bytes) s

/-- A load that reads through the home and allocates nothing (R209, R223): the core's Valid copies of the words go, so that no later
load of the core returns an older write (R227). -/
def State.throughLoad (s : State) (core pa n : Nat) : Nat × State :=
  (s.homeN pa n, s.modCore core fun c =>
    { c with l1 := ((wordsOf pa n).filter fun w => (c.word? w).any fun x => !x.owned).foldl dropWord c.l1 })

/-- A store that is written through (R189, R217): the bytes go to the home, and the core's own copies go with them. -/
def State.throughStore (s : State) (core pa : Nat) (bs : List Byte) : State :=
  let s := s.homeWrite pa bs
  s.modCore core fun c => { c with l1 := (wordsOf pa bs.length).foldl dropWord c.l1 }

/-- CLEAN and INVAL of a line (R221). -/
def State.cleanLine (s : State) (core pa : Nat) (keep : Bool) : State :=
  match (s.core core).line? pa with
  | none => s
  | some l =>
    let s := l.words.foldl (fun s w => if w.owned then s.release (l.pa + w.idx * 4) true else s) s
    if keep then s else s.modCore core fun c => { c with l1 := c.l1.filter fun l => l.pa != lineOf pa }

/-! ## Operations on a value (R237, R238) -/

/-- The operation codes of R237 on values of `w` bits. -/
def amoOp (op w old b : Nat) : Nat :=
  match op with
  | 0 => (old + b) % 2 ^ w
  | 1 => old &&& b
  | 2 => old ||| b
  | 3 => old ^^^ b
  | 4 => if signedOf w b < signedOf w old then b else old
  | 5 => if signedOf w old < signedOf w b then b else old
  | 6 => min old b
  | 7 => max old b
  | 8 => b
  | _ => (fp32Add .rne old b).1

end Sys2Proof.Machine
end

