-- ==== Sys2Proof/Machine/Xlate.lean ====
section
/-!
DEFINITION. Translation (12_page): the walk, the TLBs and walk caches, the checks of R121 and R188 in their order, and the
A and D bits.
-/

namespace Sys2Proof.Machine

open Sys2Proof

/-! ## Entries (R184) -/

/-- V, T, RD, WR, EX, PV, A, D, WT, COMP, CONT and SG of an entry. -/
def entryV (e : Nat) : Bool := e.testBit 0
def entryT (e : Nat) : Bool := e.testBit 1
def entryRD (e : Nat) : Bool := e.testBit 2
def entryWR (e : Nat) : Bool := e.testBit 3
def entryEX (e : Nat) : Bool := e.testBit 4
def entryPV (e : Nat) : Bool := e.testBit 5
def entryA (e : Nat) : Bool := e.testBit 6
def entryD (e : Nat) : Bool := e.testBit 7
def entryWT (e : Nat) : Bool := e.testBit 10
def entryCOMP (e : Nat) : Bool := e.testBit 11
def entryCONT (e : Nat) : Bool := e.testBit 14
def entrySG (e : Nat) : Bool := e.testBit 15
/-- CL, the cache attribute (R184). -/
def entryCL (e : Nat) : Nat := bitsOf e 9 8
/-- EVP, the default eviction priority (R184). -/
def entryEVP (e : Nat) : Nat := bitsOf e 13 12
/-- The physical address of an entry (R184). -/
def entryPA (e : Nat) : Nat := bitsOf e 51 16 * 2 ^ 16

/-- The physical address is fabric-remote (R187). -/
def isRemote (pa : Nat) : Bool := pa.testBit 51

/-- Who makes an access: the context whose tables it uses, its privilege, and the TLBs that serve it (R192). -/
structure Who where
  ctx : Nat
  priv : Bool
  cluster : Nat
  /-- core and quarter within it; none for engines -/
  quarter : Option (Nat × Nat)
  deriving DecidableEq, Repr

/-- A translation of an access: the physical address, bits 15:0 of the leaf, where the leaf lies, what it maps, and the
table entries the walk passed. -/
structure Trans where
  pa : Nat
  bits : Nat
  epa : Nat
  log : Nat
  tables : List (Nat × Nat)
  deriving DecidableEq, Repr

/-! ## The walk (R183 to R186) -/

/-- A table's address names memory of the device's physical map; a table lies in local memory (R185, R369, R394). -/
def tablePa (pa : Nat) : Except Cause Nat :=
  if isRemote pa || decide (hbmEnd < pa + 0x10000) then .error .pageTableFormat else .ok pa

/-- The next table that an entry points to (R185). -/
def tableOf (e : Nat) : Except Cause Nat :=
  if bitsOf e 63 52 != 0 || bitsOf e 15 2 != 0 then .error .pageTableFormat else tablePa (entryPA e)

/-- The format of a leaf (R185). -/
def leafBad (e : Nat) : Bool :=
  bitsOf e 63 52 != 0 || (entryCOMP e && entrySG e) || (entrySG e && entryCL e == 3)

/-- The group of a CONT entry is valid (R186). -/
def State.groupOk (s : State) (epa : Nat) : Bool :=
  let base := epa / 256 * 256
  let first := s.homeN base 8
  entryPA first % 0x200000 == 0 && (List.range 32).all fun i =>
    let e := s.homeN (base + 8 * i) 8
    entryV e && entryCONT e && bitsOf e 63 52 == 0 && (e % 2 ^ 16 ||| 0xC0) == (first % 2 ^ 16 ||| 0xC0)
      && entryPA e == entryPA first + i * 0x10000

/-- The physical address of a leaf, checked against the physical map (R185, R394). -/
def leafPa (pa : Nat) : Except Cause Nat :=
  if !isRemote pa && decide (hbmEnd ≤ pa) then .error .pageTableFormat else .ok pa

/-- The level-2 step of a walk (R183, R186). -/
def State.walk2 (s : State) (table va : Nat) (tables : List (Nat × Nat)) : Except Cause Trans :=
  let epa := table + 8 * bitsOf va 28 16
  let e := s.homeN epa 8
  if !entryV e then .error .notPresent
  else if entryT e || leafBad e then .error .pageTableFormat
  else if entryCONT e && !s.groupOk epa then .error .pageTableFormat
  else
    (leafPa (entryPA e + va % 2 ^ 16)).map fun pa =>
      { pa := pa, bits := e % 2 ^ 16, epa := epa, log := if entryCONT e then 21 else 16, tables := tables }

/-- The level-1 step of a walk (R183). -/
def State.walk1 (s : State) (table va : Nat) (tables : List (Nat × Nat)) : Except Cause Trans :=
  let epa := table + 8 * bitsOf va 41 29
  let e := s.homeN epa 8
  if !entryV e then .error .notPresent
  else if entryT e then (tableOf e).bind fun t => s.walk2 t va (tables ++ [(1, e)])
  else if leafBad e || entryCONT e || bitsOf e 28 16 != 0 then .error .pageTableFormat
  else
    (leafPa (entryPA e + va % 2 ^ 29)).map fun pa =>
      { pa := pa, bits := e % 2 ^ 16, epa := epa, log := 29, tables := tables }

/-- A walk from the root (R183, R185): a root of 0 makes every address not present. -/
def State.walk0 (s : State) (ctx va : Nat) : Except Cause Trans :=
  let c := s.ctx ctx
  let root := (if va.testBit 55 then c.ptroot1 else c.ptroot0).toNat
  if root = 0 then .error .notPresent
  else (tablePa root).bind fun root =>
    let e := s.homeN (root + 8 * bitsOf va 54 42) 8
    if !entryV e then .error .notPresent
    else if !entryT e then .error .pageTableFormat
    else (tableOf e).bind fun t => s.walk1 t va [(0, e)]

/-- The bits of an address that a table entry of a level serves. -/
def walkTag (level va : Nat) : Nat := if level = 0 then va / 2 ^ 42 else va / 2 ^ 29

/-- A table entry in a cluster's walk cache (R192). -/
def State.walkHit (s : State) (cluster ctx level va : Nat) : Option Nat :=
  (s.walks.find? fun w => w.cluster == cluster && w.ctx == ctx && w.level == level && w.va == walkTag level va).map
    fun w => w.entry.toNat

/-- A walk that starts at the lowest table entry the cluster's walk cache holds (R192). -/
def State.walkCached (s : State) (cluster ctx va : Nat) : Except Cause Trans :=
  match s.walkHit cluster ctx 1 va with
  | some e => (tableOf e).bind fun t => s.walk2 t va [(1, e)]
  | none =>
    match s.walkHit cluster ctx 0 va with
    | some e => (tableOf e).bind fun t => s.walk1 t va [(0, e)]
    | none => s.walk0 ctx va

/-! ## The TLBs (R192) -/

/-- The cached translation covers the address. -/
def TlbEntry.covers (t : TlbEntry) (ctx va : Nat) : Bool := t.ctx == ctx && t.va == va / 2 ^ t.log

/-- The cached translation that serves an access: of its quarter, or else of its cluster. -/
def State.tlbHit (s : State) (w : Who) (va : Nat) : Option TlbEntry :=
  let of_ (q : Option (Nat × Nat)) := s.tlb.find? fun t => t.cluster == w.cluster && t.quarter == q && t.covers w.ctx va
  match w.quarter with
  | none => of_ none
  | some q =>
    match of_ (some q) with
    | some t => some t
    | none => of_ none

/-- Two cached translations of one context meet in an address. -/
def TlbEntry.meets (t e : TlbEntry) : Bool :=
  let log := max t.log e.log
  t.ctx == e.ctx && t.va * 2 ^ t.log / 2 ^ log == e.va * 2 ^ e.log / 2 ^ log

/-- A TLB with one entry put first, in the place of those that serve an address of it, and at most `cap` entries kept (R193). -/
def tlbPut (tlb : List TlbEntry) (e : TlbEntry) (cap : Nat) : List TlbEntry :=
  let same (t : TlbEntry) : Bool := t.cluster == e.cluster && t.quarter == e.quarter
  let mine := tlb.filter fun t => same t && !t.meets e
  e :: mine.take (cap - 1) ++ tlb.filter fun t => !same t

/-- A translation enters the cluster's TLB and the quarter's, and its table entries the walk cache (R192). -/
def State.cacheTrans (s : State) (w : Who) (va : Nat) (t : Trans) : State :=
  let e (q : Option (Nat × Nat)) : TlbEntry :=
    { cluster := w.cluster, quarter := q, ctx := w.ctx, va := va / 2 ^ t.log, log := t.log,
      pa := t.pa / 2 ^ t.log * 2 ^ t.log, bits := BitVec.ofNat 16 t.bits, epa := t.epa }
  let tlb := tlbPut s.tlb (e none) 4096
  let tlb := if w.quarter.isSome then tlbPut tlb (e w.quarter) 64 else tlb
  let ws := t.tables.map fun p =>
    ({ cluster := w.cluster, ctx := w.ctx, level := p.1, va := walkTag p.1 va, entry := BitVec.ofNat 64 p.2 } : WalkEntry)
  let mine := s.walks.filter fun x => x.cluster == w.cluster && !(ws.any fun y => y.ctx == x.ctx && y.level == x.level && y.va == x.va)
  { s with tlb := tlb, walks := (ws ++ mine).take 256 ++ s.walks.filter fun x => x.cluster != w.cluster }

/-- The translation that a cached entry gives. -/
def TlbEntry.trans (t : TlbEntry) (va : Nat) : Trans :=
  { pa := t.pa + va % 2 ^ t.log, bits := t.bits.toNat, epa := t.epa, log := t.log, tables := [] }

/-! ## The checks of an access (R121, R188) -/

/-- The kinds of access of R188. -/
inductive Access where
  | load
  | store
  /-- AMO and AMOCAS -/
  | rmw
  | red
  /-- waits, SGTEST, SGREAD -/
  | sgRead
  /-- adds and SGSET -/
  | sgAdd
  | engineRead
  | engineWrite
  | fetch
  deriving DecidableEq, Repr

/-- The access needs RD (R188). -/
def Access.needsRD : Access → Bool
  | .load | .rmw | .sgRead | .engineRead => true
  | _ => false

/-- The access needs WR, and sets D (R188, R191). -/
def Access.needsWR : Access → Bool
  | .store | .rmw | .red | .sgAdd | .engineWrite => true
  | _ => false

/-- The permission checks, in the order of R121 and R85. -/
def permFault (k : Access) (priv : Bool) (bits pa : Nat) : Option Cause :=
  if k = .fetch then
    if !entryEX bits || (entryPV bits && !priv) || isRemote pa then some .fetchPermission else none
  else if k.needsRD && !entryRD bits then some .permissionRead
  else if k.needsWR && !entryWR bits then some .permissionWrite
  else if entryPV bits && !priv then some .privilegedPage
  else none

/-- The page-kind checks, after alignment (R121, R188). `window`: a RED to a window address that lies in an enabled slot
(R371). -/
def kindFault (k : Access) (bits : Nat) (window : Bool) : Option Cause :=
  match k with
  | .sgRead | .sgAdd => if entrySG bits then none else some .notSgPage
  | .store | .rmw =>
    if entryCOMP bits then some .compPageStore
    else if entrySG bits then some .sgPageMisuse
    else if entryCL bits = 3 then some .reductionWindow
    else none
  | .red =>
    if entryCOMP bits then some .compPageStore
    else if entrySG bits then some .sgPageMisuse
    else if entryCL bits = 3 && !window then some .reductionWindow
    else none
  | .engineWrite =>
    if entrySG bits then some .sgPageMisuse else if entryCL bits = 3 then some .reductionWindow else none
  | .load | .engineRead | .fetch => none

/-- The enabled window slot whose range holds a physical address (R371). -/
def State.windowSlot (s : State) (pa : Nat) : Option Nat :=
  (List.range 64).find? fun i =>
    let w := vget s.rwin i 0
    let r := (vget s.rwrng i 0).toNat
    let base := bitsOf r 51 16 * 2 ^ 16
    w.getLsbD 61 && decide (base ≤ pa) && decide (pa < base + (bitsOf r 63 52 + 1) * 2 ^ 16)

/-- All checks of one access against a translation; `align`: the address must be a multiple of it. -/
def State.accessFault (s : State) (k : Access) (priv : Bool) (va align : Nat) (t : Trans) : Option Cause :=
  match permFault k priv t.bits t.pa with
  | some c => some c
  | none => if va % align ≠ 0 then some .misaligned else kindFault k t.bits (s.windowSlot t.pa).isSome

/-- A cached translation that would set A or D no longer matches its entry in V, T or PA (R191). -/
def State.staleMark (s : State) (k : Access) (t : Trans) : Bool :=
  (!entryA t.bits || (k.needsWR && !entryD t.bits)) &&
    let e := s.homeN t.epa 8
    let offs := if t.log = 29 then 2 ^ 29 else 2 ^ 16
    !(entryV e && !entryT e && entryPA e / offs == t.pa / offs)

/-- NOT_PRESENT of an access: a fetch names it FETCH_NOT_PRESENT (R85). -/
def Access.absent (k : Access) (c : Cause) : Cause := if k = .fetch ∧ c = .notPresent then .fetchNotPresent else c

/-- The translation of one access after every check (R121, R188, R193), and the state with the TLBs it leaves. A check that
fails against a cached translation is confirmed by a fresh walk. -/
def State.translate (s : State) (w : Who) (k : Access) (va align : Nat) : Except Cause Trans × State :=
  if 2 ^ 56 ≤ va then (.error (k.absent .notPresent), s)
  else
    let judge (t : Trans) (s : State) : Except Cause Trans × State :=
      match s.accessFault k w.priv va align t with
      | some c => (.error c, s)
      | none => (.ok t, s)
    let fresh (r : Except Cause Trans) : Except Cause Trans × State :=
      match r with
      | .error c => (.error (k.absent c), s)
      | .ok t => judge t (s.cacheTrans w va t)
    match s.tlbHit w va with
    | none => fresh (s.walkCached w.cluster w.ctx va)
    | some e =>
      let t := e.trans va
      if (s.accessFault k w.priv va align t).isSome || s.staleMark k t || (!isRemote t.pa && decide (hbmEnd ≤ t.pa)) then
        fresh (s.walk0 w.ctx va)
      else (.ok t, if w.quarter.isSome then { s with tlb := tlbPut s.tlb { e with quarter := w.quarter } 64 } else s)

/-- The A bit, and the D bit of a write, set in the entry and in the cached copies that served the access (R191). -/
def State.markAD (s : State) (w : Who) (k : Access) (va : Nat) (t : Trans) : State :=
  let want := if k.needsWR then 0xC0 else 0x40
  if t.bits &&& want = want then s
  else
    let e := s.homeN t.epa 8 ||| want
    let s := s.homeWrite t.epa (toBytes 8 e)
    { s with tlb := s.tlb.map fun x =>
        if x.cluster = w.cluster ∧ x.covers w.ctx va = true ∧ (x.quarter = none ∨ x.quarter = w.quarter) then
          { x with bits := x.bits ||| BitVec.ofNat 16 want }
        else x }

/-- Where a translated access lands (R187). -/
def Trans.place (t : Trans) : Place :=
  if isRemote t.pa then .remote (bitsOf t.pa 50 45) (t.pa % 2 ^ 45) else .phys t.pa

/-- An access at a local home through a leaf touches the lines of its slices: with CL = 10 none is allocated (R189, R212). -/
def State.l2Access (s : State) (bits pa n : Nat) : State := s.l2Range pa n (entryCL bits != 2) (entryEVP bits)

/-- A translated access of `n` bytes to local memory touches the home slices; a remote page never does (R187). -/
def Trans.l2 (t : Trans) (n : Nat) (s : State) : State := if isRemote t.pa then s else s.l2Access t.bits t.pa n

/-- An access of an agent to `n` bytes: checks, then A and D. -/
def State.agentAccess (s : State) (w : Who) (k : Access) (va align n : Nat) : Except Cause Place × State :=
  match s.translate w k va align with
  | (.error c, s) => (.error c, s)
  | (.ok t, s) => (.ok t.place, t.l2 n (s.markAD w k va t))

end Sys2Proof.Machine
end

