-- ==== Sys2Proof/Machine/Remote.lean ====
section
/-!
DEFINITION. Requests to peers over the Karst ports (R366, R368, R370): how a flit leaves, who asks, and what comes of it.
-/

namespace Sys2Proof.Machine

open Sys2Proof

/-- The number that stands for a peer in contributions to a window of this device, which leave for the switches by any port. -/
def windowPeer : Nat := 64

/-- The port by which a request leaves (R240, R368). -/
def State.portOf (s : State) (peer : Nat) : Option Nat :=
  if peer = windowPeer then (List.range 18).find? fun p => (s.port p).open_ || (s.port p).holds else s.routeTo peer

/-- The physical address of a word at a peer, as this device addresses it (R187); contributions to a window of this device name local
addresses. -/
def peerPa (peer off : Nat) : Nat := if peer = windowPeer then off else 2 ^ 51 + peer * 2 ^ 45 + off

/-- The enabled window slots whose ROUND a physical address is (R371). -/
def State.roundSlots (s : State) (pa : Nat) : List Nat :=
  (List.range 64).filter fun i =>
    let w := vget s.rwin i 0
    w.getLsbD 61 && (w.extractLsb' 0 46).toNat * 64 == pa

/-- Contributions, and adds that close a window round, travel in class 2, every other request in class 0 (R365, R372). -/
def State.requestClass (s : State) (peer : Nat) (op : HomeOp) : Nat :=
  match op with
  | .sgAdd pa _ => if (s.roundSlots (peerPa peer pa)).isEmpty then 0 else 2
  | .contribution _ _ _ _ _ _ _ => 2
  | _ => 0

/-- A request is sent with a tag of its own; none when no port of the mask is up or degraded (R368). -/
def State.request (s : State) (who : Asker) (key ctx va peer : Nat) (op : HomeOp) : Option State :=
  (s.portOf peer).map fun port =>
    let o : Outstanding :=
      { tag := s.nextTag, peer := peer, port := port, op := op, who := who, key := key, ctx := ctx, va := va, entry := 0, seen := 0 }
    let s := { s with outstanding := s.outstanding ++ [o], nextTag := s.nextTag + 1 }
    s.sendOn port (s.requestClass peer op) (.request peer (s.nextTag - 1) op)

/-- A contribution lies in the range of a window slot (R371). -/
def State.inSlot (s : State) (i : Nat) (x : Partial) : Bool :=
  match x.op with
  | .contribution off _ _ _ _ _ _ => s.windowSlot (peerPa x.peer off) == some i
  | _ => false

/-- Contributions leave the egress port, in order; one that no port takes stays. -/
def State.sendPartials (s : State) (p : Partial → Bool) : State :=
  (s.partials.filter p).foldl (fun (s : State) (x : Partial) =>
    match s.request .post 0 x.ctx x.va x.peer x.op with
    | some s => { s with partials := s.partials.erase x }
    | none => s) s

/-- The contributions of the rounds that an add to a physical address closes leave before it (R372). -/
def State.closeRounds (s : State) (pa : Nat) : State :=
  let is := s.roundSlots pa
  s.sendPartials fun x => is.any fun i => s.inSlot i x

/-- The record's reason of a REMOTE_UNREACHABLE: EXTRA bits 15:8 (R368, R369). -/
def unreachable (mask : BitVec 16) (va reason : Nat) : Trap :=
  { cause := .remoteUnreachable, mask := mask, addr := va, extra := reason * 256 }

/-- A warp that waits for a response stalls. -/
def State.stallFor (s : State) (who : Asker) : State :=
  match who with
  | .warp t w => s.modWarp t w fun x => { x with stall := some .remote }
  | _ => s

/-- The answer to a request of an access in progress: it is sent once, the access waits for the response, and then uses it
(R368). -/
def Op.ask (who : Asker) (key ctx va : Nat) (mask : BitVec 16) (peer : Nat) (op : HomeOp) : Op Nat := fun s =>
  match s.answers.find? fun a => a.who == who && a.key == key with
  | some a =>
    if a.ok then .ok (a.val, s)
    else .error (.trapAt { s with answers := s.answers.erase a } (unreachable mask va a.val))
  | none =>
    if s.outstanding.any fun o => o.who == who && o.key == key then .error (.hold (s.stallFor who))
    else
      match s.request who key ctx va peer op with
      | some s' => .error (.hold (s'.stallFor who))
      | none => .error (.trapAt s (unreachable mask va 0))

/-- A store to a peer goes on its way; a release waits for its acknowledgement and reports its failure (R368, R370). -/
def State.postStore (s : State) (task warp ctx va peer : Nat) (op : HomeOp) : State :=
  match s.request (.store task warp) 0 ctx va peer op with
  | some s' => s'
  | none => s.modWarp task warp fun w => { w with failed := w.failed ++ [(va, 0)] }

/-- A response to a peer's request (R368): kept until it is acknowledged, in place of an earlier one of the tag, and sent by the port
the peer is reached by. -/
def State.respond (s : State) (peer tag : Nat) (ok : Bool) (v : Nat) : State :=
  let s := { s with served := (s.served.filter fun (x : Nat × Nat × Bool × Nat) => !(x.1 == peer && x.2.1 == tag)) ++ [(peer, tag, ok, v)] }
  match s.routeTo peer with
  | some p => s.sendOn p 1 (.response peer tag ok v)
  | none => s

/-- A release point of a warp (R226): it waits for the acknowledgements of the warp's stores to peers, and reports one that
failed (R368). DEDUCED (log 6). -/
def Op.release (c : Ctx) (mask : BitVec 16) : Op Unit := fun s =>
  match s.warp? c.task c.warp with
  | none => .error (.halt .noIssuer)
  | some w =>
    match w.failed with
    | (va, reason) :: _ =>
      .error (.trapAt (s.modWarp c.task c.warp fun w => { w with failed := [] }) (unreachable mask va reason))
    | [] =>
      if s.outstanding.any fun o => o.who == .store c.task c.warp then
        .error (.hold (s.stallFor (.warp c.task c.warp)))
      else .ok ((), s)

end Sys2Proof.Machine
end

