-- ==== Sys2Proof/Machine/HomeOps.lean ====
section
/-!
DEFINITION. The operations that execute indivisibly at the home of a word (R120 to R127, R131, R168 to R172, R219, R236 to
R238), for this device's agents and for peers.
-/

namespace Sys2Proof.Machine

open Sys2Proof

/-! ## Waiters (R123 to R127) -/

/-- The place of an entry that stands at no stalagmite: that of a wait which could not be read (R153). -/
def nowhere : Nat := 2 ^ 60

/-- The place of the note that an add has reached an address, for a wait which could not be read. -/
def heardAt (pa : Nat) : Nat := nowhere + 1 + pa

/-- The number of waiter entries of the slice that is home to an address (R124). -/
def State.waitersAt (s : State) (pa : Nat) : Nat :=
  (s.waiters.filter fun w => decide (w.pa < nowhere) && sliceOf w.pa == sliceOf pa).length

/-- A waiter is entered in its slice's table, unless all 4,096 entries are in use (R124). -/
def State.enterWaiter (s : State) (pa target : Nat) (who : Waiter) : Option State :=
  if s.waiters.any fun w => w.pa == pa && w.who == who then some s
  else if 4096 ≤ s.waitersAt pa then none
  else some { s with waiters := s.waiters ++ [{ pa := pa, target := target, who := who, woken := false }] }

/-- Every stalagmite of a warp's wait is satisfied: no entry of it waits for a wake, here or at a peer. -/
def State.allWoken (s : State) (task warp : Nat) : Bool :=
  !(s.waiters.any fun x => x.who == .warp task warp && !x.woken)
    && !(s.outstanding.any fun o => o.who == .warp task warp && opWaits o.op)

/-- A wake is sent to a waiter (R123): a warp whose last unsatisfied stalagmite it was becomes Ready when the wake is delivered; a
peer gets the value; an agent finds its entry Woken. -/
def State.sendWake (s : State) (who : Waiter) (v : Nat) : State :=
  match who with
  | .warp t w =>
    if s.allWoken t w then
      s.modWarp t w fun x => { x with wait := x.wait.map fun y => { y with woken := y.woken || y.entered } }
    else s
  | .peer p tag => s.respond p tag true v
  | .agent _ _ => s

/-- The waiters that a new value of a stalagmite satisfies are woken; an entry is free once its wake is delivered (R123, R127). -/
def State.wakeAt (s : State) (pa : Nat) : State :=
  let v := s.homeN pa 8
  let due (w : WaiterEntry) : Bool := w.pa == pa && !w.woken && decide (w.target ≤ v)
  (s.waiters.filter due).foldl (fun s w => s.sendWake w.who v)
    { s with waiters := s.waiters.map fun w => if due w then { w with woken := true } else w }

/-- An add reaches an address: each wait that could not be read is told of it (R153). -/
def State.addHeard (s : State) (pa : Nat) : State :=
  let lost := s.waiters.filter fun w => w.pa == nowhere && !s.waiters.any fun x => x.who == w.who && x.pa == heardAt pa
  if lost.isEmpty then s
  else { s with waiters := s.waiters ++ lost.map fun w => { w with pa := heardAt pa, woken := true } }

/-! ## Stalagmites -/

/-- A refusal of an add at the home (R122) among the values that operations answer. -/
def refused : Nat := 2 ^ 64

/-- An add at the home (R122): the old value, or a refusal. -/
def State.sgAddAt (s : State) (pa amt : Nat) : Nat × State :=
  let old := s.homeN pa 8
  if 2 ^ 64 ≤ old + amt then (refused, s)
  else
    let s := s.atomicWrite pa 8 (old + amt)
    (old, (if amt = 0 then s else s.wakeAt pa).addHeard pa)

/-- SGSET at the home (R131): 1 when it was applied, 0 when a waiter entry names the stalagmite. -/
def State.sgSetAt (s : State) (pa v : Nat) : Nat × State :=
  if s.waiters.any fun w => w.pa == pa then (0, s) else (1, s.atomicWrite pa 8 v)

/-! ## Barriers (R168 to R172) -/

/-- A barrier object at its home (R168). -/
structure Barrier where
  arrive : Nat
  phase : Nat
  obs : BitVec 32
  wcnt : Nat
  high : Nat
  reg : BitVec 32
  expect : Nat
  deriving DecidableEq, Repr

/-- The fields of the 32 bytes of an object (R168). -/
def Barrier.ofBits (v : Nat) : Barrier :=
  { arrive := bitsOf v 63 0, phase := bitsOf v 127 64, obs := BitVec.ofNat 32 (bitsOf v 159 128), wcnt := bitsOf v 167 160,
    high := bitsOf v 191 168, reg := BitVec.ofNat 32 (bitsOf v 223 192), expect := bitsOf v 255 224 }

/-- The object at an address (R168). -/
def State.barrier (s : State) (pa : Nat) : Barrier := .ofBits (s.homeN pa 32)

/-- The bits set in a mask. -/
def popcount32 (m : BitVec 32) : Nat := ((List.range 32).filter fun i => m.getLsbD i).length

/-- The invariants of R169. -/
def Barrier.ok (b : Barrier) : Bool :=
  b.expect != 0 && decide (b.expect * b.phase ≤ b.arrive) && decide (b.arrive < b.expect * (b.phase + 1))
    && (b.obs &&& ~~~b.reg) == 0 && b.wcnt == popcount32 b.reg && b.high == 0

/-- The object is Owed (R170). -/
def Barrier.owed (b : Barrier) : Bool := (b.reg &&& ~~~b.obs) != 0

/-- The object written back at its home. -/
def State.putBarrier (s : State) (pa : Nat) (b : Barrier) : State :=
  let s := s.atomicWrite pa 8 b.arrive
  let s := s.atomicWrite (pa + 8) 8 b.phase
  let s := s.atomicWrite (pa + 16) 8 (b.obs.toNat + b.wcnt % 256 * 2 ^ 32 + b.high * 2 ^ 40)
  s.atomicWrite (pa + 24) 8 (b.reg.toNat + b.expect * 2 ^ 32)

/-- An arrival (R170). -/
def Barrier.arrival (b : Barrier) : Barrier :=
  if b.arrive + 1 = b.expect * (b.phase + 1) then { b with arrive := b.arrive + 1, phase := b.phase + 1, obs := 0 }
  else { b with arrive := b.arrive + 1 }

/-- Answers of the barrier operations beside values: the object breaks an invariant, the target overruns, an add to ARRIVE or PHASE is
refused (R122, R169, R172). -/
def stateFault : Nat := 2 ^ 65
def overrunFault : Nat := 2 ^ 66
def overflowFault : Nat := 2 ^ 67

/-- BJOIN at the home: the index, or a refusal (R172). -/
def State.bjoinAt (s : State) (pa : Nat) : Nat × State :=
  let b := s.barrier pa
  if !b.ok then (stateFault, s)
  else
    match (List.range 32).find? fun i => !b.reg.getLsbD i with
    | none => (refused, s)
    | some r =>
      (r, s.putBarrier pa { b with reg := b.reg ||| (1#32 <<< r), obs := b.obs ||| (1#32 <<< r), wcnt := b.wcnt + 1 })

/-- BLEAVE of an index at the home (R172). -/
def State.bleaveAt (s : State) (pa r : Nat) : Nat × State :=
  let b := s.barrier pa
  if !b.ok || decide (31 < r) || !b.reg.getLsbD r then (stateFault, s)
  else
    (0, s.putBarrier pa { b with reg := b.reg &&& ~~~(1#32 <<< r), obs := b.obs &&& ~~~(1#32 <<< r), wcnt := b.wcnt - 1 })

/-- BARRIVE at the home: the wait target, or a refusal (R172); an add that R122 refuses changes nothing. -/
def State.barriveAt (s : State) (pa : Nat) : Nat × State :=
  let b := s.barrier pa
  if !b.ok then (stateFault, s)
  else if b.owed then (refused, s)
  else if 2 ^ 64 ≤ b.arrival.arrive ∨ 2 ^ 64 ≤ b.arrival.phase then (overflowFault, s)
  else
    let s := s.putBarrier pa b.arrival
    (b.phase + 1, (s.wakeAt pa).wakeAt (pa + 8))

/-- What a BWAIT sees at the home (R172): 1 when it is satisfied, with its observation made; 0 while it must wait. -/
def State.bwaitAt (s : State) (pa target : Nat) (r : Option Nat) : Nat × State :=
  let b := s.barrier pa
  if !b.ok then (stateFault, s)
  else
    match r with
    | none => (if target ≤ b.phase then 1 else 0, s)
    | some i =>
      if 31 < i ∨ b.reg.getLsbD i = false then (stateFault, s)
      else if b.phase + 1 < target then (overrunFault, s)
      else if target ≤ b.phase then
        (1, if target = b.phase then s.putBarrier pa { b with obs := b.obs ||| (1#32 <<< i) } else s)
      else (0, s)

/-! ## An operation at its home -/

/-- A merged contribution applied to local memory at its home (R240, R372). -/
def State.contribute (s : State) (pa size op v : Nat) : State :=
  if pa + size ≤ hbmEnd ∧ (size = 4 ∨ size = 8) ∧ pa % size = 0 then
    s.atomicWrite pa size (amoOp op (8 * size) (s.homeN pa size) v)
  else s

/-- An operation executed at its home: its answer. A value of 2^(8 size) or more of a load or atomic says that the memory is
poisoned. A store of the debug space wakes the waiters that its value satisfies (R378). A wait is answered with the value; one not satisfied enters a waiter, or is refused with 2^64 added (R123, R124). -/
def State.homeExec (s : State) (op : HomeOp) (who : Waiter) : Nat × State :=
  match op with
  | .load pa n => (if s.poisoned pa n then 2 ^ (8 * n) else s.homeN pa n, s)
  | .store pa n v => (0, (s.homeWrite pa (toBytes n v)).wakeAt (pa / 8 * 8))
  | .stbm pa n m v =>
    let old := s.homeN pa n
    (0, s.atomicWrite pa n ((old &&& (2 ^ (8 * n) - 1 - m)) ||| (v &&& m)))
  | .amo pa n o v =>
    if s.poisoned pa n then (2 ^ (8 * n), s)
    else
      let old := s.homeN pa n
      (old, s.atomicWrite pa n (amoOp o (8 * n) old v))
  | .cas pa n cmp new =>
    if s.poisoned pa n then (2 ^ (8 * n), s)
    else
      let old := s.homeN pa n
      (old, s.atomicWrite pa n (if old = cmp then new else old))
  | .sgAdd pa amt => s.sgAddAt pa amt
  | .sgSet pa v => s.sgSetAt pa v
  | .sgWait pa t =>
    let v := s.homeN pa 8
    if t ≤ v then (v, s)
    else match s.enterWaiter pa t who with
      | some s => (v, s)
      | none => (2 ^ 64 + v, s)
  | .bjoin pa => s.bjoinAt pa
  | .bleave pa r => s.bleaveAt pa r
  | .barrive pa => s.barriveAt pa
  | .bwait pa t r => s.bwaitAt pa t r
  | .contribution pa n o _ v _ _ => (0, s.contribute pa n o v)

end Sys2Proof.Machine
end

