-- ==== Sys2Proof/Machine/Encoding.lean ====
section
/-!
DEFINITION. The encoding checks of R25 to R31: what an instruction does with each field of its word, and the one fault
that a word breaking several rules raises.
-/

namespace Sys2Proof.Machine

open Sys2Proof

/-- What an instruction does with a selector field (R25, R26). -/
inductive Use where
  /-- the field is not read and must hold 0xC8 -/
  | none
  /-- a source operand; `imm`: 0xD0 is admitted -/
  | src (w : Width) (imm : Bool)
  /-- a target or link operand: a g pair, an s register or a latch (R88) -/
  | target
  /-- a source that must be a g register -/
  | gSrc (w : Width)
  /-- a source that must be an s register -/
  | sSrc (w : Width)
  /-- a source that is an s register or 0xC8 -/
  | sSrcOpt (w : Width)
  /-- a destination -/
  | dst (w : Width)
  /-- a destination that must be a g register -/
  | gDst (w : Width)
  /-- a destination that is an s register or 0xC8 -/
  | sDst (w : Width)
  /-- a literal or predicate field, whose values the instruction checks itself -/
  | lit
  /-- a selector that MCALL supplies (R83) -/
  | supplied
  deriving DecidableEq, Repr

/-- The values of U an instruction admits (R86). -/
inductive UMode where
  | zero
  | one
  | either
  /-- with U = 1, thread values are reduced into an s register (R28, R95) -/
  | mixed
  deriving DecidableEq, Repr

/-- What an instruction makes of its word: the inputs of the checks of R31 items 3 to 9. -/
structure Enc where
  /-- lowest profile of the opcode (R40) -/
  prof : Nat
  /-- privileged (R42) -/
  priv : Bool := false
  /-- type codes that the word holds: TYPE and the source type (R43) -/
  types : List Nat := []
  /-- lowest profile of a literal A FMT (R43) -/
  fmtProf : Nat := 0
  umode : UMode := .either
  /-- PR must be 0x7 (R86) -/
  prAlways : Bool := false
  d : Use := .none
  a : Use := .none
  b : Use := .none
  c : Use := .none
  /-- a result of at most 64 bits, which goes to a latch (R30) -/
  result : Bool := false
  /-- another condition of RESERVED_FIELD holds -/
  reserved : Bool := false
  /-- another condition of ILLEGAL_SELECTOR holds -/
  illegal : Bool := false
  /-- a type code that the instruction does not accept (R45) -/
  typeBad : Bool := false
  /-- how many g registers D and A name from the selector up (R288) -/
  dSpan : Nat := 1
  aSpan : Nat := 1
  deriving DecidableEq, Repr

/-- What the checks take from the warp: its allocation, profile and privilege, and whether a macro runs. -/
structure Env where
  regs : Nat
  prof : Nat
  priv : Bool
  inMacro : Bool
  deriving DecidableEq, Repr

/-- The lowest profile of a type code; none for a code absent from R44. -/
def typeProfile (ty : Nat) : Option Nat :=
  if ty ≤ 8 then some 1
  else if ty = 0x10 ∨ ty = 0x11 ∨ ty = 0x12 ∨ ty = 0x20 ∨ ty = 0x21 ∨ ty = 0x22 then some 1
  else if ty = 0x23 ∨ ty = 0x24 ∨ ty = 0x27 then some 2
  else if ty = 0x25 ∨ ty = 0x26 ∨ ty = 0x28 then some 3
  else none

/-- The selector names m0 to m3. -/
def isM (n : Nat) : Bool := decide (0xE0 ≤ n) && decide (n ≤ 0xE3)

/-- A g register of a width lies in the allocation and is aligned (R26). -/
def gOk (regs : Nat) (w : Width) (n : Nat) : Bool :=
  decide (n < regs) &&
    match w with
    | .w32 => true
    | .w64 => n % 2 == 0
    | .w128 => n % 4 == 0

/-- An s register of a width is aligned (R27). -/
def sOk (w : Width) (n : Nat) : Bool :=
  match w with
  | .w128 => n % 2 == 0
  | _ => true

/-- A source of the threads, which R28 forbids a uniform instruction to name: a legal g register, tid or lane. Where an s register
is asked for it is left to UNIFORM_MISUSE. -/
def threadSrc (regs : Nat) (w : Width) (n : Nat) : Bool := (decide (n < 0x80) && gOk regs w n) || n == 0xC9 || n == 0xCA

/-- The selector is legal in its use (R26); m0 to m3 are judged by `Enc.macroBad`. DESIGN CHOICE (log 127): where a description asks
for an s register, any other selector but those of `threadSrc` raises ILLEGAL_SELECTOR; where it asks for a g register (the D of ACCRD
and TLD, the A of ACCWR and TST) an s register does; and a latch or a special selector does as a 128-bit source. -/
def selectorOk (regs : Nat) (u : Use) (sel : Selector) : Bool :=
  let n := sel.toNat
  let g := decide (n < 0x80)
  let s := decide (0x80 ≤ n) && decide (n < 0xC0)
  let k := decide (0xC0 ≤ n) && decide (n < 0xC4)
  match u with
  | .none | .lit => true
  | .src w imm =>
    if g then gOk regs w n
    else if s then sOk w n
    else if n = 0xC8 then true
    else if isM n then true
    else if w = .w128 then false
    else if k then true
    else if decide (0xC9 ≤ n) && decide (n ≤ 0xCD) then true
    else imm && n == 0xD0
  | .target => if g then gOk regs .w64 n else s || k || isM n
  | .gSrc w | .gDst w => if g then gOk regs w n else isM n
  | .sSrc w => (s && sOk w n) || isM n || threadSrc regs w n
  | .sSrcOpt w => (s && sOk w n) || n == 0xC8 || isM n || threadSrc regs w n
  | .dst w => if g then gOk regs w n else if s then sOk w n else n == 0xC8 || isM n
  | .sDst w => (s && sOk w n) || (g && gOk regs w n) || n == 0xC8 || isM n
  | .supplied => g || s || k || (decide (0xC8 ≤ n) && decide (n ≤ 0xCD)) || n == 0xD0

/-- The field reads a selector. -/
def Use.isSrc : Use → Bool
  | .src _ _ | .target | .gSrc _ | .sSrc _ | .sSrcOpt _ => true
  | _ => false

/-- The field names a destination. -/
def Use.isDst : Use → Bool
  | .dst _ | .gDst _ | .sDst _ => true
  | _ => false

/-- The source selectors of a word in their uses. -/
def Enc.sources (x : Enc) (h : Head) : List (Use × Selector) :=
  [(x.a, h.a), (x.b, h.b), (x.c, h.c)].filter fun p => p.1.isSrc

/-- RESERVED_FIELD (R25, R30, R86). -/
def Enc.reservedBad (x : Enc) (h : Head) : Bool :=
  x.reserved
  || (x.umode == .zero && h.u) || (x.umode == .one && !h.u)
  || (x.prAlways && h.pr != 7)
  || (!x.result && (h.lt != 0 || h.ws))
  || (x.result && h.ws && h.d != 0xC8)
  || (x.d == .none && h.d != 0xC8) || (x.a == .none && h.a != 0xC8)
  || (x.b == .none && h.b != 0xC8) || (x.c == .none && h.c != 0xC8)

/-- ILLEGAL_SELECTOR (R26, R88). DESIGN CHOICE (log 128): the selectors that an MCALL supplies are not counted together for a second
0xD0; each body slot counts its own. -/
def Enc.selectorBad (x : Enc) (e : Env) (h : Head) : Bool :=
  x.illegal
  || (x.d.isDst && decide (h.d.toNat < 0x80) && decide (e.regs < h.d.toNat + x.dSpan))
  || (x.a.isSrc && decide (h.a.toNat < 0x80) && decide (e.regs < h.a.toNat + x.aSpan))
  || !selectorOk e.regs x.d h.d || !selectorOk e.regs x.a h.a
  || !selectorOk e.regs x.b h.b || !selectorOk e.regs x.c h.c
  || decide (1 < ((x.sources h).filter fun p => p.2 == 0xD0).length)

/-- MACRO_PARAM (R26): m0 to m3 outside a macro. -/
def Enc.macroBad (x : Enc) (e : Env) (h : Head) : Bool :=
  !e.inMacro && ((x.d.isDst && isM h.d.toNat) || (x.sources h).any fun p => isM p.2.toNat)

/-- UNIFORM_MISUSE (R28, R95). DESIGN CHOICE (log 129): a mixed form with U = 1 whose D is 0xC8 names no s register and raises it too. -/
def Enc.uniformBad (x : Enc) (h : Head) : Bool :=
  let isG (s : Selector) := decide (s.toNat < 0x80)
  let isS (s : Selector) := decide (0x80 ≤ s.toNat) && decide (s.toNat < 0xC0)
  if !h.u then x.d.isDst && isS h.d
  else
    (x.d.isDst && isG h.d)
    || (x.umode == .mixed && !isS h.d)
    || (x.umode != .mixed && (x.sources h).any fun p => isG p.2 || p.2 == 0xC9 || p.2 == 0xCA)

/-- The one fault that the checks of R31 items 3 to 9 raise, the first that applies. -/
def Enc.fault (x : Enc) (e : Env) (h : Head) : Option Cause :=
  if decide (e.prof < x.prof) || decide (e.prof < x.fmtProf)
      || x.types.any (fun t => match typeProfile t with
        | some p => decide (e.prof < p)
        | none => false) then some .profile
  else if x.priv && !e.priv then some .privileged
  else if x.reservedBad h then some .reservedField
  else if x.selectorBad e h then some .illegalSelector
  else if x.macroBad e h then some .macroParam
  else if x.uniformBad h then some .uniformMisuse
  else if x.typeBad then some .typeInvalid
  else none

/-- The latches a word reads (R81). -/
def Enc.latches (x : Enc) (h : Head) : List Nat :=
  (x.sources h).filterMap fun p =>
    if 0xC0 ≤ p.2.toNat ∧ p.2.toNat < 0xC4 then some (p.2.toNat - 0xC0) else none

/-- A selector of a macro body replaced by the one that MCALL supplies (R26, R83). -/
def substSel (m : Option MacroPos) (s : Selector) : Selector :=
  match m with
  | none => s
  | some p =>
    if s = 0xE0 then p.m0 else if s = 0xE1 then p.m1 else if s = 0xE2 then p.m2 else if s = 0xE3 then p.m3 else s

/-- The selectors of a word after macro substitution, in the fields that hold selectors (R83). -/
def Enc.subst (x : Enc) (m : Option MacroPos) (h : Head) : Head :=
  { h with
    d := if x.d.isDst then substSel m h.d else h.d,
    a := if x.a.isSrc then substSel m h.a else h.a,
    b := if x.b.isSrc then substSel m h.b else h.b,
    c := if x.c.isSrc then substSel m h.c else h.c }

/-- How an instruction stands to the region rules and the PC (R77). -/
inductive Flow where
  /-- goes on to next(PC) -/
  | straight
  /-- a blocking wait, which a committed region must not execute -/
  | wait
  /-- a boundary: it ends the region, so the length rule does not bind it. DESIGN CHOICE (log 149): EXIT is one -/
  | boundary
  /-- sets the PCs itself, and makes the checks of R77 itself after those of R21 -/
  | transfer
  /-- an end of a body of a sump loop (YIELD, PDONE, CEND): it sets the PCs itself and counts as the next RGN (R251) -/
  | body
  /-- a blocking wait that sets the PCs itself (WSYNC) -/
  | sync
  /-- an MCALL: the PCs stay, and its body slots are counted in its place (R77, R83) -/
  | enter
  deriving DecidableEq, Repr

/-- The participants whose committed region leaves no room for another instruction, or for this one (R77). -/
def Warp.regionBad (w : Warp) (flow : Flow) (ts : List Tid) : List Tid :=
  ts.filter fun t =>
    let r := (w.thread t).region
    r.inside && r.committed &&
      match flow with
      | .straight | .transfer => decide (64 ≤ r.count)
      | .wait | .sync => true
      | .boundary | .enter | .body => false

/-- The lowest watched address that the accesses of an instruction touch, with the threads that touch it (R380). -/
def watchHit (core : Core) (ctx : Nat) (touched : List (Nat × Bool × Nat × Nat)) : Option (Nat × BitVec 16) :=
  let hits := (List.range 4).flatMap fun n =>
    let a := vget core.dbg.wpa n 0
    let l := vget core.dbg.wpl n 0
    let lo := (a.extractLsb' 0 56).toNat
    let len := (l.extractLsb' 0 32).toNat
    let kind := (l.extractLsb' 32 2).toNat
    if a.getLsbD 63 && (a.extractLsb' 56 6).toNat == ctx then
      touched.filterMap fun x =>
        let first := max lo x.2.2.1
        if (if x.2.1 then kind.testBit 1 else kind.testBit 0)
            && decide (first < lo + len) && decide (first < x.2.2.1 + x.2.2.2) then some (first, x.1) else none
    else []
  match hits with
  | [] => none
  | h :: t =>
    let m := t.foldl (fun m x => min m x.1) h.1
    some (m, (hits.foldl (fun k x => k ||| (1#16 <<< x.2)) 0))

/-- The debug cause that an instruction of a warp has raised once it has taken effect: the lowest cause code (R380). -/
def debugCause (core : Core) (ctx : Nat) (wid : Nat) (pc : W64) (inMacro : Bool)
    (touched : List (Nat × Bool × Nat × Nat)) : Option (Cause × Nat × Option (BitVec 16)) :=
  let bp := !inMacro && (List.range 8).any fun n =>
    let h := vget core.dbg.hbp n 0
    h.getLsbD 63 && (h.extractLsb' 56 6).toNat == ctx && h.extractLsb' 0 56 == pc.extractLsb' 0 56
  if bp then some (.hwBreakpoint, 0, none)
  else
    match watchHit core ctx touched with
    | some (a, m) => some (.watchpoint, a, some m)
    | none =>
      let step := if wid < 64 then core.dbg.step0.getLsbD wid else core.dbg.step1.getLsbD (wid - 64)
      if !inMacro && step then some (.singleStep, 0, none) else none

/-- The threads whose regions an instruction binds: all of the active set when U = 1 (R76). -/
def Ctx.executing (c : Ctx) : List Tid := if c.u then (if c.parts.isEmpty then [] else c.active) else c.parts

/-- What follows an instruction that has taken effect: the counts of R77 (those of a thread-by-thread instruction have been made
thread by thread), the PC or the macro slot, and the issued-instruction counter. -/
def settle (c : Ctx) (flow : Flow) (before : Warp) (s : State) : State :=
  let s := { s with answers := s.answers.filter fun (a : Answer) => a.who != Asker.warp c.task c.warp }
  s.modWarp c.task c.warp fun w =>
    let w := if flow = .enter ∨ flow = .body then w else w.countRegion before (c.executing.filter fun t => !w.done.getLsbD t.val)
    let w := { w with done := 0, wait := none, stall := w.stall.filter (· == .sumpSwitch), stalled := 0, issued := min (w.issued + 1) (2 ^ 48 - 1) }
    if c.mslot.isSome then w.nextSlot
    else if flow = .transfer ∨ flow = .enter ∨ flow = .sync ∨ flow = .body then w
    else w.modThreads c.active fun th => { th with pc := nextPc th.pc }

/-- The debug cause of an instruction that has taken effect is taken (R380). -/
def debugCheck (c : Ctx) (s : State) : State :=
  match s.warp? c.task c.warp with
  | none => s
  | some w =>
    let s := s.modWarp c.task c.warp fun w => { w with touched := [] }
    match debugCause (s.core c.core) c.ctx c.wid c.pc w.mac.isSome w.touched with
    | none => s
    | some (cause, a, m) =>
      if w.st ≠ .suspended ∧ w.st ≠ .done then
        s.takeFault c.task c.warp c.pc
          { cause := cause, mask := m.getD (maskOf c.active), addr := a, slot := if cause = .watchpoint then c.mslot else none }
      else s

/-- The end of an instruction that has taken effect. -/
def retire (c : Ctx) (flow : Flow) (before : Warp) (s : State) : State := debugCheck c (settle c flow before s)

/-- What an instruction word finds when its warp issues it: who issues, the warp, the word after macro substitution, and
what the word makes of its fields. -/
structure View where
  c : Ctx
  w : Warp
  h : Head
  e : Enc
  deriving DecidableEq, Repr

/-- The value of PR for one predicate file (R29): the predicate named, negated by bit 3. -/
def prHolds (p : BitVec 8) (pr : BitVec 4) : Bool := xor (predOf p (pr.toNat % 8)) (pr.getLsbD 3)

/-- The threads that a word runs for (R29, R69, R129): of the active set those whose predicate holds and that the done mask
does not name; with U = 1 all or none. -/
def Warp.participants (w : Warp) (h : Head) : List Tid :=
  if h.u then (if prHolds w.q h.pr then w.activeSet else [])
  else w.activeSet.filter fun i => !w.done.getLsbD i.val && prHolds (w.thread i).p h.pr

/-- The view of a word that the issuing warp runs; none when no resident warp issues. -/
def issueView (x : Head → Enc) (h0 : Head) (imm : W32) (s : State) : Option View :=
  s.issuer.bind fun r =>
  (s.task? r.task).bind fun t =>
  (t.warps[r.warp]?).map fun w =>
    let h := (x h0).subst w.mac h0
    let cx := s.ctx t.ctx
    { c := { task := r.task, warp := r.warp, core := t.core.getD 0, ctx := t.ctx, kid := t.kid, lane := w.lane,
             wid := w.id, index := BitVec.ofNat 32 t.index, regs := t.regs, prof := cx.prof, priv := s.privCtx t.ctx,
             fpte := cx.fpte, u := h.u, active := w.activeSet, parts := w.participants h, pc := (w.lowestPc).getD 0,
             imm := imm, mslot := w.mac.map (·.slot) },
      w := w, h := h, e := x h }

/-- The threads whose latches a word examines (R28, R81): of a mixed form every thread that takes part (R95). -/
def View.readers (v : View) : List Tid := if v.e.umode = .mixed then v.c.executing else v.c.units

/-- The readers of a word one of whose source latches is in a state. -/
def View.latchIn (v : View) (st : LatchState) : List Tid :=
  v.readers.filter fun i => (v.e.latches v.h).any fun k => (vget (v.w.thread i).k k .cleared).st == st

/-- What stops a word before its own effect: a check of R31, a Lost or Cleared latch (R80, R81), or a region rule (R77);
the state after it, or none when the word goes on to its effect. DESIGN CHOICE (log 28): a replay and LATCH_MISUSE come after the
checks of items 2 to 9 of R31 and before those of item 10. -/
def View.early (v : View) (flow : Flow) (s : State) : Option State :=
  let fault (x : Trap) := some (s.takeFault v.c.task v.c.warp v.c.pc x)
  match v.e.fault { regs := v.c.regs, prof := v.c.prof, priv := v.c.priv, inMacro := v.w.mac.isSome } v.h with
  | some cause => fault { cause := cause, mask := maskOf v.c.active }
  | none =>
    if !(v.latchIn .lost).isEmpty then
      some (s.modWarp v.c.task v.c.warp fun w => w.replay v.c.active (v.e.latches v.h))
    else if !(v.latchIn .cleared).isEmpty then
      fault { cause := .latchMisuse, mask := maskOf (v.latchIn .cleared) }
    else
      let long := if flow = .transfer then [] else v.w.regionBad flow v.c.executing
      if !long.isEmpty then fault { cause := .regionLength, mask := maskOf long } else none

/-- How an instruction ends once its effect has run. -/
def View.finish (v : View) (flow : Flow) (s : State) : Except Stop (Unit × State) → Out
  | .ok (_, s') => .next (retire v.c flow v.w s')
  | .error (.trap y) => faultOut s v.c.task v.c.warp v.c.pc y
  | .error (.trapAt s' y) => faultOut s' v.c.task v.c.warp v.c.pc y
  | .error (.after s' y) =>
    faultOut ((settle v.c flow v.w s').modWarp v.c.task v.c.warp fun w => { w with touched := [] })
      v.c.task v.c.warp v.c.pc y
  | .error (.hold s') => .next s'
  | .error (.halt f) => .fault f

/-- THE ISSUE OF AN INSTRUCTION for its warp (R31, R69): the checks that stop it before any effect, its own effect `body`,
and what follows. The registers that no warp writes stay (R368, R369, R371, R390). -/
def issue (x : Head → Enc) (h0 : Head) (imm : W32) (flow : Flow) (body : Ctx → Head → Op Unit) (s : State) : Out :=
  match issueView x h0 imm s with
  | none => .fault .noIssuer
  | some v =>
    s.keeping (match v.early flow s with
      | some s' => .next s'
      | none => v.finish flow s (body v.c v.h s))

/-- The issue of a K-format word. -/
def issueK (x : KWord → Enc) (w : KWord) (flow : Flow) (body : Ctx → KWord → Op Unit) (s : State) : Out :=
  issue (fun h => x { w with h := h }) w.h w.imm flow (fun c h => body c { w with h := h }) s

/-- The issue of an E-format word. -/
def issueE (x : EWord → Enc) (w : EWord) (flow : Flow) (body : Ctx → EWord → Op Unit) (s : State) : Out :=
  issue (fun h => x { w with h := h }) w.h w.imm flow (fun c h => body c { w with h := h }) s

/-- The issue of an M-format word; 0xD0 is never a source of one (R214, R237). -/
def issueM (x : MWord → Enc) (w : MWord) (flow : Flow) (body : Ctx → MWord → Op Unit) (s : State) : Out :=
  issue (fun h => x { w with h := h }) w.h 0 flow (fun c h => body c { w with h := h }) s

/-- The issue of a J-format word. -/
def issueJ (x : JWord → Enc) (w : JWord) (flow : Flow) (body : Ctx → JWord → Op Unit) (s : State) : Out :=
  issue (fun h => x { w with h := h }) w.h 0 flow (fun c h => body c { w with h := h }) s

/-- The issue of a T-format word. -/
def issueT (x : TWord → Enc) (w : TWord) (flow : Flow) (body : Ctx → TWord → Op Unit) (s : State) : Out :=
  issue (fun h => x { w with h := h }) w.h 0 flow (fun c h => body c { w with h := h }) s

/-- IMM32 of a word of which no source is 0xD0 and which gives it no other use must be zero (R25). -/
def immUnused (h : Head) (imm : W32) : Bool := h.a != 0xD0 && h.b != 0xD0 && h.c != 0xD0 && imm != 0

end Sys2Proof.Machine
end

