-- ==== Sys2Proof/Machine/Flags.lean ====
section
/-!
DEFINITION. FLAGS and FP_TRAP (R56, R57, R98): what an instruction raises, and the shared run of the instructions that
compute from the values a thread holds.
-/

namespace Sys2Proof.Machine

open Sys2Proof

/-- What an instruction gives one thread, or the warp when U = 1: its result, the predicate it writes, the flags it raises
and the stochastic state it leaves. -/
structure AluOut where
  val : Option W64 := none
  /-- a second 64-bit half, for a 128-bit result -/
  high : Option W64 := none
  pred : List (Nat × Bool) := []
  flags : W32 := 0
  seed : Option W32 := none
  deriving DecidableEq, Repr

/-- The result of one unit written (R28 to R30). -/
def applyOut (c : Ctx) (h : Head) (wd : Width) (w : Warp) (x : Tid × AluOut) : Warp :=
  let w := match x.2.val, x.2.high with
    | some v, some hi => putWide c h.d w x.1 v hi
    | some v, none => putResult c h wd w x.1 v
    | none, _ => w
  let w := x.2.pred.foldl (fun w p => putPred c p.1 w x.1 p.2) w
  match x.2.seed with
  | some s => w.modThread x.1 fun th => { th with seed := s }
  | none => w

/-- The flags that the units raise together (R56). -/
def raisedFlags (outs : List (Tid × AluOut)) : W32 := outs.foldl (fun f x => f ||| x.2.flags) 0

/-- Flags ORed into FLAGS (R56). -/
def Warp.orFlags (w : Warp) (f : W32) : Warp := { w with flags := w.flags ||| f }

/-- The units that raise a flag as the mask of a record: R57 names the threads that raised the raised flags, all of which the record
carries (DEDUCED, log 4). -/
def raisers (c : Ctx) (outs : List (Tid × AluOut)) : BitVec 16 :=
  outs.foldl (fun m x => if x.2.flags = 0 then m else m ||| c.maskAt x.1) 0

/-- FP_TRAP (R57): a raised flag whose FPTE bit is set stops the instruction before any write, with the flags set in FLAGS;
otherwise they are set and the instruction goes on. -/
def raise (c : Ctx) (flags : W32) (mask : BitVec 16) : Op Unit := fun s =>
  let s' := if flags = 0 then s else s.modWarp c.task c.warp fun w => w.orFlags flags
  if flags &&& c.fpte = 0 then .ok ((), s')
  else .error (.trapAt s' { cause := .fpTrap, mask := mask, extra := flags.toNat })

/-- The warp after the results of an instruction are written. -/
def applyAll (c : Ctx) (h : Head) (wd : Width) (outs : List (Tid × AluOut)) (w : Warp) : Warp :=
  outs.foldl (applyOut c h wd) w

/-- The run of an instruction that computes from values held (R98): every unit's result is formed from the warp as it stands
at the start, a trap comes before any write, and then the results are written. -/
def aluRun (c : Ctx) (h : Head) (wd : Width) (f : Warp → Tid → AluOut) : Op Unit := do
  let w ← Op.warp c
  let outs := c.units.map fun t => (t, f w t)
  raise c (raisedFlags outs) (raisers c outs)
  Op.modWarp c (applyAll c h wd outs)

end Sys2Proof.Machine
end

