-- ==== Sys2Proof/Machine/Operands.lean ====
section
/-!
DEFINITION. The operand forms: the typed operands of the K format (R44 to R46, R96, R97), the predicate fields of R102, and
the memory operand of the M format (R215).
-/

namespace Sys2Proof

/-! ## The modifier bits of the K format (R46) -/

/-- The TYPE code. -/
def KWord.tyN (w : KWord) : Nat := w.ty.toNat
/-- MOD[60:58], the rounding mode field. -/
def KWord.mode (w : KWord) : Nat := (w.md.extractLsb' 0 3).toNat
/-- MOD[61], .sat. -/
def KWord.sat (w : KWord) : Bool := w.md.getLsbD 3
/-- MOD[63:62]. -/
def KWord.hi (w : KWord) : Nat := (w.md.extractLsb' 4 2).toNat

end Sys2Proof

namespace Sys2Proof.Machine

open Sys2Proof

/-! ## Types -/

/-- An integer type: its width and whether it is signed (R44). -/
structure IntTy where
  w : Nat
  signed : Bool
  deriving DecidableEq, Repr

/-- The integer type of a type code (R44). -/
def intTy (ty : Nat) : IntTy :=
  match ty with
  | 1 => ⟨8, true⟩
  | 2 => ⟨16, true⟩
  | 3 => ⟨32, true⟩
  | 4 => ⟨64, true⟩
  | 5 => ⟨8, false⟩
  | 6 => ⟨16, false⟩
  | 8 => ⟨64, false⟩
  | _ => ⟨32, false⟩

/-- A floating-point or packed type: its element format and how many elements (R44). -/
structure ElemTy where
  f : Fmt
  n : Nat
  deriving DecidableEq, Repr

/-- The element type of a type code (R44). -/
def elemTy (ty : Nat) : ElemTy :=
  match ty with
  | 0x11 => ⟨.fp16, 1⟩
  | 0x12 => ⟨.bf16, 1⟩
  | 0x20 => ⟨.fp32, 2⟩
  | 0x21 => ⟨.fp16, 4⟩
  | 0x22 => ⟨.bf16, 4⟩
  | 0x23 => ⟨.e4m3, 8⟩
  | 0x24 => ⟨.e5m2, 8⟩
  | 0x25 => ⟨.e2m1, 16⟩
  | 0x26 => ⟨.dps8, 8⟩
  | 0x27 => ⟨.int8, 8⟩
  | 0x28 => ⟨.int4, 16⟩
  | _ => ⟨.fp32, 1⟩

/-- A packed type code. -/
def isPacked (ty : Nat) : Bool := decide (0x20 ≤ ty) && decide (ty ≤ 0x28)

/-- The operand width that a type code gives (R96). -/
def tyWidth (ty : Nat) : Width := if ty = 4 ∨ ty = 8 ∨ isPacked ty = true then .w64 else .w32

/-- The eight integer types (R101). -/
def tyInt : List Nat := [1, 2, 3, 4, 5, 6, 7, 8]
/-- The signed integer types. -/
def tySigned : List Nat := [1, 2, 3, 4]
/-- .n32 and .n64. -/
def tyN : List Nat := [7, 8]
/-- F of R107. -/
def tyF : List Nat := [0x10, 0x11, 0x12]
/-- P of R107. -/
def tyP : List Nat := [0x10, 0x11, 0x12, 0x20, 0x21, 0x22]

/-! ## Operands -/

/-- The value of an operand selector, with 0xD0 as R97 gives it for a 64-bit type. -/
def operand (c : Ctx) (w : Warp) (t : Tid) (wd : Width) (signed : Bool) (sel : Selector) : W64 :=
  if wd = .w64 ∧ sel = 0xD0 ∧ signed = true then c.imm.signExtend 64 else readSel c w t wd sel

/-- An operand of an integer type as an integer (R96). -/
def intOperand (c : Ctx) (w : Warp) (t : Tid) (ty : IntTy) (sel : Selector) : Int :=
  let v := (operand c w t (if ty.w = 64 then .w64 else .w32) ty.signed sel).toNat % 2 ^ ty.w
  if ty.signed then signedOf ty.w v else v

/-- A result of an integer type as the bits of a register (R96): wrapped to the type, extended to 32 bits by its sign. -/
def intResult (ty : IntTy) (v : Int) : W64 :=
  let u := wrapTo ty.w v
  if ty.w < 32 ∧ ty.signed = true then BitVec.ofNat 64 (wrapTo 32 (signedOf ty.w u)) else BitVec.ofNat 64 u

/-- The range of an integer type. -/
def IntTy.range (ty : IntTy) : Int × Int :=
  if ty.signed then (-(2 ^ (ty.w - 1) : Nat), (2 ^ (ty.w - 1) : Nat) - 1) else (0, (2 ^ ty.w : Nat) - 1)

/-- A value clamped to the range of a type, with the flags of .sat (R101). -/
def IntTy.clamp (ty : IntTy) (v : Int) : Int × W32 :=
  let r := ty.range
  if v < r.1 then (r.1, flagOF ||| flagNX) else if r.2 < v then (r.2, flagOF ||| flagNX) else (v, 0)

/-- The elements of an operand of a floating-point or packed type (R48, R96). -/
def elements (ty : ElemTy) (v : W64) : List Nat :=
  (List.range ty.n).map fun i => bitsOf v.toNat ((i + 1) * ty.f.bits - 1) (i * ty.f.bits)

/-- Elements joined, element 0 lowest (R48). -/
def joinElements (bits : Nat) (xs : List Nat) : Nat := xs.foldr (fun x acc => x + 2 ^ bits * acc) 0

/-- The elements of an operand selector of a floating-point or packed type. -/
def floatOperand (c : Ctx) (w : Warp) (t : Tid) (ty : ElemTy) (sel : Selector) : List Nat :=
  elements ty (readSel c w t (if ty.n = 1 then .w32 else .w64) sel)

/-! ## Encodings of the K format -/

/-- The checks of an arithmetic word (R96, R97): its types, the sources it reads, the modifier bits it admits. -/
def aluEnc (types : List Nat) (mdOk : Bool) (na nb nc : Bool) (w : KWord) : Enc :=
  let wd := tyWidth w.tyN
  let src (r : Bool) : Use := if r then .src wd (!isPacked w.tyN) else .none
  { prof := 1, types := [w.tyN], d := .dst wd, a := src na, b := src nb, c := src nc, result := true,
    reserved := !mdOk || immUnused w.h w.imm
      || ((w.tyN == 0x11 || w.tyN == 0x12) && w.imm.extractLsb' 16 16 != 0),
    typeBad := !types.contains w.tyN }

/-- The value of a predicate for a unit: p of the thread, or q when U = 1 (R102). -/
def readPred (c : Ctx) (w : Warp) (t : Tid) (i : Nat) : Bool := if c.u then predOf w.q i else predOf (w.thread t).p i

/-- A predicate written for index 0 to 6; 7 writes none (R102). -/
def predAt (i : Nat) (b : Bool) : List (Nat × Bool) := if i = 7 then [] else [(i, b)]

/-- The predicate index of a C field (R102). -/
def cIndex (k : KWord) : Nat := k.h.c.toNat % 8

/-- RESERVED_FIELD of an E-format word: X[63:62], and the fields that the instruction fixes (R24, R25). -/
def eBad (w : EWord) (piOk subOk selOk immOk : Bool) : Bool := w.z != 0 || !(piOk && subOk && selOk && immOk)

/-- PI names no predicate (R24). -/
def noPi (w : EWord) : Bool := w.pi == 7

/-- An E-format word that uses none of PI, SUB and SEL6; `immOk` judges IMM32. -/
def ePlain (w : EWord) (immOk : Bool) : Bool := eBad w (noPi w) (w.sub == 0) (w.sel == 0) immOk

/-! ## The memory operand (R215) -/

/-- Bytes of an access by the SIZE code (R24). -/
def sizeBytes (size : Nat) : Nat :=
  match size with
  | 0 | 8 => 1
  | 1 | 9 => 2
  | 2 => 4
  | 3 => 8
  | _ => 16

end Sys2Proof.Machine
end

