-- ==== Sys2Proof/Machine/Access.lean ====
section
/-!
DEFINITION. The memory accesses of a warp (13_memory): where an effective address leads, the checks that come before any
participant performs, and reading and writing in the four spaces.
-/

namespace Sys2Proof.Machine

open Sys2Proof

/-- Where an access of a participant lands, with the translation of a global access. -/
structure Target where
  place : Place
  trans : Option Trans
  deriving DecidableEq, Repr

/-- The leaf bits of a target; none outside global memory. -/
def Target.bits (t : Target) : Nat := match t.trans with
  | some x => x.bits
  | none => 0

/-- The issuing warp as the maker of an access (R192). -/
def Ctx.who (c : Ctx) : Who :=
  { ctx := c.ctx, priv := c.priv, cluster := clusterOf c.core, quarter := some (c.core, c.lane / 8) }

/-- A byte of a vault lies inside an extent held by a task of the context (R202). -/
def State.vaultHeld (s : State) (ctx a : Nat) : Bool :=
  s.tasks.any fun t => t.ctx == ctx && match t.vault with
    | some (id, off, len) =>
      let lo := id * 2 ^ 24 + off
      decide (lo ≤ a) && decide (a < lo + len * 65536)
    | none => false

/-- A vault access is legal (R202). -/
def State.vaultOk (s : State) (ctx ea size : Nat) : Bool :=
  decide (ea < 2 ^ 30) && decide (ea / 2 ^ 24 ≤ 47) && s.vaultHeld ctx ea && s.vaultHeld ctx (ea + size - 1)

/-- The checks of one effective address (R200 to R203, R215). -/
def State.target (s : State) (w : Who) (spad space : Nat) (k : Access) (ea size align : Nat) :
    Except Cause Target × State :=
  let aligned (r : Except Cause Target) : Except Cause Target × State :=
    (match r with
      | .error c => .error c
      | .ok t => if ea % align = 0 then .ok t else .error .misaligned, s)
  match space with
  | 0 =>
    match s.translate w k ea align with
    | (.error c, s) => (.error c, s)
    | (.ok t, s) => (.ok { place := t.place, trans := some t }, s)
  | 1 =>
    aligned (if ea + size ≤ spad * 8192 then .ok { place := .scratch ea, trans := none } else .error .scratchRange)
  | 2 => aligned (if s.vaultOk w.ctx ea size then .ok { place := .vault ea, trans := none } else .error .vaultRange)
  | _ =>
    if k = .rmw ∨ k = .red then (.error .atomicUnsupported, s)
    else if s.debugSlot = some w.ctx then aligned (.ok { place := .debug ea, trans := none })
    else (.error .debugSpace, s)

/-- A participant with its effective address and target. -/
structure Aimed where
  tid : Tid
  ea : Nat
  target : Target
  deriving DecidableEq, Repr

/-- The fault of an instruction some of whose participants fail: the cause and address of the lowest, and the mask of those
that fail with that cause (R188, R215). -/
def failTrap (c : Ctx) (rs : List (Tid × Nat × Cause)) : Option Trap :=
  match rs with
  | [] => none
  | (_, ea, cause) :: _ =>
    some { cause := cause, addr := ea,
           mask := (rs.filter fun r => r.2.2 == cause).foldl (fun m r => m ||| c.maskAt r.1) 0 }

/-- The checks of all participants before any of them performs, then the A and D bits (R188, R191, R215). -/
def Op.aim (c : Ctx) (space : Nat) (k : Access) (size align : Nat) (eas : List (Tid × Nat)) : Op (List Aimed) := do
  let task ← Op.task c
  let s ← Op.state
  let r := eas.foldl (fun (acc : List Aimed × List (Tid × Nat × Cause) × State) x =>
    match acc.2.2.target c.who task.spad space k x.2 size align with
    | (.ok t, s) => (acc.1 ++ [{ tid := x.1, ea := x.2, target := t }], acc.2.1, s)
    | (.error e, s) => (acc.1, acc.2.1 ++ [(x.1, x.2, e)], s)) (([], [], s) : List Aimed × List (Tid × Nat × Cause) × State)
  match failTrap c r.2.1 with
  | some t => Op.stop (.trap { t with cached := some (r.2.2.tlb, r.2.2.walks) })
  | none =>
    Op.put (r.1.foldl (fun s a => match a.target.trans with
      | some t => s.markAD c.who k a.ea t
      | none => s) r.2.2)
    return r.1

/-- The effective address of a participant (R215). -/
def effAddr (c : Ctx) (w : Warp) (t : Tid) (a b : Selector) (scale : Nat) (off : W32) : Nat :=
  let idx : W64 := ((read64 c w t b).extractLsb' 0 32).signExtend 64
  (read64 c w t a + idx * BitVec.ofNat 64 scale + off.signExtend 64).toNat

/-- The bytes of a task's scratchpad are written (R207). -/
def Task.setScratch (t : Task) (off : Nat) (bs : List Byte) : Task := { t with scratch := t.scratch.setBytes off bs }

/-- The line of a place for R218: a space code and a line number; none for the debug space. -/
def Place.line : Place → Option (Nat × Nat)
  | .phys pa => some (0, pa / 128)
  | .remote p o => some (0, (2 ^ 51 + p * 2 ^ 45 + o) / 128)
  | .scratch o => some (1, o / 128)
  | .vault a => some (2, a / 128)
  | .debug _ => none

/-- A load of a region records its line (R218). -/
def Region.record (r : Region) (line : Nat × Nat) : Region :=
  if !r.inside || r.lines.contains line then r
  else if r.lines.length < 16 then { r with lines := r.lines ++ [line] }
  else { r with many := true }

/-- A store of a region commits it when it may name a line loaded earlier (R76, R218). -/
def Region.stored (r : Region) (line : Nat × Nat) : Region :=
  if r.many || r.lines.contains line then r.commit else r

/-- The threads that an access at a unit counts for: the active set when U = 1. -/
def Ctx.threadsAt (c : Ctx) (t : Tid) : List Tid := if c.u then c.active else [t]

/-- The regions of the threads that load from a place. -/
def Op.noteLoad (c : Ctx) (t : Tid) (p : Place) : Op Unit :=
  match p.line with
  | none => pure ()
  | some l => Op.modWarp c fun w => w.modThreads (c.threadsAt t) fun th => { th with region := th.region.record l }

/-- The regions of the threads that store to a place: one that has touched too many lines commits at every store (R218). -/
def Op.noteStore (c : Ctx) (t : Tid) (p : Place) : Op Unit :=
  Op.modWarp c fun w => w.modThreads (c.threadsAt t) fun th =>
    { th with region := match p.line with
      | some l => th.region.stored l
      | none => if th.region.many then th.region.commit else th.region }

/-- A CORE-path global access of a unit is noted for the watchpoints (R380). DEDUCED (log 151): it is a read where the access needs RD,
and a write where it needs WR. -/
def Op.noteRange (c : Ctx) (t : Tid) (write : Bool) (va n : Nat) : Op Unit :=
  Op.modWarp c fun w => { w with touched := w.touched ++ (c.threadsAt t).map fun t => (t.val, write, va, n) }

/-- The access of an aimed unit is noted for the watchpoints (R380). -/
def Op.noteTouch (c : Ctx) (a : Aimed) (write : Bool) (n : Nat) : Op Unit :=
  match a.target.trans with
  | none => pure ()
  | some _ => Op.noteRange c a.tid write a.ea n

/-- The instruction's asker and the place of a unit in its access order. -/
def Ctx.asker (c : Ctx) : Asker := .warp c.task c.warp

/-- DATA_POISON of the participants whose bytes lie in poisoned memory; A and D stay set (R191). -/
def Op.poisonCheck (c : Ctx) (n : Nat) (as : List Aimed) : Op Unit := do
  let s ← Op.state
  let bad := as.filterMap fun a => match a.target.place with
    | .phys pa => if s.poisoned pa n then some (a.tid, a.ea, Cause.dataPoison) else none
    | _ => none
  match failTrap c bad with
  | some t => Op.trapHere t
  | none => pure ()

/-- Loads and stores of a global target go through L1 (R189, R209). -/
def Target.cacheable (t : Target) : Bool :=
  entryCL t.bits == 0 && !entryWT t.bits && !entrySG t.bits && !entryCOMP t.bits

/-- The priority that a line gets at its allocation (R209, R223). -/
def linePrio (bits hint : Nat) : Nat := if hint = 1 then 3 else if hint = 2 then 0 else entryEVP bits

/-- The value of a remote load, or DATA_POISON (R368). -/
def Op.remoteLoad (c : Ctx) (a : Aimed) (key peer off n : Nat) : Op Nat := do
  let v ← Op.ask c.asker key c.ctx a.ea (c.maskAt a.tid) peer (.load off n)
  if 2 ^ (8 * n) ≤ v then
    Op.trapHere { cause := .dataPoison, mask := c.maskAt a.tid, addr := a.ea }
  return v

/-- The bytes of a load as a number (R216, R223); the debug space is read elsewhere. -/
def Op.loadAt (c : Ctx) (a : Aimed) (key n hint : Nat) : Op Nat := do
  match a.target.place with
  | .phys pa =>
    let s ← Op.state
    if a.target.cacheable && hint != 3 then
      let r := s.l1Load c.core pa n (linePrio a.target.bits hint)
      Op.put r.2
      return r.1
    else
      let r := (s.l2Access a.target.bits pa n).throughLoad c.core pa n
      Op.put r.2
      return r.1
  | .remote p o => Op.remoteLoad c a key p o n
  | .scratch o =>
    let t ← Op.task c
    return t.scratch.getN o n
  | .vault v =>
    let s ← Op.state
    return s.vault.getN v n
  | .debug _ => return 0

/-- The bytes of a store written (R217, R223); the debug space is written elsewhere. -/
def Op.storeAt (c : Ctx) (a : Aimed) (n hint v : Nat) : Op Unit := do
  match a.target.place with
  | .phys pa => Op.modify fun s =>
    if a.target.cacheable && hint != 3 then s.l1Store c.core pa (linePrio a.target.bits hint) (toBytes n v)
    else (s.l2Access a.target.bits pa n).throughStore c.core pa (toBytes n v)
  | .remote p o => Op.modify fun s => s.postStore c.task c.warp c.ctx a.ea p (.store o n v)
  | .scratch o => Op.modify fun s => s.modTask c.task fun t => t.setScratch o (toBytes n v)
  | .vault x => Op.modify fun s => { s with vault := s.vault.setN x n v }
  | .debug _ => pure ()

/-- An operation on a word at its home (R219, R236): the old value, with DATA_POISON of a poisoned word. -/
def Op.homeAt (c : Ctx) (a : Aimed) (key n : Nat) (op : Nat → HomeOp) (f : Nat → Nat) (reads : Bool) : Op Nat := do
  match a.target.place with
  | .phys pa =>
    let s ← Op.state
    if reads && s.poisoned pa n then
      Op.trapHere { cause := .dataPoison, mask := c.maskAt a.tid, addr := a.ea }
    let r := (s.l2Access a.target.bits pa n).homeExec (op pa) (.warp c.task c.warp)
    Op.put r.2
    return r.1
  | .remote p o =>
    let v ← Op.ask c.asker key c.ctx a.ea (c.maskAt a.tid) p (op o)
    if reads && decide (2 ^ (8 * n) ≤ v) then
      Op.trapHere { cause := .dataPoison, mask := c.maskAt a.tid, addr := a.ea }
    return v
  | .scratch o =>
    let t ← Op.task c
    let old := t.scratch.getN o n
    Op.modify fun s => s.modTask c.task fun t => t.setScratch o (toBytes n (f old))
    return old
  | .vault x =>
    let s ← Op.state
    let old := s.vault.getN x n
    Op.put { s with vault := s.vault.setN x n (f old) }
    return old
  | .debug _ => return 0

/-- The acquire of an instruction: the Valid words of the core's L1 become Invalid (R210). -/
def Op.acquire (c : Ctx) : Op Unit := Op.modify fun s => s.acquire c.core

/-- One unit of a thread-by-thread instruction has been applied (R129), which began in the state `b`: its threads have executed the
instruction (R77) and join the done mask. -/
def State.applied (s : State) (c : Ctx) (b : State) (t : Tid) : State :=
  s.modWarp c.task c.warp fun w =>
    { w.countRegion ((b.warp? c.task c.warp).getD w) (tidsOf (c.maskAt t)) with done := w.done ||| c.maskAt t }

/-- The fault in which an operation ended. -/
def Stop.fault : Stop → Option Trap
  | .trap x | .trapAt _ x => some x
  | _ => none

/-- A fault joined by those of other units that have the same cause (R354). -/
def Trap.joined {α : Type} (x : Trap) : List (Except Stop α) → Trap
  | [] => x
  | .error e :: r => Trap.joined (match e.fault with
    | some y => if y.cause = x.cause then { x with mask := x.mask ||| y.mask } else x
    | none => x) r
  | .ok _ :: r => Trap.joined x r

/-- A thread-by-thread instruction (R129) for its units in turn: `check` makes a thread's own checks, `act` its effect. A fault
leaves what the lower threads have done, and the record names every remaining thread that fails alike (R354; DEDUCED, log 7). -/
def Op.eachFrom {α : Type} (c : Ctx) (check : Tid → Op α) (act : Tid → α → Op Unit) : List Tid → Op Unit
  | [] => pure ()
  | t :: ts => fun s =>
    let run (u : Tid) : Op Unit := do
      let b ← Op.state
      act u (← check u)
      Op.modify fun s => s.applied c b u
    match run t s with
    | .ok (_, s) => Op.eachFrom c check act ts s
    | .error (.trap x) => .error (.trapAt s (x.joined (ts.map fun u => run u s)))
    | .error (.trapAt s' x) => .error (.trapAt s' (x.joined (ts.map fun u => run u s)))
    | .error e => .error e

/-- A thread-by-thread instruction for all its units (R129). -/
def Op.each {α : Type} (c : Ctx) (check : Tid → Op α) (act : Tid → α → Op Unit) : Op Unit :=
  Op.eachFrom c check act c.units

/-- The checks of all units before any has an effect (R121, R215): the lowest that fails gives the cause, and the record names
every unit that fails alike. -/
def Op.gatherFrom {α : Type} (check : Tid → Op α) : List Tid → Op (List (Tid × α))
  | [] => pure []
  | t :: ts => fun s =>
    match check t s with
    | .ok (a, s) => (do let r ← Op.gatherFrom check ts; return (t, a) :: r : Op (List (Tid × α))) s
    | .error (.trap x) => .error (.trap (x.joined (ts.map fun u => check u s)))
    | .error (.trapAt s' x) => .error (.trapAt s' (x.joined (ts.map fun u => check u s)))
    | .error e => .error e

/-- The checks of all units of an instruction. -/
def Op.gather {α : Type} (c : Ctx) (check : Tid → Op α) : Op (List (Tid × α)) := Op.gatherFrom check c.units

/-- A fault of a unit joined to that of a lower one (R354). -/
def Trap.after (y : Trap) : Option Trap → Trap
  | none => y
  | some x => if y.cause = x.cause then { x with mask := x.mask ||| y.mask } else x

/-- A read of every unit: all ask before the instruction waits for an answer; once every answer is there, the lowest unit that fails
decides, and the record names every unit that fails alike (R354). -/
def Op.togetherFrom {α β : Type} (f : Tid → β → Op α) (vs : List (Tid × α)) (x : Option Trap) (held : Bool) :
    List (Tid × β) → Op (List (Tid × α))
  | [] => fun s => if held then .error (.hold s) else match x with
    | some x => .error (.trapAt s x)
    | none => .ok (vs, s)
  | a :: as => fun s => match f a.1 a.2 s with
    | .ok (v, s) => Op.togetherFrom f (vs ++ [(a.1, v)]) x held as s
    | .error (.hold s) => Op.togetherFrom f vs x true as s
    | .error e => match e.fault with
      | some y => Op.togetherFrom f vs (some (y.after x)) held as s
      | none => .error e

/-- A read of every aimed unit. -/
def Op.together {α β : Type} (as : List (Tid × β)) (f : Tid → β → Op α) : Op (List (Tid × α)) :=
  Op.togetherFrom f [] none false as

/-- A value that an instruction takes at its issue, and uses again while it waits: it stands among the warp's answers. -/
def Op.latched (c : Ctx) (key : Nat) (read : Op Nat) : Op Nat := fun s =>
  match s.answers.find? fun a => a.who == c.asker && a.key == key with
  | some a => .ok (a.val, s)
  | none => match read s with
    | .ok (v, s) => .ok (v, { s with answers := s.answers ++ [{ who := c.asker, key := key, ok := true, val := v, peer := 0, op := none }] })
    | .error e => .error e

/-- The checks of one unit's access. -/
def Op.aimOne (c : Ctx) (space : Nat) (k : Access) (size align : Nat) (t : Tid) (ea : Nat) : Op Aimed := do
  let as ← Op.aim c space k size align [(t, ea)]
  match as with
  | a :: _ => return a
  | [] => Op.trap .notPresent (c.maskAt t) ea

/-- A fault of one thread alone, after the effects of the lower threads (R129). -/
def Op.failAt {α : Type} (c : Ctx) (t : Tid) (cause : Cause) (ea extra : Nat := 0) : Op α :=
  Op.trapHere { cause := cause, mask := c.maskAt t, addr := ea, extra := extra }

/-- The place of a unit's requests in the access order of its instruction: 8 keys for each. -/
def Ctx.key (_c : Ctx) (t : Tid) (n : Nat) : Nat := t.val * 8 + n

end Sys2Proof.Machine
end

