-- ==== Sys2Proof/Machine/Fetch.lean ====
section
/-!
DEFINITION. Instruction fetch (R17 to R22, R84, R85, R224, R225): the instruction cache, the checks of a line, the checks of
a transfer's target, and the live-in records that regions begin with (R38).
-/

namespace Sys2Proof.Machine

open Sys2Proof

/-! ## Lines -/

/-- The address of the 256-byte cache line of a PC (R84). -/
def codeLine (pc : Nat) : Nat := pc / 256 * 256

/-- A PC stands on a slot (R17). -/
def onSlot (pc : Nat) : Bool := pc % 64 % 12 == 0 && decide (pc % 64 ≤ 48)

/-- The slot of a PC in its fetch line (R17). -/
def slotOf (pc : Nat) : Nat := pc % 64 / 12

/-- The bytes of a cache line as read at their home (R84), by offset in the line. -/
def State.codeBytes (s : State) (pa : Nat) : Memory :=
  Memory.setBytes [] 0 (s.homeBytes (codeLine pa) 256)

/-- The instruction word at a PC in a cache line. -/
def wordAt (line : Memory) (pc : Nat) : Nat := line.getN (pc % 256) 12

/-- The line word of the fetch line of a PC (R19). -/
def lineWordAt (line : Memory) (pc : Nat) : Nat := line.getN (pc % 256 / 64 * 64 + 60) 4

/-- The parity of the low `n` bits of a number. -/
def parity (n v : Nat) : Bool := (List.range n).foldl (fun p i => xor p (v.testBit i)) false

/-- LWP and the SPAR bit of the slot match (R19, R20). -/
def parityOk (line : Memory) (pc : Nat) : Bool :=
  let lw := lineWordAt line pc
  (lw.testBit 29 == parity 29 lw) && (lw.testBit (24 + slotOf pc) == parity 96 (wordAt line pc))

/-- VER and the reserved bits of a line word (R20). -/
def lineWordBad (lw : Nat) : Bool := bitsOf lw 31 30 != 0 || bitsOf lw 23 9 != 0

/-- TGT bit of the slot of a PC (R19). -/
def tgtBit (line : Memory) (pc : Nat) : Bool := (lineWordAt line pc).testBit (slotOf pc)

/-- A line that carries the words of its five slots with right parity (R19); a helper for tests and for `withFetchWord`. -/
def makeLineWord (slots : List Nat) (tgt : Nat) : Nat :=
  let spar := (slots.zipIdx.map fun p => if parity 96 p.1 then 2 ^ (24 + p.2) else 0).sum
  let v := tgt + spar
  v + if parity 29 v then 2 ^ 29 else 0

/-! ## The instruction cache (R84, R224) -/

/-- The set of a cache line: PC bits 13:8 (R84). -/
def codeSet (va : Nat) : Nat := va / 256 % 64

/-- The line of the instruction cache for a translated PC. -/
def Core.iline? (c : Core) (ctx pc pa : Nat) : Option ILine :=
  c.icache.find? fun l => l.ctx == ctx && l.va == codeLine pc && l.pa == codeLine pa

/-- A filled line becomes the most recently used of its set of four ways (R84, R224). -/
def Core.putILine (c : Core) (l : ILine) : Core :=
  let same (x : ILine) : Bool := x.ctx == l.ctx && x.va == l.va
  let rest := c.icache.filter fun x => !same x
  let set := rest.filter fun x => codeSet x.va == codeSet l.va
  { c with icache := l :: (set.take 3 ++ rest.filter fun x => codeSet x.va != codeSet l.va) }

/-- The copy of a PC's line is discarded (R20). -/
def Core.dropILine (c : Core) (ctx pc : Nat) : Core :=
  { c with icache := c.icache.filter fun x => !(x.ctx == ctx && x.va == codeLine pc) }

/-- A line becomes the most recently used of its set. -/
def Core.touchILine (c : Core) (l : ILine) : Core := c.putILine l

/-- What a fetch of the slot at a PC gives. -/
inductive Fetched where
  | word (w : InstrWord)
  | fault (c : Cause)
  /-- a fill is outstanding: the warp stalls -/
  | miss
  deriving DecidableEq, Repr

/-- The checks of R20 of a line read, with the one refetch that a parity mismatch makes; a refetch from poisoned memory is
IFETCH_POISON (R85) and allocates nothing (R224). -/
def State.checkLine (s : State) (core ctx pc pa : Nat) (l : ILine) : Fetched × State :=
  let judge (b : Memory) : Fetched :=
    if lineWordBad (lineWordAt b pc) then .fault .lineWordReserved else .word (BitVec.ofNat 96 (wordAt b pc))
  if parityOk l.bytes pc then (judge l.bytes, s.modCore core fun c => c.touchILine l)
  else if s.poisoned (codeLine pa) 256 then (.fault .ifetchPoison, s.modCore core fun c => c.dropILine ctx pc)
  else
    let new : ILine := { ctx := ctx, va := codeLine pc, pa := codeLine pa, bytes := s.codeBytes pa }
    if parityOk new.bytes pc then (judge new.bytes, s.modCore core fun c => c.putILine new)
    else
      (.fault .fetchParity, s.modCore core fun c => c.dropILine ctx pc)

/-- A fill of a line cannot be asked for: one for it is outstanding, or eight are (R224). -/
def Core.fillBusy (c : Core) (ctx line : Nat) : Bool :=
  c.fills.any (fun f => f.ctx == ctx && f.va == line) || decide (8 ≤ c.fills.length)

/-- A fill is asked for at its home unless one for the line is outstanding or eight are (R224). -/
def State.askFill (s : State) (core ctx pc : Nat) (t : Trans) : State :=
  if (s.core core).fillBusy ctx (codeLine pc) then s
  else (s.l2Access t.bits (codeLine t.pa) 256).modCore core fun c =>
    { c with fills := c.fills ++ [{ ctx := ctx, va := codeLine pc, pa := codeLine t.pa }] }

/-- The 64 bytes of a fetch line at its place in the bytes of a cache line. -/
def fetchLineAt (line : List Byte) (pc : Nat) : Memory := Memory.setBytes [] (pc % 256 / 64 * 64) line

/-- The slot of a buffered fetch line (R163), unless its parity mismatches (R20). -/
def bufferedSlot (line : List Byte) (pc : Nat) : Option Fetched :=
  let b := fetchLineAt line pc
  if line.isEmpty || !parityOk b pc then none
  else some (if lineWordBad (lineWordAt b pc) then .fault .lineWordReserved else .word (BitVec.ofNat 96 (wordAt b pc)))

/-- The fetch of the slot about to issue (R20, R85, R224); `line`: the fetch line of the slot where the launch buffer holds it
(R163). -/
def State.fetch (s : State) (w : Who) (core pc : Nat) (line : List Byte := []) : Fetched × State :=
  match s.translate w .fetch pc 1 with
  | (.error c, s) => (.fault c, s)
  | (.ok t, s) =>
    let s := s.markAD w .fetch pc t
    match bufferedSlot line pc with
    | some f => (f, s)
    | none =>
      match (s.core core).iline? w.ctx pc t.pa with
      | some l => s.checkLine core w.ctx pc t.pa l
      | none =>
        if s.poisoned (codeLine t.pa) 256 then (.fault .ifetchPoison, s)
        else (.miss, s.askFill core w.ctx pc t)

/-! ## Transfer targets (R21) -/

/-- What a fetch of a transfer's target line gives: its bytes, or the fault of row 2 of R21. A line that the cache holds is
used; another is read through the FETCH path. -/
def State.targetLine (s : State) (w : Who) (core pc : Nat) : Except Cause Memory × State :=
  match s.translate w .fetch pc 1 with
  | (.error c, s) => (.error c, s)
  | (.ok t, s) =>
    let s := s.markAD w .fetch pc t
    let fresh (_ : Unit) : Except Cause Memory × State :=
      if s.poisoned (codeLine t.pa) 256 then (.error .ifetchPoison, s)
      else
        let b := s.codeBytes t.pa
        (if parityOk b pc then .ok b else .error .fetchParity, s.l2Access t.bits (codeLine t.pa) 256)
    match (s.core core).iline? w.ctx pc t.pa with
    | some l => if parityOk l.bytes pc then (.ok l.bytes, s) else fresh ()
    | none => fresh ()

/-- The checks of one target of a transfer, in the order of R21: the cause, or the line. `ret`: a RET. -/
def State.checkTarget (s : State) (w : Who) (core : Nat) (ret : Bool) (pc : Nat) : Except Cause Memory × State :=
  if 2 ^ 56 ≤ pc ∨ onSlot pc = false then (.error (if ret then .returnTarget else .misalignedPc), s)
  else
    match s.targetLine w core pc with
    | (.error c, s) => (.error c, s)
    | (.ok b, s) =>
      (if tgtBit b pc then .ok b else .error (if ret then .returnTarget else .branchTarget), s)

/-- A J-format target is always on a slot (R21); one that leads past the address space has no fetch line. -/
def State.checkJTarget (s : State) (w : Who) (core pc : Nat) : Except Cause Memory × State :=
  match s.targetLine w core pc with
  | (.error c, s) => (.error c, s)
  | (.ok b, s) => (if tgtBit b pc then .ok b else .error .branchTarget, s)

/-- The slot at a PC in a line holds an RGN (R77). -/
def holdsRgn (line : Memory) (pc : Nat) : Bool := wordAt line pc % 1024 == 2

/-! ## Live-in records (R38) -/

/-- A live-in record from its 32 bytes: none when it breaks R38 for an allocation of `regs` g registers. -/
def parseRecord (regs : Nat) (v : Nat) : Option LiveRecord :=
  let g := bitsOf v 127 0
  if bitsOf v 199 199 != 0 || bitsOf v 207 207 != 0 || bitsOf v 255 208 != 0 || g / 2 ^ regs != 0 then none
  else some { g := BitVec.ofNat 128 g, s := BitVec.ofNat 64 (bitsOf v 191 128), p := BitVec.ofNat 8 (bitsOf v 199 192),
              q := BitVec.ofNat 8 (bitsOf v 207 200) }

/-- Bytes read for an instruction by virtual address without an alignment rule, each page of the range checked (R188); a
poisoned byte is an error too. Remote bytes are asked for under keys from `key` up. -/
def Op.readVa (c : Ctx) (mask : BitVec 16) (k : Access) (key va n : Nat) : Op (Except Cause Nat) := do
  let first := min n (65536 - va % 65536)
  let part (key va n : Nat) : Op (Except Cause Nat) := do
    let s ← Op.state
    match s.agentAccess c.who k va 1 n with
    | (.error e, s) => do
      Op.put s
      return .error e
    | (.ok p, s) => do
      Op.put s
      match p with
      | .phys pa => return if s.poisoned pa n then .error .dataPoison else .ok (s.homeN pa n)
      | .remote peer off => do
        let v ← Op.ask c.asker key c.ctx va mask peer (.load off n)
        return if 2 ^ (8 * n) ≤ v then .error .dataPoison else .ok v
      | _ => return .error .notPresent
  let a ← part key va first
  match a with
  | .error e => return .error e
  | .ok x =>
    if first = n then return .ok x
    let b ← part (key + 1) (va + first) (n - first)
    match b with
    | .error e => return .error e
    | .ok y => return .ok (x + y * 256 ^ first)

/-- The record at an offset of the launch's region table (R38, R75), with REGION_RECORD when it is unreadable or malformed. -/
def Op.liveRecord (c : Ctx) (offset : W32) : Op LiveRecord := do
  let s ← Op.state
  let base := match s.kernel? c.kid with
    | some k => k.lr.rtab.toNat
    | none => 0
  let va := (base + offset.toNat) % 2 ^ 64
  let r ← Op.readVa c (maskOf c.active) .load 4000 va 32
  match (match r with
    | .ok v => parseRecord c.regs v
    | .error _ => none) with
  | some x => return x
  | none => Op.trapHere { cause := .regionRecord, mask := maskOf c.active, addr := va }

/-- A region begins for a thread (R75, R80, R87, R99): discardable, with its latches Cleared and its stochastic state
copied. `half`: the entry is the wait half of a GBAR (R181). -/
def Thread.beginRegion (th : Thread) (entry : W64) (live : LiveRecord) (half : Bool := false) : Thread :=
  { th with
    k := vfill 4 .cleared
    region := { inside := true, entry := entry, live := live, committed := false, count := 0, lines := [], many := false,
                seed := th.seed, tiles := [], replayed := false, half := half } }

end Sys2Proof.Machine
end

