-- ==== Sys2Proof/Machine/Agents.lean ====
section
/-!
DEFINITION. What the agents of a context do beside its warps (R132, R148, R161): reads, writes and adds in the context's
address space, and the record of class R that a failure pushes.
-/

namespace Sys2Proof.Machine

open Sys2Proof

/-- An agent of a context as the maker of an access: the walker of the context's first cluster serves it (R192). -/
def State.agentWho (s : State) (ctx : Nat) : Who :=
  { ctx := ctx, priv := s.privCtx ctx, cluster := match (s.ctx ctx).parts with
      | p :: _ => p.1
      | [] => 0,
    quarter := none }

/-- The value of an agent's read of `n` bytes at an aligned address through the home, or the cause of its failure. A remote
home answers later: the read then asks, and the state holds the request. -/
inductive AgentRead where
  | ok (v : Nat)
  | fail (c : Cause)
  | waits
  deriving DecidableEq, Repr

/-- One read of an agent within a page. -/
def State.agentPiece (s : State) (who : Asker) (key ctx : Nat) (k : Access) (va align n : Nat) : AgentRead × State :=
  match s.agentAccess (s.agentWho ctx) k va align n with
  | (.error c, s) => (.fail c, s)
  | (.ok p, s) =>
    match p with
    | .phys pa => (if s.poisoned pa n then .fail .dataPoison else .ok (s.homeN pa n), s)
    | .remote peer off =>
      match Op.ask who key ctx va 0 peer (.load off n) s with
      | .ok (v, s) => (if 2 ^ (8 * n) ≤ v then .fail .dataPoison else .ok v, s)
      | .error (.hold s) => (.waits, s)
      | .error (.trapAt s _) => (.fail .remoteUnreachable, s)
      | .error _ => (.fail .remoteUnreachable, s)
    | _ => (.fail .notPresent, s)

/-- A read of an agent, in pieces that cross no page and fit the payload of a flit (R365). -/
def State.agentPieces (s : State) (who : Asker) (ctx : Nat) (k : Access) : Nat → Nat → Nat → Nat → Nat → AgentRead × State
  | 0, _, _, _, _ => (.ok 0, s)
  | fuel + 1, key, va, align, n =>
    let first := min (min n 240) (65536 - va % 65536)
    match s.agentPiece who key ctx k va align first with
    | (.ok x, s) =>
      if first = n then (.ok x, s)
      else
        match s.agentPieces who ctx k fuel (key + 1) (va + first) 1 (n - first) with
        | (.ok y, s) => (.ok (x + y * 256 ^ first), s)
        | r => r
    | r => r

/-- A read of an agent. -/
def State.agentRead (s : State) (who : Asker) (key ctx : Nat) (k : Access) (va align n : Nat) : AgentRead × State :=
  s.agentPieces who ctx k (n / 240 + 2) key va align n

/-- A request that an agent makes for a kernel, or for a command (0), and does not wait for: the cause of its failure, if it cannot
even leave; a failure that comes later is reported when it comes (R358, R368). -/
def State.postAgent (s : State) (cause : Cause) (kid ctx va peer : Nat) (op : HomeOp) : Option Cause × State :=
  match s.request (.agent cause kid) 0 ctx va peer op with
  | some s => (none, s)
  | none => (some .remoteUnreachable, s)

/-- A write of an agent at an aligned address: the cause of its failure, or none. -/
def State.agentWrite (s : State) (cause : Cause) (kid ctx va n v : Nat) : Option Cause × State :=
  match s.agentAccess (s.agentWho ctx) .store va n n with
  | (.error c, s) => (some c, s)
  | (.ok (.phys pa), s) => (none, s.homeWrite pa (toBytes n v))
  | (.ok (.remote peer off), s) => s.postAgent cause kid ctx va peer (.store off n v)
  | (.ok _, s) => (some .notPresent, s)

/-- An add of an agent as a release (R132): checked by R121, refused by R122. -/
def State.agentAdd (s : State) (cause : Cause) (kid ctx va amt : Nat) : Option Cause × State :=
  match s.agentAccess (s.agentWho ctx) .sgAdd va 8 8 with
  | (.error c, s) => (some c, s)
  | (.ok (.phys pa), s) =>
    let r := s.sgAddAt pa amt
    (if r.1 = refused then some .sgOverflow else none, r.2)
  | (.ok (.remote peer off), s) => s.postAgent cause kid ctx va peer (.sgAdd off amt)
  | (.ok _, s) => (some .notPresent, s)

/-- An agent that does not wait has made the request. -/
def Asker.isAgent : Asker → Bool
  | .agent _ _ => true
  | _ => false

/-- The requests that agents have made for a kernel have not all been acknowledged. -/
def State.agentsOut (s : State) (kid : Nat) : Bool :=
  s.outstanding.any fun (o : Outstanding) => match o.who with
    | .agent _ k => k == kid
    | _ => false

/-- A wait of an agent at a stalagmite of a peer (R123, R124, R132): 1 once it is satisfied, 0 while its home keeps a waiter. A wait for
which the home's table was full is presented again. -/
def State.agentWaitAt (s : State) (who : Asker) (key ctx va peer : Nat) (op : HomeOp) : AgentRead × State :=
  let ask (s : State) : AgentRead × State := match s.request who key ctx va peer op with
    | some s => (.waits, s)
    | none => (.fail .remoteUnreachable, s)
  match s.answers.find? fun a => a.who == who && a.key == key with
  | some a => (if a.ok then .ok 1 else .fail .remoteUnreachable, { s with answers := s.answers.erase a })
  | none =>
    match s.outstanding.find? fun o => o.who == who && o.key == key with
    | some o =>
      if o.op ≠ op then ask (s.withdrawRemote fun a k => a == who && k == key)
      else if o.entry = 2 then ask { s with outstanding := s.outstanding.filter fun (x : Outstanding) => x.tag != o.tag }
      else (if o.entry = 0 then .waits else .ok 0, s)
    | none => ask s

/-- A WAIT OF AN AGENT (R132) on a stalagmite: 1 once it is satisfied, 0 while its home keeps a waiter for it (R123, R124); the agent
looks again when its entry has been woken. One wait stands for a place in the agent's access order. -/
def State.agentWait (s : State) (who : Asker) (key ctx va target : Nat) : AgentRead × State :=
  match s.agentAccess (s.agentWho ctx) .sgRead va 8 8 with
  | (.error c, s) => (.fail c, s.quitWaits fun a k => a == who && k == key)
  | (.ok (.phys pa), s) =>
    let mine (w : WaiterEntry) : Bool := w.who == .agent who key
    let same (w : WaiterEntry) : Bool := mine w && w.pa == pa && w.target == target
    if (s.waiters.any fun w => same w && w.woken) || decide (target ≤ s.homeN pa 8) then
      (.ok 1, { s with waiters := s.waiters.filter fun (w : WaiterEntry) => !mine w })
    else
      let s := { s with waiters := s.waiters.filter fun (w : WaiterEntry) => !(mine w && !same w) }
      (.ok 0, (s.enterWaiter pa target (.agent who key)).getD s)
  | (.ok (.remote peer off), s) => s.agentWaitAt who key ctx va peer (.sgWait off target)
  | (.ok _, s) => (.fail .notPresent, s)

/-! ## Records of other agents (R352, R358) -/

/-- A record of source 4 or 5 that names a kernel and an address. -/
def State.agentRecord (s : State) (cause : Cause) (kid addr : Nat) : FaultRec :=
  { cause := cause, source := 5, seqv := false, macv := false, coord := false, mslot := 0, unit := 255, handle := 0,
    tmask := 0, done := 0, seq := 0, pc := 0, addr := addr, bitoff := 0,
    tag := match s.kernel? kid with
      | some k => k.tag.toNat
      | none => 0,
    extra := 0, aux := 0, time := s.timeNs, src := (0, 0) }

/-- LAUNCH_DEPENDENCE of class R, naming the kernel and an address (R149, R153, R158, R162). -/
def State.dependenceRecord (s : State) (ctx kid addr : Nat) : State :=
  s.bufferRecord ctx (s.agentRecord .launchDependence kid addr)

/-- An add of the distributor that pushes LAUNCH_DEPENDENCE when it fails (R158, R162); with an address of 0 none is made. -/
def State.distributorAdd (s : State) (ctx kid va amt : Nat) : State :=
  if va = 0 then s
  else
    match s.agentAdd .launchDependence kid ctx va amt with
    | (none, s) => s
    | (some _, s) => s.dependenceRecord ctx kid va

/-! ## Counted threads and the trigger (R161) -/

/-- The trigger add of a kernel, once, when every counted thread has triggered or exited (R147, R161). -/
def State.trigger (s : State) (kid : Nat) : State :=
  match s.kernel? kid with
  | none => s
  | some k =>
    if k.st = 4 ∧ k.counted = 0 ∧ k.trigDone = false ∧ s.recordRoom k.ctx = true then
      let s := s.modKernel kid fun k => { k with st := 5, trigDone := true }
      s.distributorAdd k.ctx kid k.lr.trigsg.toNat k.lr.trigamt
    else s

/-- Counted threads have triggered or exited (R161). -/
def State.countDown (s : State) (kid n : Nat) : State :=
  if n = 0 then s else (s.modKernel kid fun k => { k with counted := k.counted - n }).trigger kid

/-! ## The work of an agent as an operation -/

/-- A failure of an agent's access: what it did before stays, and the cause and address go to its record. -/
def Op.agentFail {α : Type} (cause : Cause) (addr : Nat) : Op α := Op.trapHere { cause := cause, mask := 0, addr := addr }

/-- A read of an agent (R132): it waits for a peer, or fails. -/
def Op.agentRead (who : Asker) (key ctx : Nat) (k : Access) (va align n : Nat) : Op Nat := fun s =>
  match s.agentRead who key ctx k va align n with
  | (.ok v, s) => .ok (v, s)
  | (.fail c, s) => Op.agentFail c va s
  | (.waits, s) => .error (.hold s)

/-- A request of an agent to a peer, for which it waits. -/
def Op.agentSend (who : Asker) (key ctx va peer : Nat) (op : HomeOp) : Op Nat := fun s =>
  match Op.ask who key ctx va 0 peer op s with
  | .error (.trapAt s _) => Op.agentFail .remoteUnreachable va s
  | r => r

/-- A write of an agent, complete when this ends (R370). -/
def Op.agentWrite (who : Asker) (key ctx va n v : Nat) : Op Unit := fun s =>
  match s.agentAccess (s.agentWho ctx) .store va n n with
  | (.error c, s) => Op.agentFail c va s
  | (.ok (.phys pa), s) => .ok ((), s.homeWrite pa (toBytes n v))
  | (.ok (.remote peer off), s) => (do let _ ← Op.agentSend who key ctx va peer (.store off n v) : Op Unit) s
  | (.ok _, s) => Op.agentFail .notPresent va s

/-- An add of an agent as a release (R132), complete when this ends. -/
def Op.agentAdd (who : Asker) (key ctx va amt : Nat) : Op Unit := fun s =>
  match s.agentAccess (s.agentWho ctx) .sgAdd va 8 8 with
  | (.error c, s) => Op.agentFail c va s
  | (.ok (.phys pa), s) =>
    let r := s.sgAddAt pa amt
    if r.1 = refused then Op.agentFail .sgOverflow va r.2 else .ok ((), r.2)
  | (.ok (.remote peer off), s) => (do
    let v ← Op.agentSend who key ctx va peer (.sgAdd off amt)
    if v = refused then Op.agentFail .sgOverflow va : Op Unit) s
  | (.ok _, s) => Op.agentFail .notPresent va s

/-- A wait of an agent (R132): whether it is satisfied; it waits while a peer has not answered. -/
def Op.agentWait (who : Asker) (key ctx va target : Nat) : Op Bool := fun s =>
  match s.agentWait who key ctx va target with
  | (.ok v, s) => .ok (v == 1, s)
  | (.fail c, s) => Op.agentFail c va s
  | (.waits, s) => .error (.hold s)

/-- The answers kept for an asker are used up. -/
def State.dropAnswers (s : State) (who : Asker) : State :=
  { s with answers := s.answers.filter fun (a : Answer) => a.who != who }

/-- The state after an agent's work: as it waits, as it ends, or with what follows a failure. -/
def runAgent (who : Asker) (f : Op Unit) (failed : Trap → State → State) (s : State) : State :=
  match f s with
  | .ok (_, s) => s.dropAnswers who
  | .error (.hold s) => s
  | .error (.trap t) => (failed t s).dropAnswers who
  | .error (.trapAt s t) => (failed t s).dropAnswers who
  | .error (.after s t) => (failed t s).dropAnswers who
  | .error (.halt _) => s

/-- Requests of an asker are those of another now, and its answers are gone. -/
def State.handOver (s : State) (who new : Asker) : State :=
  let s := s.quitWaits fun a _ => a == who
  { s with
    outstanding := s.outstanding.map fun (o : Outstanding) => if o.who = who then { o with who := new } else o,
    answers := s.answers.filter fun (a : Answer) => a.who != who }

/-- Requests of an asker are no longer awaited, and its answers are gone. -/
def State.forget (s : State) (who : Asker) : State := s.handOver who .post

/-- Agents of a context work: it is neither free nor torn down, and no freeze holds them (R133, R261). -/
def State.agentsRun (s : State) (ctx : Nat) : Bool :=
  s.mgmt.boot == 3 && (s.ctx ctx).st != 0 && (s.ctx ctx).st != 9 && (!s.frozen || s.debugSlot == some ctx)

end Sys2Proof.Machine
end

