-- ==== Sys2Proof/Machine/Waits.lean ====
section
/-!
DEFINITION. Blocking waits on stalagmites (R123 to R127), and ring descriptors (R134).
-/

namespace Sys2Proof.Machine

open Sys2Proof

/-- What one participant waits for: its stalagmite, target and timeout. -/
structure WaitFor where
  tid : Tid
  va : Nat
  place : Place
  target : Nat
  timeout : Nat
  deriving DecidableEq, Repr

/-- The distinct stalagmites of the waits, each with the largest target of those who name it (R123). -/
def waitItems (xs : List WaitFor) : List WaitItem :=
  xs.foldl (fun (acc : List WaitItem) x =>
    if acc.any fun i => i.place == x.place then
      acc.map fun i => if i.place = x.place then { i with target := max i.target x.target } else i
    else acc ++ [{ place := x.place, target := x.target, tid := x.tid.val, va := x.va }]) []

/-- A stalagmite has reached the target (R123): by the value at its home, or by the answer of the peer to which the wait is presented
once; a wait presented to another place, through a translation that is gone, is withdrawn (R198). A wait compares the bytes of poisoned
memory (log 43). -/
def Op.itemMet (c : Ctx) (mask : BitVec 16) (key : Nat) (i : WaitItem) : Op Bool := fun s =>
  match i.place with
  | .phys pa => .ok (decide (i.target ≤ s.homeN pa 8), s)
  | .remote peer off =>
    let op : HomeOp := .sgWait off i.target
    match s.answers.find? fun a => a.who == c.asker && a.key == key && a.peer == peer && a.op == some op with
    | some a =>
      if a.ok then .ok (true, s)
      else .error (.trapAt { s with answers := s.answers.erase a } (unreachable mask i.va a.val))
    | none =>
      if s.outstanding.any fun o => o.who == c.asker && o.key == key && o.peer == peer && o.op == op then .ok (false, s)
      else
        match (s.withdrawRemote fun a k => a == c.asker && k == key).request c.asker key c.ctx i.va peer op with
        | some s' => .ok (false, s')
        | none => .error (.trapAt s (unreachable mask i.va 0))
  | _ => .ok (true, s)

/-- The stalagmites of a wait that have not reached their targets; every one is presented to its home. -/
def Op.unmet (c : Ctx) (sub : Nat) : List WaitItem → Op (List WaitItem)
  | [] => pure []
  | i :: is => do
    let mask := allTids.foldl (fun (m : BitVec 16) t => if t.val = i.tid then c.maskAt t else m) 0
    let b ← Op.itemMet c mask (i.tid * 8 + sub) i
    let r ← Op.unmet c sub is
    return if b then r else i :: r

/-- The waiter entries of a warp's wait at the homes of this device (R123, R124): whether all were entered. -/
def State.present (s : State) (task warp : Nat) (items : List WaitItem) : Bool × State :=
  items.foldl (fun (acc : Bool × State) i =>
    match i.place with
    | .phys pa =>
      match acc.2.enterWaiter pa i.target (.warp task warp) with
      | some s => (acc.1, s)
      | none => (false, acc.2)
    | _ => acc) (true, s)

/-- A warp becomes Blocked on a wait (R68, R123): its Valid latches are Lost, and another warp of the lane may run. -/
def State.block (s : State) (task warp why : Nat) (unmet : List WaitItem) (parts : List (Nat × Place × Nat × Nat)) : State :=
  let r := s.present task warp unmet
  let s := r.2.modWarp task warp fun w =>
    { w.loseLatches with
      st := .blocked, stall := none,
      wait := some { items := unmet, parts := parts, elapsed := 0, entered := r.1, woken := false, why := why } }
  s.switchPoint task warp

/-- A peer has not said yet whether a wait presented to it is satisfied. -/
def State.unanswered (s : State) (who : Asker) : Bool := s.outstanding.any fun o => o.who == who && opWaits o.op && o.entry == 0

/-- What each participant of a wait waits for, with the mask and the timeout of its record (R126). -/
def partsOf (c : Ctx) (xs : List WaitFor) : List (Nat × Place × Nat × Nat) :=
  xs.map fun x => ((c.maskAt x.tid).toNat, x.place, x.target, x.timeout)

/-- The end of a wait that is satisfied: an acquire (R125), and what it notes for the watchpoints (R380). -/
def State.waited (s : State) (c : Ctx) (xs : List WaitFor) : State :=
  (s.modWarp c.task c.warp fun w => { w with
    touched := w.touched ++ xs.flatMap fun x => (c.threadsAt x.tid).map fun t => (t.val, false, x.va, 8) }).acquire c.core

/-- A blocking wait (R123, R125, R130): the warp goes on as a whole when every participant's stalagmite has reached its target, and
acquires; a wake that has been delivered says so. Otherwise it is Blocked, and its stalls count under the reason `why` (R387). -/
def Op.waitAll (c : Ctx) (sub why : Nat) (xs : List WaitFor) : Op Unit := do
  let w ← Op.warp c
  let parts := partsOf c xs
  if (w.wait.any fun y => y.woken && y.parts == parts) then Op.modify fun s => s.waited c xs
  else
    let r ← Op.unmet c sub (waitItems xs)
    if r.isEmpty then Op.modify fun s => s.waited c xs
    else fun s =>
      if s.unanswered c.asker then .error (.hold (s.stallFor c.asker))
      else .error (.hold (s.block c.task c.warp why r parts))

/-! ## Ring descriptors (R134) -/

/-- A ring descriptor. -/
structure RingDesc where
  base : Nat
  slot : Nat
  logcap : Nat
  fill : Nat
  rel : Nat
  deriving DecidableEq, Repr

/-- The descriptor in 64 bytes, none when it breaks R134. -/
def RingDesc.parse (v : Nat) : Option RingDesc :=
  let d : RingDesc :=
    { base := bitsOf v 63 0, slot := bitsOf v 95 64, logcap := bitsOf v 103 96, fill := bitsOf v 191 128,
      rel := bitsOf v 255 192 }
  if d.base % 4 == 0 && d.slot % 4 == 0 && decide (4 ≤ d.slot) && decide (d.slot ≤ 65536) && decide (d.logcap ≤ 24)
      && bitsOf v 127 104 == 0 && bitsOf v 511 256 == 0 && d.fill != d.rel then some d
  else none

/-- The address of slot n (R134). -/
def RingDesc.slotOf (d : RingDesc) (n : Nat) : Nat := (d.base + n % 2 ^ d.logcap * d.slot) % 2 ^ 64

/-- A unit reads its ring descriptor (R121, R134): a plain load through the CORE path, whose address is checked by the first rows of
R121 and then for 64-byte alignment. -/
def Op.ringDesc (c : Ctx) (t : Tid) (va : Nat) : Op RingDesc := do
  let a ← Op.aimOne c 0 .load 64 1 t va
  if va % 64 ≠ 0 then Op.trap .ringMisuse (c.maskAt t) va
  Op.poisonCheck c 64 [a]
  let v ← Op.loadAt c a (c.key t 6) 64 0
  Op.noteTouch c a false 64
  Op.noteLoad c t a.target.place
  match RingDesc.parse v with
  | some d => return d
  | none => Op.trap .ringMisuse (c.maskAt t) va

/-- An operation for each aimed unit in turn (R354): the lowest that fails decides, and the record names every unit that fails alike. -/
def Op.over {α : Type} (as : List (Tid × Aimed)) (f : Tid → Aimed → Op α) : Op (List (Tid × α)) :=
  Op.gatherFrom (fun t => match as.find? fun p => p.1 == t with
    | some p => f t p.2
    | none => Op.holdHere) (as.map (·.1))

end Sys2Proof.Machine
end

