-- ==== Sys2Proof/Machine/Grace.lean ====
section
/-!
DEFINITION. Read sections, grace periods and the deferred-free queue (R256 to R269), and the pools it frees to (R319).
-/

namespace Sys2Proof.Machine

open Sys2Proof

/-! ## The grace block and the queue (R256 to R258) -/

/-- VA of the grace block; 0 means no engine. -/
def Context.graceVa (c : Context) : Nat := bitsOf c.gpbase.toNat 55 6 * 64
/-- VA of the deferred-free queue. -/
def Context.dfqVa (c : Context) : Nat := bitsOf c.dfqcfg.toNat 55 6 * 64
/-- LOGCAP. -/
def Context.dfqLog (c : Context) : Nat := bitsOf c.dfqcfg.toNat 4 0
/-- Entries held (DFQN). -/
def Context.dfqCount (c : Context) : Nat := c.dfqPushed - c.dfqFreed
/-- VA of the place of entry n (R258). -/
def Context.dfqPlace (c : Context) (n : Nat) : Nat := c.dfqVa + n % 2 ^ c.dfqLog * 32
/-- Room for another push, beside the places reserved by TST and DRAIN (R267, R324). -/
def Context.dfqRoom (c : Context) : Bool := decide (c.dfqCount + c.dfqHeld < 2 ^ c.dfqLog)

/-- The grace block and the queue are valid (R257): the first word that fails, or none. -/
def State.graceBad (s : State) (ctx : Nat) : Option Nat :=
  let c := s.ctx ctx
  let gp := c.graceVa
  if gp = 0 ∨ c.dfqLog < 4 ∨ 16 < c.dfqLog then some gp
  else
    [gp, gp + 8].find? fun va =>
      [Access.sgAdd, Access.sgRead].any fun k => match (s.translate (s.agentWho ctx) k va 8).1 with
        | .error _ => true
        | .ok _ => false

/-- A push to the deferred-free queue would fail (R257, R258): the address that fails, or none. -/
def State.pushBad (s : State) (ctx : Nat) : Option Nat :=
  match s.graceBad ctx with
  | some va => some va
  | none =>
    let va := (s.ctx ctx).dfqPlace (s.ctx ctx).dfqPushed
    match (s.agentAccess (s.agentWho ctx) .store va 32 32).1 with
    | .ok (.phys _) => none
    | .ok (.remote peer _) => if (s.portOf peer).isSome then none else some va
    | _ => some va

/-- A grace period is asked for (R261). -/
def State.requestGrace (s : State) (ctx : Nat) : State := s.modCtx ctx fun c => { c with req := true }

/-- The bytes of an entry (R258). -/
def dfqBits (ext dest tag kind scls : Nat) : Nat :=
  ext % 2 ^ 64 + dest % 2 ^ 64 * 2 ^ 64 + tag % 2 ^ 64 * 2 ^ 128 + kind * 2 ^ 192 + scls * 2 ^ 200

/-- A push to the deferred-free queue (R258, R267), with the period that it requests. The engine takes no entry while a write of one to
a peer is not acknowledged. -/
def Op.pushDeferred (ctx ext dest kind scls : Nat) : Op Unit := fun s =>
  let c := s.ctx ctx
  let va := c.dfqPlace c.dfqPushed
  match s.agentWrite .dfqInvalid 0 ctx va 32 (dfqBits ext dest (c.gpreq.toNat + 1) kind scls) with
  | (none, s) => .ok ((), (s.modCtx ctx fun c => { c with dfqPushed := c.dfqPushed + 1 }).requestGrace ctx)
  | (some e, s) => Op.agentFail e va s

/-- The hold that a command took on its warp's section is released (R259). -/
def State.releaseHold (s : State) (task warp : Nat) : State :=
  s.modWarp task warp fun w => { w with held := w.held - 1 }.leaveSection

/-- The warps of a context, resident or saved, that satisfy a condition. -/
def State.anyWarp (s : State) (ctx : Nat) (p : Warp → Bool) : Bool :=
  s.tasks.any fun t => t.ctx == ctx && t.warps.any p

/-! ## Pools (R319) -/

/-- A pool descriptor (R319). -/
structure Pool where
  bump : Nat
  base : Nat
  limit : Nat
  rings : List Nat
  deriving DecidableEq, Repr

/-- The pool in 256 bytes at an address, none when its own fields break R319. -/
def Pool.parse (va v : Nat) : Option Pool :=
  let word (n : Nat) := bitsOf v (64 * n + 63) (64 * n)
  if va % 256 = 0 ∧ word 0 % 8 = 0 ∧ word 1 % 65536 = 0 ∧ word 2 % 64 = 0 ∧ bitsOf v 2047 896 = 0 then
    some { bump := word 0, base := word 1, limit := word 2, rings := (List.range 11).map fun c => word (3 + c) }
  else none

/-- A free ring of a pool: SLOT = 8, and FILL and REL in one 64-byte line (R319). -/
def RingDesc.freeRing (d : RingDesc) : Bool := d.slot == 8 && d.fill / 64 == d.rel / 64

/-- A ring descriptor read by an agent, none when it breaks R134: its address is checked before its alignment, and read after it
(R121). -/
def Op.agentRing (who : Asker) (key ctx va : Nat) : Op (Option RingDesc) := fun s =>
  match s.translate (s.agentWho ctx) .load va 1 with
  | (.error e, s) => Op.agentFail e va s
  | (.ok _, s) => (do
    if va % 64 ≠ 0 then return none
    let v ← Op.agentRead who key ctx .load va 1 64
    return RingDesc.parse v : Op (Option RingDesc)) s

/-! ## Freeing (R267, R269) -/

/-- The asker of the grace engine of a context. -/
def graceAsker (ctx : Nat) : Asker := .context ctx

/-- The ring that the entry of a kind and class frees to (R267). -/
def Op.freeTarget (ctx kind scls dest : Nat) : Op RingDesc := do
  let who := graceAsker ctx
  let va ← if kind = 1 then pure dest
    else do
      let v ← Op.agentRead who 9010 ctx .load dest 1 256
      match Pool.parse dest v with
      | some p => if scls ≤ 10 then pure (p.rings.getD scls 0) else Op.agentFail .dfqInvalid dest
      | none => Op.agentFail .dfqInvalid dest
  let d ← Op.agentRing who 9014 ctx va
  match d with
  | some d => if d.slot = 8 ∧ (kind = 1 ∨ d.freeRing = true) then return d else Op.agentFail .dfqInvalid va
  | none => Op.agentFail .dfqInvalid va

/-- The queue's first entry freed once its period is over: its extent goes to a slot of the ring, which then counts it; a ring
without room holds it (R267, R269). The answer says whether the queue goes on. -/
def Op.freeFirst (ctx : Nat) : Op Bool := do
  let s ← Op.state
  let c := s.ctx ctx
  if c.dfqCount = 0 then return false
  let who := graceAsker ctx
  let v ← Op.agentRead who 9000 ctx .load (c.dfqPlace c.dfqFreed) 32 32
  if c.gpdone.toNat < bitsOf v 191 128 then return false
  let d ← Op.freeTarget ctx (bitsOf v 199 192) (bitsOf v 207 200) (bitsOf v 127 64)
  let fill ← Op.agentRead who 9020 ctx .sgRead d.fill 8 8
  let rel ← Op.agentRead who 9022 ctx .sgRead d.rel 8 8
  if rel + 2 ^ d.logcap < fill + 1 then return false
  Op.agentWrite who 9030 ctx (d.slotOf fill) 8 (bitsOf v 63 0)
  Op.agentAdd who 9032 ctx d.fill 1
  Op.modify fun s => s.modCtx ctx fun c => { c with dfqFreed := c.dfqFreed + 1 }
  return true

/-- Entries are freed in queue order; one that fails is dropped, with DFQ_INVALID of class R naming the entry (R267). -/
def State.freeDue (s : State) (ctx : Nat) : Nat → State
  | 0 => s
  | n + 1 =>
    match Op.freeFirst ctx s with
    | .ok (true, s) => (s.dropAnswers (graceAsker ctx)).freeDue ctx n
    | .ok (false, s) => s.dropAnswers (graceAsker ctx)
    | .error (.trapAt s _) =>
      if s.recordRoom ctx then
        let c := s.ctx ctx
        let s := s.bufferRecord ctx { s.agentRecord .dfqInvalid 0 (c.dfqPlace c.dfqFreed) with source := 5 }
        ((s.modCtx ctx fun c => { c with dfqFreed := c.dfqFreed + 1 }).dropAnswers (graceAsker ctx)).freeDue ctx n
      else s
    | .error (.hold s) => s
    | .error _ => s

/-- An add or write of the grace engine, or a push of an entry, is not acknowledged by a peer. -/
def State.graceOut (s : State) (ctx : Nat) : Bool := s.outstanding.any fun o => o.ctx == ctx && o.who == .agent .dfqInvalid 0

/-- All entries that are due are freed. -/
def State.freeEntries (s : State) (ctx : Nat) : State := if s.graceOut ctx then s else s.freeDue ctx (s.ctx ctx).dfqCount

/-! ## The grace engine (R261, R268) -/

/-- An add of the engine to a word of its block; a failure pushes DFQ_INVALID, for which there is room. -/
def State.graceAdd (s : State) (ctx off : Nat) : State :=
  let va := (s.ctx ctx).graceVa + off
  match s.agentAdd .dfqInvalid 0 ctx va 1 with
  | (none, s) => s
  | (some _, s) => s.bufferRecord ctx (s.agentRecord .dfqInvalid 0 va)

/-- A store to a peer of a warp of the context that has ended is not acknowledged (R262, R370). -/
def State.endedStores (s : State) (ctx : Nat) : Bool :=
  s.outstanding.any fun (o : Outstanding) => o.ctx == ctx && match o.who with
    | .store t w => match s.warp? t w with
      | some x => x.st == .done
      | none => true
    | _ => false

/-- GRACE_PERIOD_START (R261, R268): every warp in a section is marked, and then GPREQ grows. -/
def execGracePeriodStart (ctx : Nat) (s : State) : Out :=
  s.keeping <|
  let c := s.ctx ctx
  if s.agentsRun ctx && c.req && !c.run && s.recordRoom ctx then
    let s := { s with tasks := s.tasks.map fun (t : Task) =>
      if t.ctx = ctx then
        { t with warps := t.warps.map fun (w : Warp) =>
            if w.depth != 0 || w.held != 0 then { w with mark := true } else w }
      else t }
    let s := s.modCtx ctx fun c => { c with req := false, run := true, gpreq := c.gpreq + 1 }
    .next (s.graceAdd ctx 0)
  else .next s

/-- GRACE_PERIOD_END (R261, R262, R269): no mark remains, what ended warps have stored is complete, GPDONE grows, and what is due is
freed once that add is. -/
def execGracePeriodEnd (ctx : Nat) (s : State) : Out :=
  s.keeping <|
  if s.agentsRun ctx && (s.ctx ctx).run && !s.anyWarp ctx (·.mark) && !s.endedStores ctx && !s.graceOut ctx && s.recordRoom ctx then
    let s := s.modCtx ctx fun c => { c with run := false, gpdone := c.gpdone + 1 }
    .next ((s.graceAdd ctx 8).freeEntries ctx)
  else .next s

/-- DEFERRED_FREE_DELIVER (R267): an entry that waited for room in its ring. -/
def execDeferredFreeDeliver (ctx : Nat) (s : State) : Out :=
  s.keeping <|
  if s.agentsRun ctx then .next (s.freeEntries ctx) else .next s

/-! ## RSB and RSE (R263, R264) -/

/-- The encoding of RSB and RSE. -/
def sectionEnc (k : EWord) : Enc := { prof := 2, umode := .zero, prAlways := true, reserved := ePlain k true }

/-- Both end the region of every thread of the active set and are switch points (R264), but no switch happens inside a macro body
(R73). -/
def State.endSection (s : State) (c : Ctx) (live : LiveRecord) (f : Warp → Warp) : State :=
  let s := s.modWarp c.task c.warp fun w => (f w).modThreads c.active fun th => th.beginRegion (nextPc c.pc) live
  match s.warp? c.task c.warp with
  | some w => if w.pinned || w.mac.isSome then s else s.switchPoint c.task c.warp
  | none => s

/-- RSB (R264). -/
def execRsb (w : EWord) (s : State) : Out :=
  issueE sectionEnc w .boundary (fun c k => do
    let w ← Op.warp c
    if w.depth = 15 then Op.trap .sectionDepth (maskOf c.active)
    let live ← Op.liveRecord c k.imm
    Op.acquire c
    Op.modify fun s => s.endSection c live fun w => { w with depth := w.depth + 1 }) s

/-- RSE (R264). -/
def execRse (w : EWord) (s : State) : Out :=
  issueE sectionEnc w .boundary (fun c k => do
    let w ← Op.warp c
    if w.depth = 0 then Op.trap .sectionUnderflow (maskOf c.active)
    let live ← Op.liveRecord c k.imm
    Op.release c (maskOf c.active)
    Op.modify fun s => s.endSection c live fun w => { w with depth := w.depth - 1 }.leaveSection) s

/-! ## GPNUM and GPWAIT (R265, R266) -/

/-- DFQ_INVALID when the grace block or the queue is not valid (R257). -/
def Op.graceCheck (c : Ctx) (mask : BitVec 16) : Op Unit := do
  let s ← Op.state
  match s.graceBad c.ctx with
  | some va => Op.trap .dfqInvalid mask va
  | none => pure ()

/-- The fields of GPNUM. -/
def encOfGpnum (k : EWord) : Enc :=
  { prof := 2, d := .dst .w64, result := true,
    reserved := eBad k (noPi k) (decide (k.sub.toNat ≤ 1)) (k.sel == 0) (k.imm == 0) }

/-- GPNUM (R265). -/
def execGpnum (w : EWord) (s : State) : Out :=
  issueE encOfGpnum w .straight (fun c k => do
    if c.parts.isEmpty then return ()
    let ask := k.sub == 1
    if ask then
      Op.graceCheck c (maskOf c.parts)
      Op.release c (maskOf c.parts)
      Op.modify (·.requestGrace c.ctx)
    let s ← Op.state
    let v := (s.ctx c.ctx).gpreq + (if ask then 1 else 0)
    Op.modWarp c fun w => c.units.foldl (fun w t => putResult c k.h .w64 w t v) w) s

/-- The fields of GPWAIT. -/
def encOfGpwait (k : EWord) : Enc :=
  { prof := 2, b := .src .w64 false, c := .src .w32 false,
    reserved := eBad k (noPi k) (k.sub == 0) true (k.imm == 0) }

/-- What the units of GPWAIT wait for. -/
def gpwaitFor (c : Ctx) (k : EWord) (w : Warp) (va : Nat) (p : Place) : List WaitFor :=
  c.units.map fun t =>
    { tid := t, va := va, place := p, target := (read64 c w t k.h.b).toNat, timeout := (read32 c w t k.h.c).toNat }

/-- GPWAIT (R266): a wait on the GPDONE word. -/
def execGpwait (w : EWord) (s : State) : Out :=
  issueE encOfGpwait w .wait (fun c k => do
    if c.parts.isEmpty then return ()
    let w ← Op.warp c
    Op.graceCheck c (maskOf c.parts)
    if w.depth ≠ 0 ∨ w.held ≠ 0 then Op.trap .gpWaitInSection (maskOf c.parts)
    let s ← Op.state
    let va := (s.ctx c.ctx).graceVa + 8
    match s.agentAccess (s.agentWho c.ctx) .sgRead va 8 8 with
    | (.error _, _) => Op.trap .dfqInvalid (maskOf c.parts) va
    | (.ok p, s) => do
      Op.put s
      Op.waitAll c 0 14 (gpwaitFor c k w va p)) s

/-! ## DFREE (R267) -/

/-- The checks of one unit of DFREE; the aim of a block-index entry. -/
def Op.freeCheck (c : Ctx) (k : EWord) (t : Tid) : Op (Option Aimed) := do
  let w ← Op.warp c
  let ext := (read64 c w t k.h.a).toNat
  let dst := (read64 c w t k.h.b).toNat
  if ext % (if k.sub = 2 then 16 else 64) ≠ 0 then Op.trap .misaligned (c.maskAt t) ext
  if dst % 64 ≠ 0 then Op.trap .misaligned (c.maskAt t) dst
  if k.sub ≠ 2 ∧ 10 < k.imm.toNat then Op.trap .dfqInvalid (c.maskAt t)
  Op.graceCheck c (c.maskAt t)
  if k.sub = 2 then
    let a ← Op.aimOne c 0 .rmw 16 16 t ext
    return some a
  return none

/-- A deferred extent for a unit: pushed when the queue has room, with its tag and success as results (R267). -/
def Op.defer (c : Ctx) (k : EWord) (t : Tid) (ext kind scls : Nat) (before : Op Unit) (push : Bool) : Op Unit := do
  let w ← Op.warp c
  let s ← Op.state
  let cx := s.ctx c.ctx
  let room := !push || cx.dfqRoom
  if room then
    before
    if push then
      match Op.pushDeferred c.ctx ext (read64 c w t k.h.b).toNat kind scls (← Op.state) with
      | .ok (_, s) => Op.put s
      | .error _ => Op.failAt c t .dfqInvalid (cx.dfqPlace cx.dfqPushed)
    else Op.modify (·.requestGrace c.ctx)
  Op.commit c [t]
  Op.modWarp c fun w =>
    let w := if room then putResult c k.h .w64 w t (cx.gpreq + 1) else w
    putPred c k.pi.toNat w t room

/-- The fields of DFREE. -/
def encOfDfree (k : EWord) : Enc :=
  { prof := 2, d := .dst .w64, a := .src .w64 false, b := .src .w64 false, result := true,
    reserved := eBad k (k.pi != 7) (decide (k.sub.toNat ≤ 2)) (k.sel == 0)
      (decide (k.imm.toNat < (if k.sub = 2 then 1 else 16))) }

/-- A block-index entry is written at its home; one at a peer goes on its way like a store (R267). -/
def Op.absentAt (c : Ctx) (a : Aimed) (v : Nat) : Op Unit :=
  match a.target.place with
  | .remote p o => Op.modify fun s => s.postStore c.task c.warp c.ctx a.ea p (.store o 16 v)
  | _ => do
    let _ ← Op.homeAt c a 0 16 (fun p => .store p 16 v) id false

/-- One unit of DFREE. -/
def dfreeAct (c : Ctx) (k : EWord) (t : Tid) (a : Option Aimed) : Op Unit := do
  Op.release c (c.maskAt t)
  match a with
  | none => do
    let w ← Op.warp c
    Op.defer c k t (read64 c w t k.h.a).toNat k.sub.toNat k.imm.toNat (pure ()) true
  | some a => do
    let v ← Op.homeAt c a (c.key t 0) 16 (fun p => .load p 16) id true
    let e := BixEntry.ofBits v
    if bixOk v = false ∨ e.v = false then Op.failAt c t .bixEntry a.ea
    Op.noteTouch c a false 16
    Op.acquire c
    let absent : Op Unit := do
      Op.noteTouch c a true 16
      Op.absentAt c a { e with v := false }.bits
    Op.defer c k t e.addr 2 e.scls absent (!e.z)

/-- DFREE (R267). -/
def execDfree (w : EWord) (s : State) : Out :=
  issueE encOfDfree w .straight (fun c k => Op.each c (Op.freeCheck c k) (dfreeAct c k)) s

end Sys2Proof.Machine
end

