-- ==== Sys2Proof/Machine/Engines.lean ====
section
/-!
DEFINITION. The copy and transform engines (R294 to R308) and what they share with the encoder: reads and writes of a range of
bytes, allocation from a pool (R320), and how a command begins, stops and ends.
-/

namespace Sys2Proof.Machine

open Sys2Proof

/-! ## Ranges of bytes -/

/-- Who moves bytes: how it asks peers, the context and privilege of its accesses, and the task whose scratchpad it sees.
`peers`: a peer accepts its accesses (R369); `core`: the core whose loads its acquires order (R226). -/
structure Mover where
  asker : Asker
  acc : Who
  task : Nat
  peers : Bool
  core : Option Nat
  deriving DecidableEq, Repr

/-- A mover as one that reads what is no coded stream: peers accept such reads of the COPY path only (R369). -/
def Mover.plain (m : Mover) : Mover := match m.asker with
  | .copy _ => m
  | _ => { m with peers := false }

/-- A failure of a mover's access. -/
def Op.moveFail {α : Type} (cause : Cause) (va : Nat) (extra : Nat := 0) : Op α :=
  Op.trapHere { cause := cause, mask := 0, addr := va, extra := extra }

/-- Where a range within one page lies, and whether it is a coded-pool page (R188, R197, R201, R202). -/
def Op.spot (m : Mover) (k : Access) (space va n align : Nat) : Op (Place × Bool) := fun s =>
  match space with
  | 0 =>
    match s.translate m.acc k va align with
    | (.error c, s) => Op.moveFail c va 0 s
    | (.ok t, s) => .ok ((t.place, entryCOMP t.bits), t.l2 n (s.markAD m.acc k va t))
  | 1 =>
    match s.task? m.task with
    | some t =>
      if t.spad * 8192 < va + n then Op.moveFail .scratchRange va 0 s
      else if va % align ≠ 0 then Op.moveFail .misaligned va 0 s
      else .ok ((.scratch va, false), s)
    | none => Op.moveFail .scratchRange va 0 s
  | _ =>
    if s.vaultOk m.acc.ctx va n = false then Op.moveFail .vaultRange va 0 s
    else if va % align ≠ 0 then Op.moveFail .misaligned va 0 s
    else .ok ((.vault va, false), s)

/-- Distance of the places of the flits of one range in an access order. -/
def flitKey : Nat := 2 ^ 40

/-- A request of a mover to a peer; a path that peers do not accept is refused (R368, R369). -/
def Op.movePeer (m : Mover) (key va peer : Nat) (op : HomeOp) : Op Nat :=
  if m.peers then Op.ask m.asker key m.acc.ctx va 0 peer op else Op.moveFail .remoteUnreachable va 256

/-- Bytes of a message's data at most (R365). -/
def flitBytes : Nat := 240

/-- Bytes read at a peer, a flit's payload at a time. -/
def Op.readPeer (m : Mover) (peer : Nat) : Nat → Nat → Nat → Nat → Nat → Op (List Byte)
  | 0, _, _, _, _ => pure []
  | fuel + 1, key, va, off, n => do
    if n = 0 then return []
    let k := min n flitBytes
    let v ← Op.movePeer m key va peer (.load off k)
    if 2 ^ (8 * k) ≤ v then Op.moveFail .dataPoison va
    let r ← Op.readPeer m peer fuel (key + flitKey) (va + k) (off + k) (n - k)
    return toBytes k v ++ r

/-- Bytes written at a peer, a flit's payload at a time. -/
def Op.writePeer (m : Mover) (peer : Nat) : Nat → Nat → Nat → Nat → List Byte → Op Unit
  | 0, _, _, _, _ => pure ()
  | fuel + 1, key, va, off, bs => do
    if bs.isEmpty then return ()
    let now := bs.take flitBytes
    let _ ← Op.movePeer m key va peer (.store off now.length (ofBytes now))
    Op.writePeer m peer fuel (key + flitKey) (va + now.length) (off + now.length) (bs.drop flitBytes)

/-- Bytes read at a place (R210: owned words are forwarded). -/
def Op.readSpot (m : Mover) (key va n : Nat) (p : Place) : Op (List Byte) := do
  match p with
  | .phys pa => do
    let s ← Op.state
    if s.poisoned pa n then Op.moveFail .dataPoison va
    return s.homeBytes pa n
  | .remote peer off => Op.readPeer m peer (n / flitBytes + 1) key va off n
  | .scratch o => do
    let s ← Op.state
    return match s.task? m.task with
      | some t => t.scratch.bytes o n
      | none => []
  | .vault a => do
    let s ← Op.state
    return s.vault.bytes a n
  | .debug _ => return []

/-- Bytes written at a place; on a coded-pool page the home keeps its registrations (R197). -/
def Op.writeSpot (m : Mover) (key va : Nat) (bs : List Byte) (p : Place × Bool) : Op Unit := do
  match p.1 with
  | .phys pa => do
    let s ← Op.state
    if s.poisoned pa bs.length then Op.moveFail .dataPoison va
    Op.put (if p.2 then s.rawWrite pa bs else s.homeWrite pa bs)
  | .remote peer off => Op.writePeer m peer (bs.length / flitBytes + 1) key va off bs
  | .scratch o => Op.modify fun s => s.modTask m.task fun t => t.setScratch o bs
  | .vault a => Op.modify fun s => { s with vault := s.vault.setBytes a bs }
  | .debug _ => return ()

/-- Bytes from an address to the end of its 64 KiB page. -/
def pageRest (va : Nat) : Nat := 65536 - va % 65536

/-- The number of pages that a range touches, and one more. -/
def pageFuel (n : Nat) : Nat := n / 65536 + 2

/-- A range read page by page. -/
def Op.readRange (m : Mover) (k : Access) (space : Nat) : Nat → Nat → Nat → Nat → Op (List Byte)
  | 0, _, _, _ => pure []
  | fuel + 1, key, va, n => do
    if n = 0 then return []
    let len := if space = 0 then min n (pageRest va) else n
    let p ← Op.spot m k space va len 1
    let bs ← Op.readSpot m key va len p.1
    let r ← Op.readRange m k space fuel (key + 1) ((va + len) % 2 ^ 64) (n - len)
    return bs ++ r

/-- A range written page by page by an access of a kind. -/
def Op.writeAs (m : Mover) (k : Access) (space : Nat) : Nat → Nat → Nat → List Byte → Op Unit
  | 0, _, _, _ => pure ()
  | fuel + 1, key, va, bs => do
    if bs.isEmpty then return ()
    let len := if space = 0 then min bs.length (pageRest va) else bs.length
    let p ← Op.spot m k space va len 1
    Op.writeSpot m key va (bs.take len) p
    Op.writeAs m k space fuel (key + 1) ((va + len) % 2 ^ 64) (bs.drop len)

/-- A range written by an engine. -/
def Op.writeRange (m : Mover) (space fuel key va : Nat) (bs : List Byte) : Op Unit := Op.writeAs m .engineWrite space fuel key va bs

/-- A number read from a global range of at most one page crossing. -/
def Op.readNum (m : Mover) (k : Access) (key va n : Nat) : Op Nat := do
  let bs ← Op.readRange m k 0 2 key va n
  return ofBytes bs

/-- An acquire of a mover: later loads of its core read afresh (R226). -/
def Op.acquireOf (m : Mover) : Op Unit :=
  match m.core with
  | some k => Op.modify (·.acquire k)
  | none => pure ()

/-- A block-index entry read as an acquire (R318). -/
def Op.readEntry (m : Mover) (key va : Nat) : Op Nat := do
  let v ← Op.readNum m .engineRead key va 16
  Op.acquireOf m
  return v

/-- A ring descriptor read by an agent, none when it breaks R134: its address is checked before its alignment, and read after it
(R121). -/
def Op.readRing (m : Mover) (k : Access) (key va : Nat) : Op (Option RingDesc) := fun s =>
  match s.translate m.acc k va 1 with
  | (.error e, s) => Op.moveFail e va 0 s
  | (.ok _, s) => (do
    if va % 64 ≠ 0 then return none
    let v ← Op.readNum m k key va 64
    return RingDesc.parse v : Op (Option RingDesc)) s

/-- A stalagmite of a mover read at its home. -/
def Op.sgValue (m : Mover) (key va : Nat) : Op Nat := do
  let p ← Op.spot m .sgRead 0 va 8 8
  let bs ← Op.readSpot m key va 8 p.1
  return ofBytes bs

/-- An add of a mover as a release (R122, R132): the old value. -/
def Op.sgAddAt (m : Mover) (key va amt : Nat) : Op Nat := do
  let p ← Op.spot m .sgAdd 0 va 8 8
  let old ← match p.1 with
    | .phys pa => do
      let s ← Op.state
      let r := s.sgAddAt pa amt
      Op.put r.2
      pure r.1
    | .remote peer off => Op.ask m.asker key m.acc.ctx va 0 peer (.sgAdd off amt)
    | _ => pure 0
  if old = refused then Op.moveFail .sgOverflow va
  return old

/-! ## Allocation (R319, R320) -/

/-- The pool at an address, with TDESC_INVALID when it breaks R319. -/
def Op.readPool (m : Mover) (key va : Nat) : Op Pool := do
  let v ← Op.readNum m .engineRead key va 256
  match Pool.parse va v with
  | some p => return p
  | none => Op.moveFail .tdescInvalid va

/-- The free ring of a class of a pool. -/
def Op.poolRing (m : Mover) (key : Nat) (p : Pool) (cls : Nat) : Op RingDesc := do
  let va := p.rings.getD cls 0
  match ← Op.readRing m .engineRead key va with
  | some d => if d.freeRing then return d else Op.moveFail .tdescInvalid va
  | none => Op.moveFail .tdescInvalid va

/-- Where an allocation finds an extent (R320): in slot n of a free ring, or at the end of what the bump region has handed out. -/
inductive Extent where
  | slot (d : RingDesc) (n addr : Nat)
  | fresh (bump base old size : Nat)
  deriving DecidableEq, Repr

/-- The address of an extent. -/
def Extent.addr : Extent → Nat
  | .slot _ _ a => a
  | .fresh _ base old _ => (base + old) % 2 ^ 64

/-- The extent that an allocation of a class finds in a pool (R320), with every check and no effect: from its free ring, else from its
bump region, else POOL_EXHAUSTED. -/
def Op.findExtent (m : Mover) (key pool cls : Nat) : Op Extent := do
  let p ← Op.readPool m.plain key pool
  let d ← Op.poolRing m.plain (key + 4) p cls
  let rel ← Op.sgValue m (key + 8) d.rel
  let fill ← Op.sgValue m (key + 9) d.fill
  if rel < fill then
    let x ← Op.readNum m.plain .engineRead (key + 11) (d.slotOf rel) 8
    return .slot d rel x
  else
    let old ← Op.sgValue m (key + 13) p.bump
    if old + 64 * 2 ^ cls ≤ p.limit then return .fresh p.bump p.base old (64 * 2 ^ cls)
    else Op.moveFail .poolExhausted pool

/-- A found extent taken (R320): its address. One taken from a ring acquires FILL. At a peer another allocation may have come between,
and the next extent is taken. -/
def Op.takeExtent (m : Mover) (key : Nat) : Extent → Op Nat
  | .slot d n x => do
    let k ← Op.sgAddAt m (key + 10) d.rel 1
    Op.acquireOf m
    if k = n then return x
    Op.readNum m.plain .engineRead (key + 15) (d.slotOf k) 8
  | .fresh bump base _ size => do
    let n ← Op.sgAddAt m (key + 14) bump size
    return (base + n) % 2 ^ 64

/-- An extent of a class taken from a pool (R320). -/
def Op.allocate (m : Mover) (key pool cls : Nat) : Op Nat := do
  let e ← Op.findExtent m key pool cls
  Op.takeExtent m key e

/-- Room in the deferred-free queue for an old extent (R324): DFQ_INVALID without a valid queue, and with bit 0 of EXTRA when it
is full. -/
def Op.needRoom (ctx : Nat) : Op Unit := do
  let s ← Op.state
  match s.pushBad ctx with
  | some va => Op.moveFail .dfqInvalid va
  | none => if (s.ctx ctx).dfqRoom then pure () else Op.moveFail .dfqInvalid 0 1

/-! ## Placing a coded tile (R311, R324) -/

/-- What publishing a tile will do: the bytes of its block and of its entry with where they go, the extent taken from the pool,
and the old extent that is deferred. -/
structure Placing where
  block : List Piece
  entry : List Piece
  fresh : Option (Nat × Nat)
  old : Option (Nat × Nat)
  deriving DecidableEq, Repr

/-- Where each part of a range of bytes goes, page by page, with the checks that come before any effect; peers take no coded
block (R369). -/
def Op.pieces (m : Mover) : Nat → Nat → List Byte → Op (List Piece)
  | 0, _, _ => pure []
  | fuel + 1, va, bs => do
    if bs.isEmpty then return []
    let len := min bs.length (pageRest va)
    let p ← Op.spot m .engineWrite 0 va len 1
    match p.1 with
    | .phys pa => do
      let r ← Op.pieces m fuel ((va + len) % 2 ^ 64) (bs.drop len)
      return { va := va, pa := pa, comp := p.2, bytes := bs.take len } :: r
    | _ => Op.moveFail .notPresent va

/-- The extent that an old entry names (R324), with its class. -/
def oldExtent (bits : Nat) : Option (Nat × Nat) :=
  let e := BixEntry.ofBits bits
  if bixOk bits && e.v && !e.z then some (e.addr, e.scls) else none

/-- The choice of R324 for a tile: no block, its old extent, or a new one of a class. -/
inductive Where where
  | zero
  | inPlace (addr scls : Nat)
  | fresh (cls : Nat)
  deriving DecidableEq, Repr

/-- Where a block of `len` bytes goes (R324). -/
def whereTo (d : TDesc) (zero_ : Bool) (len : Nat) (old : Option (Nat × Nat)) : Where :=
  if zero_ then .zero
  else
    match old with
    | some (addr, scls) =>
      if !d.reloc && decide ((len + 63) / 64 * 64 ≤ 64 * 2 ^ scls) then .inPlace addr scls else .fresh (sizeClass len)
    | none => .fresh (sizeClass len)

/-- A block with its zero padding to a multiple of 64 bytes (R309). -/
def padBlock (bs : List Byte) : List Byte := bs ++ List.replicate ((64 - bs.length % 64) % 64) 0

/-- A tile encoded and placed (R324): the new extent is found, the room in the deferred-free queue is there and where all bytes go is
known; then the extent is taken, and nothing is written. A block that fits no class has no extent large enough. -/
def Op.place (m : Mover) (key : Nat) (d : TDesc) (slot : Nat) (ct : CodeTable) (t : TileData) (entryVa oldBits : Nat) :
    Op Placing := do
  let old := oldExtent oldBits
  let e := encodeTile d slot ct t
  let entry : BixEntry := { addr := 0, scls := 0, v := true, z := false, len := e.1.length, ttag := e.2 }
  let put (x : BixEntry) : Op (List Piece) := Op.pieces m 2 entryVa (toBytes 16 x.bits)
  let block (va : Nat) : Op (List Piece) := Op.pieces m (pageFuel e.1.length) va (padBlock e.1)
  match whereTo d (t.allZero d) e.1.length old with
  | .zero => do
    if old.isSome then Op.needRoom m.acc.ctx
    return { entry := ← put .zero, block := [], fresh := none, old := old }
  | .inPlace addr scls => do
    return { block := ← block addr, entry := ← put { entry with addr := addr, scls := scls }, fresh := none, old := none }
  | .fresh cls => do
    let e ← Op.findExtent m key d.pool cls
    if old.isSome then Op.needRoom m.acc.ctx
    let parts (x : Nat) : Op Placing := do
      return { block := ← block x, entry := ← put { entry with addr := x, scls := cls }, fresh := some (x, cls), old := old }
    let p ← parts e.addr
    let x ← Op.takeExtent m key e
    if x = e.addr then return p else parts x

/-- The virtual address of the first piece that lies in poisoned memory. -/
def State.poisonedPiece (s : State) (ps : List Piece) : Option Nat :=
  (ps.find? fun (p : Piece) => s.poisoned p.pa p.bytes.length).map fun (p : Piece) => p.va

/-- Pieces written at their homes; on a coded-pool page the home keeps its registrations (R197). -/
def State.writePieces (s : State) (ps : List Piece) : State :=
  ps.foldl (fun (s : State) (p : Piece) => if p.comp then s.rawWrite p.pa p.bytes else s.homeWrite p.pa p.bytes) s

/-- An old extent deferred as a relocation (R324); `pool` is the destination. -/
def Op.relocate (ctx : Nat) (pool : Nat) (old : Option (Nat × Nat)) : Op Unit :=
  match old with
  | none => pure ()
  | some (addr, scls) => Op.pushDeferred ctx addr pool 3 scls

/-- A placed tile written: the block, the entry as a release, and the old extent deferred (R324); poisoned memory stops it
before any write. -/
def Op.publish (ctx pool : Nat) (p : Placing) : Op Unit := do
  let s ← Op.state
  match s.poisonedPiece (p.block ++ p.entry) with
  | some va => Op.moveFail .dataPoison va
  | none => pure ()
  Op.modify fun s => (s.writePieces p.block).writePieces p.entry
  Op.relocate ctx pool p.old

/-! ## Commands -/

/-- The engine of a core: the copy engine, or the part of its cluster's transform engine that serves it (R294, R307). -/
def State.engine (s : State) (core : Nat) (x : Bool) : Engine := if x then (s.core core).xform else (s.core core).copy

/-- The state with an engine changed. -/
def State.modEngine (s : State) (core : Nat) (x : Bool) (f : Engine → Engine) : State :=
  s.modCore core fun c => if x then { c with xform := f c.xform } else { c with copy := f c.copy }

/-- An ENGINE frame about a command (R384): event 0 accepted, 1 complete, 2 fault, 3 discarded. -/
def State.engineFrame (s : State) (cmd : EngineCmd) (x : Bool) (event : Nat) : State :=
  s.traceFrame cmd.task cmd.warp 3
    (toBytes 4 cmd.seq ++ [BitVec.ofNat 8 event, if x then 1 else 0, 0, 0] ++ toBytes 8 cmd.pc)

/-- Queue places in use: released schedule entries take none (R294). -/
def Engine.places (e : Engine) : Nat := (e.queue.filter fun c => !c.fromSched).length

/-- An engine as one that asks peers. -/
def engineAsker (core : Nat) (x : Bool) : Asker := if x then .xform core else .copy core

/-- A ring copy. -/
def CmdKind.isRing : CmdKind → Bool
  | .cpy _ _ _ _ _ ring => ring
  | _ => false

/-- A command that starts again (R300, R301, R308): from its first byte, a CPYT from its first incomplete tile; a ring copy keeps the
slot that FILL counts already. -/
def EngineCmd.again (c : EngineCmd) (x : Bool) : EngineCmd :=
  { c with progress := if x then 0 else c.progress, moved := c.moved && c.kind.isRing, wrote := false }

/-- The mover that carries out a command (R230, R369). -/
def EngineCmd.mover (cmd : EngineCmd) (core : Nat) (x : Bool) : Mover :=
  { asker := engineAsker core x,
    acc := { ctx := cmd.ctx, priv := cmd.priv, cluster := clusterOf core, quarter := none }, task := cmd.task, peers := !x,
    core := some core }

/-- A command takes the next sequence number of its core (R294). -/
def State.accept (s : State) (core : Nat) (x : Bool) (cmd : EngineCmd) : State :=
  let cmd := { cmd with seq := (s.core core).seq.toNat }
  let s := s.modCore core fun c => { c with seq := c.seq + 1 }
  let s := s.modEngine core x fun e => { e with queue := e.queue ++ [cmd] }
  let s := if cmd.hold then s.modWarp cmd.task cmd.warp fun w => { w with held := w.held + 1 } else s
  s.engineFrame cmd x 0

/-- The head of an engine is gone: complete or discarded; its hold is released (R259). -/
def State.endHead (s : State) (core : Nat) (x : Bool) (event : Nat) : State :=
  match (s.engine core x).queue with
  | [] => s
  | cmd :: rest =>
    let s := (s.modEngine core x fun e => { e with st := 0, queue := rest, pushed := false, todo := 0 }).quitWaits
      fun a _ => a == engineAsker core x
    let s := if cmd.hold then s.releaseHold cmd.task cmd.warp else s
    s.engineFrame cmd x event

/-- The code of a failure as the underlying cause of an engine fault, with the page or peer reason above it (R300, R352). -/
def engineExtra (t : Trap) : Nat := t.cause.code + t.extra / 256 % 256 * 256

/-- A command that fails stops its engine, and one record waits for the ring (R300, R308). -/
def State.stopHead (s : State) (core : Nat) (x : Bool) (t : Trap) : State :=
  match (s.engine core x).queue with
  | [] => s
  | cmd :: _ =>
    let r : FaultRec :=
      { cause := if t.cause = .dataPoison then .enginePoison else if x then .xformFault else .copyFault,
        source := if x then 3 else 2, seqv := true, macv := false, coord := t.coord, mslot := 0, unit := core,
        handle := match s.task? cmd.task with
          | some t => t.handle cmd.warp
          | none => 0,
        tmask := 0, done := 0, seq := cmd.seq, pc := cmd.pc, addr := t.addr, bitoff := t.bitoff, tag := cmd.tag.toNat,
        extra := engineExtra t, aux := t.aux, time := s.timeNs, src := (core, if x then 1 else 0) }
    let s := (s.modEngine core x fun e => { e with st := 3, pushed := false, todo := 0 }).quitWaits
      fun a _ => a == engineAsker core x
    (s.queueRecord cmd.ctx r).engineFrame cmd x 2

/-- The head of an engine replaced. -/
def State.modHead (s : State) (core : Nat) (x : Bool) (f : EngineCmd → EngineCmd) : State :=
  s.modEngine core x fun e => match e.queue with
    | [] => e
    | c :: r => { e with queue := f c :: r }

/-- The completion add of a command (R297): none for a VA of 0. -/
def Op.completionAdd (m : Mover) (key : Nat) (cmd : EngineCmd) : Op Unit := do
  if cmd.csg = 0 then return ()
  let _ ← Op.sgAddAt m key cmd.csg.toNat cmd.amt
  return ()

/-- The work of the head of an engine, and how it ends: complete, waiting, or stopped on a fault. -/
def State.runHead (s : State) (core : Nat) (x : Bool) (f : Mover → EngineCmd → Op Bool) : State :=
  match (s.engine core x).queue with
  | [] => s
  | cmd :: _ =>
    let m := cmd.mover core x
    match f m cmd s with
    | .ok (true, s) => (s.endHead core x 1).dropAnswers m.asker
    | .ok (false, s) => s.dropAnswers m.asker
    | .error (.hold s) => s
    | .error (.trapAt s t) => (s.stopHead core x t).dropAnswers m.asker
    | .error _ => s

/-- What a guard says of a command at the head (R302). -/
inductive GuardSays where
  | run
  | held
  | discard
  deriving DecidableEq, Repr

/-- The guard of the head of an engine; a False one has discarded its command for good (R302). -/
def State.guardOf (s : State) (cmd : EngineCmd) : GuardSays :=
  if cmd.dropped then .discard else
  match cmd.guarded with
  | none => .run
  | some n =>
    match s.task? cmd.task with
    | none => .run
    | some t =>
      match vget t.gd n .unresolved with
      | .unresolved => .held
      | .isTrue => .run
      | .isFalse => .discard

/-- CMD of CECTL and XECTL (R300): RETRY and DROP act in state 3, once the record is taken (R358). -/
def State.engineCommand (s : State) (core : Nat) (x : Bool) (cmd : Nat) : State :=
  let e := s.engine core x
  if e.st ≠ 3 ∨ (cmd ≠ 1 ∧ cmd ≠ 2) then s
  else if !e.pushed then s.modEngine core x fun e => { e with todo := cmd }
  else if cmd = 1 then
    let s := s.modHead core x (·.again x)
    s.modEngine core x fun e => { e with st := 0, pushed := false, todo := 0 }
  else s.endHead core x 3

/-- An engine stands stopped on a head that a pre-emption has taken stopped, with what had come of its record (R301, R358). -/
def State.standStopped (s : State) (core : Nat) (x : Bool) : State :=
  let e := s.engine core x
  match e.queue.head?.bind fun c => c.stopped with
  | none => s
  | some (taken, todo) =>
    if e.st ≠ 0 then s
    else
      let s := s.modHead core x fun c => { c with stopped := none }
      let s := s.modEngine core x fun e => { e with st := 3, pushed := taken, todo := 0 }
      if todo = 0 then s else s.engineCommand core x todo

/-- The next command of an engine comes to its head (R294, R302): it runs, is held on its guard, or is discarded with its
completion add; one that was stopped on a fault stands there again. -/
def State.startHead (s : State) (core : Nat) (x : Bool) : State :=
  let e := s.engine core x
  match e.queue with
  | [] => s
  | cmd :: _ =>
    if !(e.st == 0 || e.st == 2) || !s.mayRun cmd.ctx then s
    else if cmd.stopped.isSome then s.standStopped core x
    else
      match s.guardOf cmd with
      | .run => s.modEngine core x fun e => { e with st := 1 }
      | .held => s.modEngine core x fun e => { e with st := 2 }
      | .discard =>
        let m := cmd.mover core x
        match Op.completionAdd m 0 cmd (s.modHead core x fun c => { c with dropped := true }) with
        | .ok (_, s) => (s.endHead core x 3).dropAnswers m.asker
        | .error (.hold s) => s
        | .error (.trapAt s t) => (s.stopHead core x t).dropAnswers m.asker
        | .error _ => s

/-- CECTL and XECTL as they are read (R300). -/
def State.engineReg (s : State) (core : Nat) (x : Bool) : W64 :=
  let e := s.engine core x
  BitVec.ofNat 64 ((s.core core).seq.toNat * 2 ^ 32 + e.st * 2 ^ 24 + ((if x then 8 else 32) - e.places))

/-- The engine command of an instruction of a warp. -/
def Ctx.command (c : Ctx) (s : State) (w : Warp) (kind : CmdKind) (csg : W64) (amt : Nat) (sel : Nat) : EngineCmd :=
  { seq := 0, pc := c.pc.toNat, task := c.task, warp := c.warp, ctx := c.ctx, kid := c.kid, priv := c.priv, kind := kind,
    csg := csg, amt := amt, guarded := if sel.testBit 5 then some (sel % 32) else none, hold := w.depth != 0,
    fromSched := false, kept := none, progress := 0, moved := false, was := none, wrote := false, dropped := false, stopped := none,
    tag := match s.kernel? c.kid with
      | some k => k.tag
      | none => 0 }

/-- A command queued for a unit (R296): refused when the engine is full, else its sequence number is the result. -/
def Op.enqueue (c : Ctx) (h : Head) (pi : Nat) (x : Bool) (t : Tid) (cmd : EngineCmd) : Op Unit := do
  let s ← Op.state
  let full := decide ((if x then 8 else 32) ≤ (s.engine c.core x).places)
  if !full then Op.modify fun s => s.accept c.core x cmd
  Op.commit c [t]
  Op.modWarp c fun w =>
    let w := if full then w else putResult c h .w32 w t ((s.core c.core).seq.setWidth 64)
    putPred c pi w t (!full)

end Sys2Proof.Machine
end

