-- ==== Sys2Proof/Machine/CopyInstr.lean ====
section
/-!
DEFINITION. Copy commands, guards and the static copy schedule (R295 to R306): the instructions, and the steps of the copy
engine.
-/

namespace Sys2Proof.Machine

open Sys2Proof

/-! ## Operands (R295) -/

/-- The encoding of a copy instruction. -/
def copyEnc (prof : Nat) (a b : Width) (imm : Nat) (k : EWord) : Enc :=
  { prof := prof, d := .dst .w32, a := .src a false, b := .src b false, c := .src .w128 false, result := true,
    reserved := eBad k (k.pi != 7) (k.sub == 0) true
      (decide (k.imm.toNat ≤ imm) && k.imm.extractLsb' 0 2 != 3 && k.imm.extractLsb' 2 2 != 3
        && !(k.imm.getLsbD 4 && k.imm.extractLsb' 2 2 != 0)) }

/-- The completion stalagmite, amount and length or count in C (R295). -/
structure Completion where
  csg : W64
  amt : Nat
  len : Nat
  deriving DecidableEq, Repr

/-- C of a copy or transform command. -/
def completionOf (c : Ctx) (w : Warp) (t : Tid) (sel : Selector) : Completion :=
  let q := read128 c w t sel
  { csg := q.1, amt := bitsOf q.2.toNat 31 0, len := bitsOf q.2.toNat 63 32 }

/-- Two ranges of `n` bytes overlap, modulo 2 to the power 64 (R296). -/
def rangesMeet (a b : W64) (n : Nat) : Bool := decide ((b - a).toNat < n) || decide ((a - b).toNat < n)

/-- The rows of two sides of a copy overlap (R296). -/
def rowsMeet (src dst : W64) (sstr dstr : W32) (rows n : Nat) : Bool :=
  (List.range rows).any fun i => (List.range rows).any fun j =>
    rangesMeet (src + sstr.signExtend 64 * BitVec.ofNat 64 i) (dst + dstr.signExtend 64 * BitVec.ofNat 64 j) n

/-- The limits of R295 and the overlap rule of R296. -/
def CmdKind.copyOk : CmdKind → Bool
  | .cpy src dst len ss ds ring =>
    decide (1 ≤ len) && decide (len ≤ 2 ^ 31) && !(!ring && ss == ds && rangesMeet src dst len)
  | .cpy2 src dst sstr dstr rows len ss ds =>
    decide (1 ≤ len) && decide (len ≤ 2 ^ 31) && decide (1 ≤ rows) && decide (rows ≤ 2 ^ 20)
      && !(ss == ds && rowsMeet src dst sstr dstr rows len)
  | .cpyt src dst _ n => decide (1 ≤ n) && decide (n ≤ 65536) && !rangesMeet src dst (16 * n)
  | .xform .. => true

/-- The command of a unit of CPY. -/
def cpyKind (c : Ctx) (w : Warp) (k : EWord) (t : Tid) : CmdKind :=
  .cpy (read64 c w t k.h.a) (read64 c w t k.h.b) (completionOf c w t k.h.c).len (k.imm.extractLsb' 0 2).toNat
    (k.imm.extractLsb' 2 2).toNat (k.imm.getLsbD 4)

/-- The command of a unit of CPY2. -/
def cpy2Kind (c : Ctx) (w : Warp) (k : EWord) (t : Tid) : CmdKind :=
  let a := read128 c w t k.h.a
  let b := read128 c w t k.h.b
  .cpy2 a.1 b.1 (a.2.setWidth 32) (b.2.setWidth 32) (bitsOf a.2.toNat 63 32) (completionOf c w t k.h.c).len
    (k.imm.extractLsb' 0 2).toNat (k.imm.extractLsb' 2 2).toNat

/-- The command of a unit of CPYT. -/
def cpytKind (c : Ctx) (w : Warp) (k : EWord) (t : Tid) : CmdKind :=
  let a := read128 c w t k.h.a
  .cpyt a.1 a.2 (read64 c w t k.h.b) (completionOf c w t k.h.c).len

/-- The check of a unit's copy command (R295, R296). `extra`: another limit of the operands. -/
def Op.copyCheck (kind : Ctx → Warp → EWord → Tid → CmdKind) (extra : Ctx → Warp → EWord → Tid → Bool) (c : Ctx) (k : EWord)
    (t : Tid) : Op CmdKind := do
  let w ← Op.warp c
  if (kind c w k t).copyOk = false ∨ extra c w k t = false then Op.trap .copyInvalid (c.maskAt t)
  return kind c w k t

/-- A unit's copy command joins its core's queue (R294, R296). -/
def copyAct (c : Ctx) (k : EWord) (t : Tid) (x : CmdKind) : Op Unit := do
  let w ← Op.warp c
  let s ← Op.state
  let z := completionOf c w t k.h.c
  Op.enqueue c k.h k.pi.toNat false t (c.command s w x z.csg z.amt k.sel.toNat)

/-- The placing of copy commands, thread by thread (R296). -/
def copyRun (kind : Ctx → Warp → EWord → Tid → CmdKind) (extra : Ctx → Warp → EWord → Tid → Bool) (c : Ctx) (k : EWord) :
    Op Unit :=
  Op.each c (Op.copyCheck kind extra c k) (copyAct c k)

/-- The fields of CPY. -/
def encOfCpy : EWord → Enc := copyEnc 2 .w64 .w64 31

/-- CPY (R296). -/
def execCpy (w : EWord) (s : State) : Out :=
  issueE encOfCpy w .straight (copyRun cpyKind fun _ _ _ _ => true) s

/-- The fields of CPY2. -/
def encOfCpy2 : EWord → Enc := copyEnc 2 .w128 .w128 15

/-- The upper half of B's second word is zero (R295). -/
def cpy2Plain (c : Ctx) (w : Warp) (k : EWord) (t : Tid) : Bool := (read128 c w t k.h.b).2.extractLsb' 32 32 == 0

/-- CPY2 (R296). -/
def execCpy2 (w : EWord) (s : State) : Out :=
  issueE encOfCpy2 w .straight
    (copyRun cpy2Kind cpy2Plain) s

/-- The fields of CPYT. -/
def encOfCpyt : EWord → Enc := copyEnc 3 .w128 .w64 0

/-- CPYT (R299). -/
def execCpyt (w : EWord) (s : State) : Out :=
  issueE encOfCpyt w .straight (copyRun cpytKind fun _ _ _ _ => true) s

/-! ## Guards (R302, R303) -/

/-- The encoding of GSET and GCLR; `value`: the word has a value bit. -/
def guardEnc (subMax : Nat) (value : Bool) (k : EWord) : Enc :=
  { prof := 2, umode := .one, a := if value && k.sub == 1 then .sSrc .w64 else .none,
    reserved := eBad k (noPi k) (decide (k.sub.toNat ≤ subMax)) (k.sel == 0)
      (k.imm.extractLsb' 5 3 == 0 && k.imm.extractLsb' 9 23 == 0 && (!k.imm.getLsbD 8 || (value && k.sub == 0))) }

/-- The fields of GSET. -/
def encOfGset : EWord → Enc := guardEnc 1 true

/-- GSET (R303). -/
def execGset (w : EWord) (s : State) : Out :=
  issueE encOfGset w .straight (fun c k => do
    if c.parts.isEmpty then return ()
    let w ← Op.warp c
    let t ← Op.task c
    let n := k.imm.toNat % 32
    if vget t.gd n .unresolved ≠ .unresolved then Op.trap .guardInvalid (maskOf c.active)
    let yes := if k.sub = 1 then vget w.s (k.h.a.toNat - 0x80) 0 != 0 else k.imm.getLsbD 8
    Op.modify fun s => s.modTask c.task fun t => { t with gd := vset t.gd n (if yes then .isTrue else .isFalse) }) s

/-- The fields of GCLR. -/
def encOfGclr : EWord → Enc := guardEnc 0 false

/-- GCLR (R303). -/
def execGclr (w : EWord) (s : State) : Out :=
  issueE encOfGclr w .straight (fun c k => do
    if c.parts.isEmpty then return ()
    Op.modify fun s => s.modTask c.task fun t => { t with gd := vset t.gd (k.imm.toNat % 32) .unresolved }) s

/-! ## The static copy schedule (R304 to R306) -/

/-- The command of a schedule entry, for a task and the PC that releases it (R305). -/
def SchedEntry.command (e : SchedEntry) (s : State) (t : Task) (warp pc : Nat) : EngineCmd :=
  { seq := 0, pc := pc, task := t.id, warp := warp, ctx := t.ctx, kid := t.kid, priv := s.privCtx t.ctx,
    kind := .cpy2 e.src e.dst e.sstr e.dstr e.rows e.len e.sspace e.dspace, csg := e.csg, amt := e.amt, guarded := e.guarded,
    hold := false, fromSched := true, kept := none, progress := 0, moved := false, was := none, wrote := false, dropped := false,
    stopped := none,
    tag := match s.kernel? t.kid with
      | some k => k.tag
      | none => 0 }

/-- The entries whose STAGE the counter has reached are released in index order (R305). -/
def State.releaseSchedule (s : State) (task warp pc : Nat) : State :=
  match s.task? task with
  | none => s
  | some t =>
    let due := (t.sched.drop t.released).takeWhile fun e => decide (e.stage ≤ t.stage)
    let s := due.foldl (fun s e => s.accept (t.core.getD 0) false (e.command s t warp pc)) s
    s.modTask task fun t => { t with released := t.released + due.length }

/-- The fields of STADV. -/
def encOfStadv (k : EWord) : Enc :=
  { prof := 2, umode := .one, d := .sDst .w64, result := true,
    reserved := eBad k (noPi k) (k.sub == 0) (k.sel == 0) (k.imm != 0) }

/-- STADV (R306). -/
def execStadv (w : EWord) (s : State) : Out :=
  issueE encOfStadv w .straight (fun c k => do
    if c.parts.isEmpty then return ()
    let t ← Op.task c
    if t.sched.isEmpty ∨ 2 ^ 32 ≤ t.stage + k.imm.toNat then Op.trap .stageMisuse (maskOf c.active)
    Op.commit c c.active
    Op.modify fun s => (s.modTask c.task fun t => { t with stage := t.stage + k.imm.toNat }).releaseSchedule c.task c.warp
      c.pc.toNat
    Op.modWarp c fun w => putUniform c k.h .w64 w (BitVec.ofNat 64 t.stage)) s

/-! ## The copy engine at work (R294, R297 to R299) -/

/-- One row copied, page by page of both sides (R297). -/
def Op.copyRow (m : Mover) (ss ds : Nat) : Nat → Nat → Nat → Nat → Nat → Op Unit
  | 0, _, _, _, _ => pure ()
  | fuel + 1, key, src, dst, n => do
    if n = 0 then return ()
    let len := min n (min (pageRest src) (pageRest dst))
    let a ← Op.spot m .engineRead ss src len 1
    let b ← Op.spot m .engineWrite ds dst len 1
    let bs ← Op.readSpot m key src len a.1
    Op.writeSpot m (key + 1) dst bs b
    Op.copyRow m ss ds fuel (key + 2) ((src + len) % 2 ^ 64) ((dst + len) % 2 ^ 64) (n - len)

/-- Rows in increasing order (R297). -/
def Op.copyRows (m : Mover) (ss ds : Nat) (sstr dstr : W32) (len : Nat) : Nat → Nat → W64 → W64 → Op Unit
  | 0, _, _, _ => pure ()
  | rows + 1, key, src, dst => do
    let fuel := 2 * (len / 65536) + 3
    Op.copyRow m ss ds fuel key src.toNat dst.toNat len
    Op.copyRows m ss ds sstr dstr len rows (key + 2 * fuel) (src + sstr.signExtend 64) (dst + dstr.signExtend 64)

/-- The block of a tile copied unchanged to a new extent (R299): its address. DESIGN CHOICE (log 143): a class above 10 names no extent,
and is BIX_ENTRY. -/
def Op.copyBlock (m : Mover) (core : Nat) (cmd : EngineCmd) (e : BixEntry) (va pool : Nat) : Op Nat := do
  if 10 < e.scls then Op.moveFail .bixEntry va
  let x ← match cmd.kept with
    | some x => pure x
    | none => do
      let x ← Op.allocate m 10 pool e.scls
      Op.modify fun s => s.modHead core false fun c => { c with kept := some x }
      pure x
  let bs ← Op.readRange m .engineRead 0 (pageFuel e.len) 100 e.addr e.len
  Op.writeRange m 0 (pageFuel e.len) 10000 x bs
  return x

/-- An old extent can be deferred now: a deferred-free queue without room holds the command (R299). -/
def Op.deferable (ctx : Nat) (old : Option (Nat × Nat)) : Op Unit := do
  let s ← Op.state
  if old.isSome then
    match s.pushBad ctx with
    | some va => Op.moveFail .dfqInvalid va
    | none => if (s.ctx ctx).dfqRoom = false then Op.holdHere

/-- The destination entry as it stood before its tile was written, read once (R299). -/
def Op.oldEntry (m : Mover) (core : Nat) (cmd : EngineCmd) (va : Nat) : Op Nat :=
  match cmd.was with
  | some v => pure v
  | none => do
    let v ← Op.readNum m .engineRead 2 va 16
    Op.modify fun s => s.modHead core false fun c => { c with was := some v }
    return v

/-- A copy of a tile on the COPY path (R299): its block goes unchanged to a new extent, the destination entry is written as a release, and
the extent that it named is deferred. -/
def Op.copyTile (m : Mover) (core : Nat) (cmd : EngineCmd) (src dst pool : W64) : Op Unit := do
  let i := cmd.progress
  let sva := (src.toNat + 16 * i) % 2 ^ 64
  let dva := (dst.toNat + 16 * i) % 2 ^ 64
  let bits ← Op.readEntry m 0 sva
  let e := BixEntry.ofBits bits
  if e.v = false ∨ chkOk bits = false then Op.moveFail .bixEntry sva
  let x ← if e.z then pure 0 else Op.copyBlock m core cmd e sva pool.toNat
  let oldBits ← Op.oldEntry m core cmd dva
  Op.deferable cmd.ctx (oldExtent oldBits)
  Op.writeRange m 0 2 4 dva (toBytes 16 (moveEntry bits x (if e.z then 0 else e.scls)))
  Op.relocate cmd.ctx pool.toNat (oldExtent oldBits)
  Op.modify fun s => s.modHead core false fun c => { c with progress := i + 1, kept := none, was := none }

/-- COPY_COMMAND_START (R294, R302). -/
def execCopyCommandStart (core : Nat) (s : State) : Out :=
  s.keeping <| .next (s.startHead core false)

/-- The head of the copy engine runs and its context may. -/
def State.copyRuns (s : State) (core : Nat) : Option EngineCmd :=
  let e := s.engine core false
  match e.queue with
  | [] => none
  | cmd :: _ => if e.st == 1 && s.mayRun cmd.ctx then some cmd else none

/-- The bytes of a copy moved, once; then its completion add (R297). -/
def Op.copyThenAdd (core : Nat) (m : Mover) (cmd : EngineCmd) (bytes : Op Unit) : Op Bool := do
  if !cmd.moved then
    bytes
    Op.modify fun s => s.modHead core false fun c => { c with moved := true }
  Op.completionAdd m 0 cmd
  return true

/-- The work of a command that is no ring copy, up to its completion add (R297, R299). -/
def Op.copyWork (core : Nat) (m : Mover) (cmd : EngineCmd) : Op Bool := do
  match cmd.kind with
  | .cpy src dst len ss ds _ => Op.copyThenAdd core m cmd (Op.copyRows m ss ds 0 0 len 1 10 src dst)
  | .cpy2 src dst sstr dstr rows len ss ds => Op.copyThenAdd core m cmd (Op.copyRows m ss ds sstr dstr len rows 10 src dst)
  | .cpyt src dst pool count => do
    if cmd.progress < count then
      Op.copyTile m core cmd src dst pool
      return false
    Op.completionAdd m 0 cmd
    return true
  | .xform .. => return true

/-- COPY_COMMAND_COMPLETE (R297, R299, R300): the bytes are moved and the completion add is made; of a CPYT, each time one tile. -/
def execCopyCommandComplete (core : Nat) (s : State) : Out :=
  s.keeping <|
  match s.copyRuns core with
  | some cmd => .next (if cmd.kind.isRing then s else s.runHead core false (Op.copyWork core))
  | none => .next s

/-- The ring of a ring copy, with its faults (R298). -/
def Op.copyRing (m : Mover) (dst : W64) (len : Nat) : Op RingDesc := do
  let va := dst.toNat
  match ← Op.readRing m .engineRead 1 va with
  | some d => if len ≤ d.slot then return d else Op.moveFail .ringMisuse va
  | none => Op.moveFail .ringMisuse va

/-- A ring copy (R298): slot FILL is written once the engine's wait on REL is satisfied (R132), FILL grows by one, and then comes the
completion add. -/
def Op.ringWork (core : Nat) (m : Mover) (cmd : EngineCmd) : Op Bool := do
  match cmd.kind with
  | .cpy src dst len ss _ _ => do
    if !cmd.moved then
      let d ← Op.copyRing m dst len
      let n ← match cmd.kept with
        | some n => pure n
        | none => do
          let n ← Op.sgValue m 3 d.fill
          Op.modify fun s => s.modHead core false fun c => { c with kept := some n }
          pure n
      if !cmd.wrote then
        let slot := d.slotOf n
        if ss = 0 ∧ rangesMeet src (BitVec.ofNat 64 slot) len = true then Op.moveFail .copyInvalid slot
        let room ← Op.agentWait m.asker 5 cmd.ctx d.rel (n + 1 - 2 ^ d.logcap)
        if !room then return false
        Op.copyRows m ss 0 0 0 len 1 10 src (BitVec.ofNat 64 slot)
        Op.modify fun s => s.modHead core false fun c => { c with wrote := true }
      let _ ← Op.sgAddAt m 7 d.fill 1
      Op.modify fun s => s.modHead core false fun c => { c with moved := true }
    Op.completionAdd m 0 cmd
    return true
  | _ => return true

/-- RING_COPY_WRITE (R298). -/
def execRingCopyWrite (core : Nat) (s : State) : Out :=
  s.keeping <|
  match s.copyRuns core with
  | some cmd => .next (if cmd.kind.isRing then s.runHead core false (Op.ringWork core) else s)
  | none => .next s

/-- COPY_ENGINE_RETRY (R300). -/
def execCopyEngineRetry (core : Nat) (s : State) : Out :=
  s.keeping <| .next (s.engineCommand core false 1)

/-- COPY_ENGINE_DROP (R300). -/
def execCopyEngineDrop (core : Nat) (s : State) : Out :=
  s.keeping <| .next (s.engineCommand core false 2)

end Sys2Proof.Machine
end

