-- ==== Sys2Proof/Machine/Launch.lean ====
section
/-!
DEFINITION. Launch records and group tables (R144, R145, R175, R176): how the distributor reads and judges them.
-/

namespace Sys2Proof.Machine

open Sys2Proof

/-! ## Reads of the distributor -/

/-- The distributor reads and adds in a context's address space, as one of its agents (R132, R230). -/
def State.agentMover (s : State) (who : Asker) (ctx : Nat) : Mover :=
  { asker := who, acc := s.agentWho ctx, task := 0, peers := true, core := none }

/-- Bytes that the distributor reads, page by page. -/
def Op.fetchBytes (who : Asker) (ctx key va n : Nat) : Op (List Byte) := do
  let s ← Op.state
  Op.readRange (s.agentMover who ctx) .load 0 (pageFuel n) key va n

/-- A number that the distributor reads. -/
def Op.fetchNum (who : Asker) (ctx key va n : Nat) : Op Nat := do
  let bs ← Op.fetchBytes who ctx key va n
  return ofBytes bs

/-- A failure of an operation handed to what follows it. -/
def Op.onFail {α : Type} (f : Op α) (h : Trap → Op α) : Op α := fun s =>
  match f s with
  | .error (.trapAt s t) => h t s
  | .error (.trap t) => h t s
  | r => r

/-! ## The launch record (R144, R145) -/

/-- Bytes of a record as a number: `n` bytes from byte `o` on. -/
def bytesAt (v o n : Nat) : Nat := bitsOf v (8 * (o + n) - 1) (8 * o)

/-- The byte offsets of the VA fields that the head's validation checks; a dependence, condition, trigger, completion or status address is
checked when it is used, and AFFBASE is no address that is used (R145). -/
def launchVas : List Nat := [0, 8, 16, 32, 48, 64, 80]

/-- The fields of a launch record. -/
def LaunchRec.ofBits (v : Nat) : LaunchRec :=
  let u := bytesAt v
  let va (o : Nat) : W64 := BitVec.ofNat 64 (u o 8)
  { entry := va 0, rtab := va 8, macros := va 16, macmask := va 24, tdtab := va 32, tdmask := BitVec.ofNat 16 (u 40 2),
    ctmask := BitVec.ofNat 16 (u 42 2), prof := u 44 1, warps := u 45 1, regs := u 46 1, spad := u 47 1, cttab := va 48,
    tiles := u 56 1, planes := u 57 1, place := u 58 1, order := u 59 1, prio := u 60 1, cscnt := u 61 1, vault := u 62 2,
    gtab := va 64, gcnt := u 72 2, ctn := u 74 1, tlimit := u 76 4, csched := va 80, gx := u 88 4, gy := u 92 4, gz := u 96 4,
    cblk := u 100 4, affbase := va 104, deps := (List.range 4).map fun i => (va (112 + 16 * i), u (120 + 16 * i) 8),
    cond := va 176, trigsg := va 184, donesg := va 192, trigamt := u 200 4, doneamt := u 204 4, status := va 208 }

/-- The points of the grid. -/
def LaunchRec.points (r : LaunchRec) : Nat := r.gx * r.gy * r.gz

/-- The fields of a record are within their ranges and its addresses aligned (R144, R145). -/
def launchFieldsOk (v : Nat) : Bool :=
  let r := LaunchRec.ofBits v
  (launchVas.all fun o => decide (bytesAt v o 8 < 2 ^ 56)) && bytesAt v 75 1 == 0 && bytesAt v 216 40 == 0
    && r.entry.toNat % 64 % 12 == 0 && decide (r.entry.toNat % 64 ≤ 48)
    && decide (1 ≤ r.prof) && decide (r.prof ≤ 3) && decide (r.warps ≤ 31) && decide (r.regs ≤ 3) && decide (r.spad ≤ 32)
    && decide (r.tiles ≤ 64) && decide (r.planes ≤ 4) && decide (r.place ≤ 2) && decide (r.order ≤ 5) && decide (r.prio ≤ 7)
    && decide (r.cscnt ≤ 64) && decide (r.vault ≤ 160) && decide (r.gcnt ≤ 256) && decide (r.ctn ≤ 16) && decide (r.cblk ≤ 8)
    && r.rtab.toNat % 32 == 0 && r.macros.toNat % 384 == 0 && r.tdtab.toNat % 64 == 0 && r.cttab.toNat % 32 == 0
    && r.gtab.toNat % 64 == 0 && r.csched.toNat % 64 == 0

/-- A record that needs a table names it, and the grid has points (R145). -/
def LaunchRec.tablesOk (r : LaunchRec) : Bool :=
  (r.macmask == 0 || r.macros != 0) && (r.tdmask == 0 || r.tdtab != 0) && (r.ctmask == 0 || r.cttab != 0)
    && r.ctmask.toNat / 2 ^ r.ctn == 0 && (r.cscnt == 0 || r.csched != 0) && (r.gcnt == 0 || r.gtab != 0)
    && r.points != 0 && decide (r.points ≤ 2 ^ 32)

/-- A record that a queue may launch (R145), but for its group table. -/
def launchOk (v prof : Nat) (aff : Bool) (args : Nat) : Bool :=
  let r := LaunchRec.ofBits v
  launchFieldsOk v && r.tablesOk && decide (r.prof ≤ prof) && (r.place != 2 || aff) && args % 64 == 0

/-- g registers of a thread (R144 REGS). -/
def LaunchRec.regCount (r : LaunchRec) : Nat := 32 * (r.regs + 1)

/-! ## The group table (R175, R176) -/

/-- An entry of the group table with its bitmap. -/
structure GroupEntry where
  bar : Nat
  memb : Nat
  nmem : Nat
  tspan : Nat
  bits : Nat
  deriving DecidableEq, Repr

/-- The fields of an entry in 64 bytes, none when one breaks R175. -/
def GroupEntry.parse (points v : Nat) : Option GroupEntry :=
  let g : GroupEntry := { bar := bytesAt v 0 8, memb := bytesAt v 8 8, nmem := bytesAt v 16 4, tspan := bytesAt v 20 4, bits := 0 }
  if g.bar % 32 = 0 ∧ g.memb % 8 = 0 ∧ 1 ≤ g.nmem ∧ 1 ≤ g.tspan ∧ g.tspan ≤ min 65536 points ∧ bytesAt v 24 40 = 0 then some g
  else none

/-- The members among the first `n` bits. -/
def membersBelow (bits n : Nat) : Nat := ((List.range n).filter fun i => bits.testBit i).length

/-- The entries of a group table with their bitmaps; none for an entry that breaks R175. -/
def Op.readGroups (who : Asker) (ctx : Nat) (r : LaunchRec) (key : Nat) : Nat → Nat → Op (List (Option GroupEntry))
  | 0, _ => pure []
  | n + 1, i => do
    let v ← Op.fetchNum who ctx (key + 8 * i) (r.gtab.toNat + 64 * i) 64
    let g ← match GroupEntry.parse r.points v with
      | none => pure none
      | some g => do
        let bits ← Op.fetchNum who ctx (key + 2 + 8 * i) g.memb (4 * g.tspan)
        pure (some { g with bits := bits })
    let rest ← Op.readGroups who ctx r key n (i + 1)
    return g :: rest

/-- One group agrees with its bitmap and names no warp above WARPS (R176). -/
def GroupEntry.ok (g : GroupEntry) (warps : Nat) : Bool :=
  membersBelow g.bits (32 * g.tspan) == g.nmem
    && (List.range g.tspan).all fun i => g.bits / 2 ^ (32 * i) % 2 ^ 32 / 2 ^ (warps + 1) == 0

/-- The warps that more than four of some bitmaps name, as a bitmap: a count of members in three bit planes. -/
def overFour (bs : List Nat) : Nat :=
  (bs.foldl (fun (x : Nat × Nat × Nat × Nat) b =>
    let ones := x.1
    let twos := x.2.1
    let four := x.2.2.1
    (ones ^^^ b, twos ^^^ (ones &&& b), four ||| (twos &&& (ones &&& b)), x.2.2.2 ||| (four &&& b))) (0, 0, 0, 0)).2.2.2

/-- The group table is valid (R176). -/
def groupsOk (gs : List (Option GroupEntry)) (warps : Nat) : Bool :=
  gs.all (fun g => match g with
    | some g => g.ok warps
    | none => false) && overFour (gs.filterMap fun g => g.map (·.bits)) == 0

/-- The group slots of a warp of a task (R177): of the groups that contain it the four lowest, and whether there are more. -/
def slotsOf (gs : List (Option GroupEntry)) (index warp : Nat) : List GroupSlot × Bool :=
  let bit := 32 * index + warp
  let mine := (gs.zipIdx.filterMap fun p => p.1.bind fun g =>
    if index < g.tspan ∧ g.bits.testBit bit = true then
      some ({ num := p.2, bar := BitVec.ofNat 64 g.bar, nmem := g.nmem, rank := membersBelow g.bits bit } : GroupSlot)
    else none)
  (mine.take 4, decide (4 < mine.length))

end Sys2Proof.Machine
end

