-- ==== Sys2Proof/WellFormed.lean ====
section
/-!
DEFINITION. Well-formed instructions: a word's constructor is the one its opcode and fields name (R40, R287), a command's the one
its OPC byte names (R390), and a step names a part of the device that exists (R15, R136, R337).
-/

namespace Sys2Proof

/-- The opcodes that R40 assigns. -/
def opcodeAssigned (op : Nat) : Bool :=
  [(0x001, 0x00E), (0x040, 0x04E), (0x080, 0x08E), (0x0C0, 0x0CF), (0x100, 0x105), (0x110, 0x113), (0x140, 0x141),
    (0x180, 0x186), (0x1C0, 0x1C4), (0x200, 0x204), (0x208, 0x20B), (0x210, 0x213), (0x218, 0x21A), (0x240, 0x243),
    (0x248, 0x24C), (0x280, 0x286), (0x2C0, 0x2C7), (0x300, 0x305), (0x340, 0x343), (0x380, 0x389)].any
    fun r => decide (r.1 ≤ op) && decide (op ≤ r.2)

/-- A command record whose OPC byte is `opc` (R390). -/
def commandOk (opc : Nat) (c : Command) : Bool := c.toNat % 256 == opc

/-- A core of the device (R15). -/
def coreOk (core : Nat) : Bool := decide (core < 192)

/-- A cluster of the device (R15). -/
def clusterOk (cluster : Nat) : Bool := decide (cluster < 48)

/-- A Karst port (R15). -/
def portOk (port : Nat) : Bool := decide (port < 18)

/-- A context slot or a queue (R136, R337). -/
def slotOk (n : Nat) : Bool := decide (n < 64)

/-- A physical address (R184). -/
def paOk (pa : Nat) : Bool := decide (pa < 2 ^ 52)

/-- A class of Karst traffic (R365). -/
def classOk (cls : Nat) : Bool := decide (cls < 3)

/-- The size of an access in bytes. -/
def accessOk (size : Nat) : Bool := size == 4 || size == 8

/-- A warp id of a core (R15). -/
def WarpId.wf (w : WarpId) : Bool := coreOk w.core && decide (w.warp < 128)

/-- A register of a part of the device that exists. -/
def RegTarget.wf : RegTarget → Bool
  | .bar _ => true
  | .system ctx _ _ => slotOk ctx
  | .debug core _ => coreOk core

/-- A message fits the payload of a flit: 240 bytes (R365). -/
def FabricMsg.fits : FabricMsg → Bool
  | .request _ _ op => decide (op.bytes ≤ 240)
  | .response _ _ _ v => decide (v < 2 ^ (8 * 241))
  | .withdraw _ _ | .migrated _ _ => true

/-- A flit of one of the three classes whose message fits it. -/
def Flit.wf (f : Flit) : Bool := classOk f.cls && f.msg.all FabricMsg.fits

/-- A well-formed instruction. -/
def Instr.wf : Instr → Bool
  | .nop _ => true
  | .rgn _ => true
  | .exit _ => true
  | .bra _ => true
  | .brx _ => true
  | .call _ => true
  | .callx _ => true
  | .ret _ => true
  | .loop _ => true
  | .mcall _ => true
  | .ipf _ => true
  | .ifence _ => true
  | .trap _ => true
  | .bkpt _ => true
  | .iadd _ => true
  | .isub _ => true
  | .imul _ => true
  | .imulh _ => true
  | .imad _ => true
  | .iabs _ => true
  | .ineg _ => true
  | .imin _ => true
  | .imax _ => true
  | .icmp _ => true
  | .sel _ => true
  | .mov _ => true
  | .movi _ => true
  | .lea _ => true
  | .addc _ => true
  | .and _ => true
  | .or _ => true
  | .xor _ => true
  | .andn _ => true
  | .shl _ => true
  | .shr _ => true
  | .sar _ => true
  | .rot _ => true
  | .bfx _ => true
  | .bfi _ => true
  | .popc _ => true
  | .clz _ => true
  | .ctz _ => true
  | .brev _ => true
  | .perm _ => true
  | .fadd _ => true
  | .fsub _ => true
  | .fmul _ => true
  | .ffma _ => true
  | .fmin _ => true
  | .fmax _ => true
  | .fcmp _ => true
  | .frcp _ => true
  | .frsq _ => true
  | .fsqrt _ => true
  | .fexp2 _ => true
  | .flog2 _ => true
  | .fsin _ => true
  | .fcos _ => true
  | .fclass _ => true
  | .frnd _ => true
  | .cvt _ => true
  | .pack _ => true
  | .unpk _ => true
  | .qnt _ => true
  | .dqnt _ => true
  | .seed _ => true
  | .shfl _ => true
  | .vote _ => true
  | .wred _ => true
  | .wscan _ => true
  | .plop _ => true
  | .pmov _ => true
  | .ld _ => true
  | .st _ => true
  | .stbm _ => true
  | .pref _ => true
  | .clean _ => true
  | .inval _ => true
  | .evh _ => true
  | .fence _ => true
  | .xfence _ => true
  | .amo _ => true
  | .amocas _ => true
  | .red _ => true
  | .sgadd _ => true
  | .sgwait _ => true
  | .sgtest _ => true
  | .sgread _ => true
  | .sgset _ => true
  | .rgresv _ => true
  | .rgpub _ => true
  | .rgawait _ => true
  | .rgrel _ => true
  | .bjoin _ => true
  | .bleave _ => true
  | .barrive _ => true
  | .bwait _ => true
  | .ginfo _ => true
  | .gbar _ => true
  | .wsync _ => true
  | .sloop _ => true
  | .yield _ => true
  | .pdone _ => true
  | .cend _ => true
  | .rsb _ => true
  | .rse _ => true
  | .gpnum _ => true
  | .gpwait _ => true
  | .dfree _ => true
  | .wload _ => true
  | .wfree _ => true
  | .mmaRegisters w => w.asrc != 1 && w.asrc != 2
  | .mmaTile w => w.asrc == 1
  | .mmaShapeRecord w => w.asrc == 2
  | .accrd _ => true
  | .accwr _ => true
  | .accz _ => true
  | .drain _ => true
  | .tdld _ => true
  | .tld _ => true
  | .tst _ => true
  | .ctld _ => true
  | .ctinv _ => true
  | .bixrd _ => true
  | .xform _ => true
  | .poolq _ => true
  | .cpy _ => true
  | .cpy2 _ => true
  | .cpyt _ => true
  | .stadv _ => true
  | .gset _ => true
  | .gclr _ => true
  | .launch _ => true
  | .spawn _ => true
  | .trig _ => true
  | .taskq _ => true
  | .feat _ => true
  | .implq _ => true
  | .srrd _ => true
  | .srwr _ => true
  | .clk _ => true
  | .resume _ => true
  | .kill _ => true
  | .trcmk _ => true
  | .perfrd _ => true
  | .lnkq _ => true
  | .registerWrite r _ => r.wf
  | .queueEnable q => slotOk q
  | .queueDisable q => slotOk q
  | .queueSuspend q => slotOk q
  | .queueResume q => slotOk q
  | .queueSkip q => slotOk q
  | .queueRetry q => slotOk q
  | .queueDrain q => slotOk q
  | .copyEngineRetry core => coreOk core
  | .copyEngineDrop core => coreOk core
  | .xformEngineRetry core => coreOk core
  | .xformEngineDrop core => coreOk core
  | .tlbinvWrite ctx _ => slotOk ctx
  | .fringWrite ctx _ => slotOk ctx
  | .dresResume w => w.wf
  | .dresKill w => w.wf
  | .traceEnable core _ => coreOk core
  | .bootgo _ => true
  | .mccfgEnable _ => true
  | .mcfill _ => true
  | .create c => commandOk 0x01 c
  | .assign c => commandOk 0x02 c
  | .negotiate c => commandOk 0x03 c
  | .start c => commandOk 0x04 c
  | .preempt c => commandOk 0x05 c
  | .save c => commandOk 0x06 c
  | .restore c => commandOk 0x07 c
  | .migrateOut c => commandOk 0x08 c
  | .migrateIn c => commandOk 0x09 c
  | .teardown c => commandOk 0x0A c
  | .srwrite c => commandOk 0x10 c
  | .srread c => commandOk 0x11 c
  | .warpresume c => commandOk 0x12 c
  | .warpkill c => commandOk 0x13 c
  | .portenable c => commandOk 0x20 c
  | .portdisable c => commandOk 0x21 c
  | .route c => commandOk 0x22 c
  | .exportRange c => commandOk 0x23 c
  | .window c => commandOk 0x24 c
  | .debugset c => commandOk 0x28 c
  | .tlbinv c => commandOk 0x29 c
  | .checkpoint c => commandOk 0x2A c
  | .getVersion _ => true
  | .getCapabilities _ => true
  | .negotiateAlgorithms _ _ _ => true
  | .getDigests _ => true
  | .getCertificate _ _ _ => true
  | .challenge _ _ => true
  | .getMeasurements _ index => decide (index < 256)
  | .powerControlTick _ _ => true
  | .thermalEmergency _ => true
  | .icacheFill core _ => coreOk core
  | .stallSwitch w => w.wf
  | .warpQuantum w => w.wf
  | .stalagmiteAddApply pa _ => paOk pa
  | .wakeDelivery w => w.wf
  | .waitRepresent w => w.wf
  | .sgWaitTimeout w => w.wf
  | .queueHeadRead q => slotOk q
  | .queueHeadSubmit q => slotOk q
  | .queuePriorityAge q => slotOk q
  | .kernelStart _ => true
  | .kernelExpansion _ => true
  | .corePlacement core => coreOk core
  | .taskTimeout _ => true
  | .taskEnd _ => true
  | .kernelComplete _ => true
  | .gracePeriodStart ctx => slotOk ctx
  | .gracePeriodEnd ctx => slotOk ctx
  | .deferredFreeDeliver ctx => slotOk ctx
  | .planeLoadComplete w => w.wf
  | .mmaPortEntry w => w.wf
  | .matrixPass core => coreOk core
  | .passRetire core => coreOk core
  | .drainPublish core => coreOk core
  | .matrixReset core => coreOk core
  | .copyCommandStart core => coreOk core
  | .copyCommandComplete core => coreOk core
  | .ringCopyWrite core => coreOk core
  | .xformCommandStart cluster => clusterOk cluster
  | .xformCommandComplete cluster => clusterOk cluster
  | .ownershipRecall core pa => coreOk core && paOk pa
  | .faultRecordPush ctx => slotOk ctx
  | .portTrained port _ _ _ => portOk port
  | .portTrainingTimeout port => portOk port
  | .portRetrain port => portOk port
  | .flitReceive port f _ => portOk port && f.wf
  | .controlFlit port _ cls _ => portOk port && classOk cls
  | .remoteRequest port => portOk port
  | .remoteResponse port => portOk port
  | .reductionResult pa size _ _ => paOk pa && accessOk size
  | .contextStateError ctx => slotOk ctx
  | .preemptComplete ctx => slotOk ctx
  | .saveComplete ctx => slotOk ctx
  | .migrationAnswer ctx _ => slotOk ctx
  | .teardownRelease ctx => slotOk ctx
  | .unassignedOpcode w => !opcodeAssigned (w.toNat % 1024)
  | .passLeavesArray core => coreOk core
  | .cxlMemAccess _ pa len _ => paOk pa && decide (len ≤ 8)
  | .dbgctlFreeze => true
  | .dbgctlThaw => true
  | .powerGood => true
  | .hostReset => true
  | .imageVerify => true
  | .thermalTrip => true
  | .invalidationComplete => true
  | .checkpointComplete => true
  | .profileCycle => true

end Sys2Proof
end

