-- ==== Sys2Proof/Decode.lean ====
section
/-!
DEFINITION. The decoder, total on any bytes, and the encoder. Bit positions are those of R23 and R24, opcodes
those of R40.
-/

namespace Sys2Proof

/-- Why bytes are no instruction. -/
inductive DecodeError where
  /-- fewer bytes than an instruction word (R17) or a command record (R389) holds -/
  | wrongLength
  /-- a command record whose OPCODE no command has (R390) -/
  | unknownCommand
  deriving DecidableEq, Repr

/-- The field `hi` to `lo` of an instruction word as an `n`-bit vector. -/
def Decode.field (n v lo : Nat) : BitVec n := BitVec.ofNat n (v / 2 ^ lo)

/-- One flag bit of an instruction word. -/
def Decode.flag (v lo : Nat) : Bool := v / 2 ^ lo % 2 == 1

/-- The common fields of a word (R23). -/
def Decode.head (v : Nat) : Head :=
  { u := Decode.flag v 10, ws := Decode.flag v 11, lt := Decode.field 2 v 12, pr := Decode.field 4 v 14,
    d := Decode.field 8 v 18, a := Decode.field 8 v 26, b := Decode.field 8 v 34, c := Decode.field 8 v 42 }

/-- A K-format word (R24). -/
def Decode.kWord (v : Nat) : KWord :=
  { h := Decode.head v, ty := Decode.field 8 v 50, md := Decode.field 6 v 58, imm := Decode.field 32 v 64 }

/-- A J-format word (R24). -/
def Decode.jWord (v : Nat) : JWord :=
  { h := Decode.head v, md := Decode.field 14 v 50, off := Decode.field 32 v 64 }

/-- An M-format word (R24). -/
def Decode.mWord (v : Nat) : MWord :=
  { h := Decode.head v, space := Decode.field 2 v 50, size := Decode.field 4 v 52, ord := Decode.field 2 v 56,
    hint := Decode.field 3 v 58, z := Decode.field 3 v 61, off := Decode.field 32 v 64 }

/-- A T-format word (R24). -/
def Decode.tWord (v : Nat) : TWord :=
  { h := Decode.head v, plane := Decode.field 2 v 50, tile := Decode.field 6 v 52, md := Decode.field 6 v 58,
    osrq := Decode.field 4 v 64, td := Decode.field 4 v 68, ct := Decode.field 4 v 72, asrc := Decode.field 4 v 76,
    atile := Decode.field 6 v 80, z := Decode.field 10 v 86 }

/-- An E-format word (R24). -/
def Decode.eWord (v : Nat) : EWord :=
  { h := Decode.head v, pi := Decode.field 3 v 50, sub := Decode.field 3 v 53, sel := Decode.field 6 v 56,
    z := Decode.field 2 v 62, imm := Decode.field 32 v 64 }

/-- An MMA word: ASRC chooses its row (R287). -/
def Decode.mma (asrc : Nat) (w : TWord) : Instr :=
  match asrc with
  | 1 => .mmaTile w
  | 2 => .mmaShapeRecord w
  | _ => .mmaRegisters w

/-- The instruction of opcode `op` with the fields of the word whose number is `v`; an opcode absent from R40 is the unassigned
row (R41). -/
def Decode.byOpcode (op v : Nat) : Instr :=
  match op with
  | 0x001 => .nop (Decode.kWord v)
  | 0x002 => .rgn (Decode.eWord v)
  | 0x003 => .exit (Decode.eWord v)
  | 0x004 => .bra (Decode.jWord v)
  | 0x005 => .brx (Decode.kWord v)
  | 0x006 => .call (Decode.jWord v)
  | 0x007 => .callx (Decode.kWord v)
  | 0x008 => .ret (Decode.kWord v)
  | 0x009 => .loop (Decode.jWord v)
  | 0x00A => .mcall (Decode.eWord v)
  | 0x00B => .ipf (Decode.jWord v)
  | 0x00C => .ifence (Decode.eWord v)
  | 0x00D => .trap (Decode.eWord v)
  | 0x00E => .bkpt (Decode.eWord v)
  | 0x040 => .iadd (Decode.kWord v)
  | 0x041 => .isub (Decode.kWord v)
  | 0x042 => .imul (Decode.kWord v)
  | 0x043 => .imulh (Decode.kWord v)
  | 0x044 => .imad (Decode.kWord v)
  | 0x045 => .iabs (Decode.kWord v)
  | 0x046 => .ineg (Decode.kWord v)
  | 0x047 => .imin (Decode.kWord v)
  | 0x048 => .imax (Decode.kWord v)
  | 0x049 => .icmp (Decode.kWord v)
  | 0x04A => .sel (Decode.kWord v)
  | 0x04B => .mov (Decode.kWord v)
  | 0x04C => .movi (Decode.kWord v)
  | 0x04D => .lea (Decode.kWord v)
  | 0x04E => .addc (Decode.kWord v)
  | 0x080 => .and (Decode.kWord v)
  | 0x081 => .or (Decode.kWord v)
  | 0x082 => .xor (Decode.kWord v)
  | 0x083 => .andn (Decode.kWord v)
  | 0x084 => .shl (Decode.kWord v)
  | 0x085 => .shr (Decode.kWord v)
  | 0x086 => .sar (Decode.kWord v)
  | 0x087 => .rot (Decode.kWord v)
  | 0x088 => .bfx (Decode.kWord v)
  | 0x089 => .bfi (Decode.kWord v)
  | 0x08A => .popc (Decode.kWord v)
  | 0x08B => .clz (Decode.kWord v)
  | 0x08C => .ctz (Decode.kWord v)
  | 0x08D => .brev (Decode.kWord v)
  | 0x08E => .perm (Decode.kWord v)
  | 0x0C0 => .fadd (Decode.kWord v)
  | 0x0C1 => .fsub (Decode.kWord v)
  | 0x0C2 => .fmul (Decode.kWord v)
  | 0x0C3 => .ffma (Decode.kWord v)
  | 0x0C4 => .fmin (Decode.kWord v)
  | 0x0C5 => .fmax (Decode.kWord v)
  | 0x0C6 => .fcmp (Decode.kWord v)
  | 0x0C7 => .frcp (Decode.kWord v)
  | 0x0C8 => .frsq (Decode.kWord v)
  | 0x0C9 => .fsqrt (Decode.kWord v)
  | 0x0CA => .fexp2 (Decode.kWord v)
  | 0x0CB => .flog2 (Decode.kWord v)
  | 0x0CC => .fsin (Decode.kWord v)
  | 0x0CD => .fcos (Decode.kWord v)
  | 0x0CE => .fclass (Decode.kWord v)
  | 0x0CF => .frnd (Decode.kWord v)
  | 0x100 => .cvt (Decode.kWord v)
  | 0x101 => .pack (Decode.kWord v)
  | 0x102 => .unpk (Decode.kWord v)
  | 0x103 => .qnt (Decode.kWord v)
  | 0x104 => .dqnt (Decode.kWord v)
  | 0x105 => .seed (Decode.kWord v)
  | 0x110 => .shfl (Decode.kWord v)
  | 0x111 => .vote (Decode.kWord v)
  | 0x112 => .wred (Decode.kWord v)
  | 0x113 => .wscan (Decode.kWord v)
  | 0x140 => .plop (Decode.kWord v)
  | 0x141 => .pmov (Decode.kWord v)
  | 0x180 => .ld (Decode.mWord v)
  | 0x181 => .st (Decode.mWord v)
  | 0x182 => .stbm (Decode.mWord v)
  | 0x183 => .pref (Decode.mWord v)
  | 0x184 => .clean (Decode.mWord v)
  | 0x185 => .inval (Decode.mWord v)
  | 0x186 => .evh (Decode.mWord v)
  | 0x1C0 => .fence (Decode.eWord v)
  | 0x1C1 => .xfence (Decode.eWord v)
  | 0x1C2 => .amo (Decode.mWord v)
  | 0x1C3 => .amocas (Decode.mWord v)
  | 0x1C4 => .red (Decode.mWord v)
  | 0x200 => .sgadd (Decode.eWord v)
  | 0x201 => .sgwait (Decode.eWord v)
  | 0x202 => .sgtest (Decode.eWord v)
  | 0x203 => .sgread (Decode.eWord v)
  | 0x204 => .sgset (Decode.eWord v)
  | 0x208 => .rgresv (Decode.eWord v)
  | 0x209 => .rgpub (Decode.eWord v)
  | 0x20A => .rgawait (Decode.eWord v)
  | 0x20B => .rgrel (Decode.eWord v)
  | 0x210 => .bjoin (Decode.eWord v)
  | 0x211 => .bleave (Decode.eWord v)
  | 0x212 => .barrive (Decode.eWord v)
  | 0x213 => .bwait (Decode.eWord v)
  | 0x218 => .ginfo (Decode.eWord v)
  | 0x219 => .gbar (Decode.eWord v)
  | 0x21A => .wsync (Decode.eWord v)
  | 0x240 => .sloop (Decode.eWord v)
  | 0x241 => .yield (Decode.eWord v)
  | 0x242 => .pdone (Decode.eWord v)
  | 0x243 => .cend (Decode.eWord v)
  | 0x248 => .rsb (Decode.eWord v)
  | 0x249 => .rse (Decode.eWord v)
  | 0x24A => .gpnum (Decode.eWord v)
  | 0x24B => .gpwait (Decode.eWord v)
  | 0x24C => .dfree (Decode.eWord v)
  | 0x280 => .wload (Decode.tWord v)
  | 0x281 => .wfree (Decode.tWord v)
  | 0x282 => Decode.mma (bitsOf v 79 76) (Decode.tWord v)
  | 0x283 => .accrd (Decode.tWord v)
  | 0x284 => .accwr (Decode.tWord v)
  | 0x285 => .accz (Decode.tWord v)
  | 0x286 => .drain (Decode.tWord v)
  | 0x2C0 => .tdld (Decode.tWord v)
  | 0x2C1 => .tld (Decode.tWord v)
  | 0x2C2 => .tst (Decode.tWord v)
  | 0x2C3 => .ctld (Decode.tWord v)
  | 0x2C4 => .ctinv (Decode.tWord v)
  | 0x2C5 => .bixrd (Decode.tWord v)
  | 0x2C6 => .xform (Decode.eWord v)
  | 0x2C7 => .poolq (Decode.eWord v)
  | 0x300 => .cpy (Decode.eWord v)
  | 0x301 => .cpy2 (Decode.eWord v)
  | 0x302 => .cpyt (Decode.eWord v)
  | 0x303 => .stadv (Decode.eWord v)
  | 0x304 => .gset (Decode.eWord v)
  | 0x305 => .gclr (Decode.eWord v)
  | 0x340 => .launch (Decode.eWord v)
  | 0x341 => .spawn (Decode.eWord v)
  | 0x342 => .trig (Decode.eWord v)
  | 0x343 => .taskq (Decode.eWord v)
  | 0x380 => .feat (Decode.eWord v)
  | 0x381 => .implq (Decode.eWord v)
  | 0x382 => .srrd (Decode.eWord v)
  | 0x383 => .srwr (Decode.eWord v)
  | 0x384 => .clk (Decode.eWord v)
  | 0x385 => .resume (Decode.eWord v)
  | 0x386 => .kill (Decode.eWord v)
  | 0x387 => .trcmk (Decode.eWord v)
  | 0x388 => .perfrd (Decode.eWord v)
  | 0x389 => .lnkq (Decode.eWord v)
  | _ => .unassignedOpcode (BitVec.ofNat 96 v)

/-- The instruction of a 96-bit word whose number is `v`. -/
def Decode.wordNat (v : Nat) : Instr := Decode.byOpcode (v % 2 ^ 10) v

/-- The instruction of a 96-bit word (R23, R40). -/
def decodeWord (w : InstrWord) : Instr := Decode.wordNat w.toNat

/-- The value of a flag bit. -/
def Encode.bit (b : Bool) : Nat := if b then 1 else 0

/-- The number whose fields, from bit 0 up, have the widths and values of a list. -/
def Encode.pack : List (Nat × Nat) → Nat
  | [] => 0
  | f :: fs => f.2 + 2 ^ f.1 * Encode.pack fs

/-- The fields of a word from its opcode up to bit 49 (R23). -/
def Encode.head (op : Nat) (h : Head) : List (Nat × Nat) :=
  [(10, op), (1, Encode.bit h.u), (1, Encode.bit h.ws), (2, h.lt.toNat), (4, h.pr.toNat), (8, h.d.toNat),
    (8, h.a.toNat), (8, h.b.toNat), (8, h.c.toNat)]

/-- The fields of a word of a K-format instruction with opcode `op` (R24). -/
def Encode.kFields (op : Nat) (w : KWord) : List (Nat × Nat) :=
  Encode.head op w.h ++ [(8, w.ty.toNat), (6, w.md.toNat), (32, w.imm.toNat)]

/-- The word of a K-format instruction. -/
def Encode.kWord (op : Nat) (w : KWord) : InstrWord := BitVec.ofNat 96 (Encode.pack (Encode.kFields op w))

/-- The fields of a word of a J-format instruction with opcode `op` (R24). -/
def Encode.jFields (op : Nat) (w : JWord) : List (Nat × Nat) :=
  Encode.head op w.h ++ [(14, w.md.toNat), (32, w.off.toNat)]

/-- The word of a J-format instruction. -/
def Encode.jWord (op : Nat) (w : JWord) : InstrWord := BitVec.ofNat 96 (Encode.pack (Encode.jFields op w))

/-- The fields of a word of an M-format instruction with opcode `op` (R24). -/
def Encode.mFields (op : Nat) (w : MWord) : List (Nat × Nat) :=
  Encode.head op w.h ++ [(2, w.space.toNat), (4, w.size.toNat), (2, w.ord.toNat),
    (3, w.hint.toNat), (3, w.z.toNat), (32, w.off.toNat)]

/-- The word of an M-format instruction. -/
def Encode.mWord (op : Nat) (w : MWord) : InstrWord := BitVec.ofNat 96 (Encode.pack (Encode.mFields op w))

/-- The fields of a word of a T-format instruction with opcode `op` (R24). -/
def Encode.tFields (op : Nat) (w : TWord) : List (Nat × Nat) :=
  Encode.head op w.h ++ [(2, w.plane.toNat), (6, w.tile.toNat), (6, w.md.toNat),
    (4, w.osrq.toNat), (4, w.td.toNat), (4, w.ct.toNat), (4, w.asrc.toNat), (6, w.atile.toNat), (10, w.z.toNat)]

/-- The word of a T-format instruction. -/
def Encode.tWord (op : Nat) (w : TWord) : InstrWord := BitVec.ofNat 96 (Encode.pack (Encode.tFields op w))

/-- The fields of a word of an E-format instruction with opcode `op` (R24). -/
def Encode.eFields (op : Nat) (w : EWord) : List (Nat × Nat) :=
  Encode.head op w.h ++ [(3, w.pi.toNat), (3, w.sub.toNat), (6, w.sel.toNat),
    (2, w.z.toNat), (32, w.imm.toNat)]

/-- The word of an E-format instruction. -/
def Encode.eWord (op : Nat) (w : EWord) : InstrWord := BitVec.ofNat 96 (Encode.pack (Encode.eFields op w))

/-- The 96-bit word of an instruction; a row that is no instruction word has none. -/
def encodeWord : Instr → Option InstrWord
  | .nop w => some (Encode.kWord 0x001 w)
  | .rgn w => some (Encode.eWord 0x002 w)
  | .exit w => some (Encode.eWord 0x003 w)
  | .bra w => some (Encode.jWord 0x004 w)
  | .brx w => some (Encode.kWord 0x005 w)
  | .call w => some (Encode.jWord 0x006 w)
  | .callx w => some (Encode.kWord 0x007 w)
  | .ret w => some (Encode.kWord 0x008 w)
  | .loop w => some (Encode.jWord 0x009 w)
  | .mcall w => some (Encode.eWord 0x00A w)
  | .ipf w => some (Encode.jWord 0x00B w)
  | .ifence w => some (Encode.eWord 0x00C w)
  | .trap w => some (Encode.eWord 0x00D w)
  | .bkpt w => some (Encode.eWord 0x00E w)
  | .iadd w => some (Encode.kWord 0x040 w)
  | .isub w => some (Encode.kWord 0x041 w)
  | .imul w => some (Encode.kWord 0x042 w)
  | .imulh w => some (Encode.kWord 0x043 w)
  | .imad w => some (Encode.kWord 0x044 w)
  | .iabs w => some (Encode.kWord 0x045 w)
  | .ineg w => some (Encode.kWord 0x046 w)
  | .imin w => some (Encode.kWord 0x047 w)
  | .imax w => some (Encode.kWord 0x048 w)
  | .icmp w => some (Encode.kWord 0x049 w)
  | .sel w => some (Encode.kWord 0x04A w)
  | .mov w => some (Encode.kWord 0x04B w)
  | .movi w => some (Encode.kWord 0x04C w)
  | .lea w => some (Encode.kWord 0x04D w)
  | .addc w => some (Encode.kWord 0x04E w)
  | .and w => some (Encode.kWord 0x080 w)
  | .or w => some (Encode.kWord 0x081 w)
  | .xor w => some (Encode.kWord 0x082 w)
  | .andn w => some (Encode.kWord 0x083 w)
  | .shl w => some (Encode.kWord 0x084 w)
  | .shr w => some (Encode.kWord 0x085 w)
  | .sar w => some (Encode.kWord 0x086 w)
  | .rot w => some (Encode.kWord 0x087 w)
  | .bfx w => some (Encode.kWord 0x088 w)
  | .bfi w => some (Encode.kWord 0x089 w)
  | .popc w => some (Encode.kWord 0x08A w)
  | .clz w => some (Encode.kWord 0x08B w)
  | .ctz w => some (Encode.kWord 0x08C w)
  | .brev w => some (Encode.kWord 0x08D w)
  | .perm w => some (Encode.kWord 0x08E w)
  | .fadd w => some (Encode.kWord 0x0C0 w)
  | .fsub w => some (Encode.kWord 0x0C1 w)
  | .fmul w => some (Encode.kWord 0x0C2 w)
  | .ffma w => some (Encode.kWord 0x0C3 w)
  | .fmin w => some (Encode.kWord 0x0C4 w)
  | .fmax w => some (Encode.kWord 0x0C5 w)
  | .fcmp w => some (Encode.kWord 0x0C6 w)
  | .frcp w => some (Encode.kWord 0x0C7 w)
  | .frsq w => some (Encode.kWord 0x0C8 w)
  | .fsqrt w => some (Encode.kWord 0x0C9 w)
  | .fexp2 w => some (Encode.kWord 0x0CA w)
  | .flog2 w => some (Encode.kWord 0x0CB w)
  | .fsin w => some (Encode.kWord 0x0CC w)
  | .fcos w => some (Encode.kWord 0x0CD w)
  | .fclass w => some (Encode.kWord 0x0CE w)
  | .frnd w => some (Encode.kWord 0x0CF w)
  | .cvt w => some (Encode.kWord 0x100 w)
  | .pack w => some (Encode.kWord 0x101 w)
  | .unpk w => some (Encode.kWord 0x102 w)
  | .qnt w => some (Encode.kWord 0x103 w)
  | .dqnt w => some (Encode.kWord 0x104 w)
  | .seed w => some (Encode.kWord 0x105 w)
  | .shfl w => some (Encode.kWord 0x110 w)
  | .vote w => some (Encode.kWord 0x111 w)
  | .wred w => some (Encode.kWord 0x112 w)
  | .wscan w => some (Encode.kWord 0x113 w)
  | .plop w => some (Encode.kWord 0x140 w)
  | .pmov w => some (Encode.kWord 0x141 w)
  | .ld w => some (Encode.mWord 0x180 w)
  | .st w => some (Encode.mWord 0x181 w)
  | .stbm w => some (Encode.mWord 0x182 w)
  | .pref w => some (Encode.mWord 0x183 w)
  | .clean w => some (Encode.mWord 0x184 w)
  | .inval w => some (Encode.mWord 0x185 w)
  | .evh w => some (Encode.mWord 0x186 w)
  | .fence w => some (Encode.eWord 0x1C0 w)
  | .xfence w => some (Encode.eWord 0x1C1 w)
  | .amo w => some (Encode.mWord 0x1C2 w)
  | .amocas w => some (Encode.mWord 0x1C3 w)
  | .red w => some (Encode.mWord 0x1C4 w)
  | .sgadd w => some (Encode.eWord 0x200 w)
  | .sgwait w => some (Encode.eWord 0x201 w)
  | .sgtest w => some (Encode.eWord 0x202 w)
  | .sgread w => some (Encode.eWord 0x203 w)
  | .sgset w => some (Encode.eWord 0x204 w)
  | .rgresv w => some (Encode.eWord 0x208 w)
  | .rgpub w => some (Encode.eWord 0x209 w)
  | .rgawait w => some (Encode.eWord 0x20A w)
  | .rgrel w => some (Encode.eWord 0x20B w)
  | .bjoin w => some (Encode.eWord 0x210 w)
  | .bleave w => some (Encode.eWord 0x211 w)
  | .barrive w => some (Encode.eWord 0x212 w)
  | .bwait w => some (Encode.eWord 0x213 w)
  | .ginfo w => some (Encode.eWord 0x218 w)
  | .gbar w => some (Encode.eWord 0x219 w)
  | .wsync w => some (Encode.eWord 0x21A w)
  | .sloop w => some (Encode.eWord 0x240 w)
  | .yield w => some (Encode.eWord 0x241 w)
  | .pdone w => some (Encode.eWord 0x242 w)
  | .cend w => some (Encode.eWord 0x243 w)
  | .rsb w => some (Encode.eWord 0x248 w)
  | .rse w => some (Encode.eWord 0x249 w)
  | .gpnum w => some (Encode.eWord 0x24A w)
  | .gpwait w => some (Encode.eWord 0x24B w)
  | .dfree w => some (Encode.eWord 0x24C w)
  | .wload w => some (Encode.tWord 0x280 w)
  | .wfree w => some (Encode.tWord 0x281 w)
  | .mmaRegisters w => some (Encode.tWord 0x282 w)
  | .mmaTile w => some (Encode.tWord 0x282 w)
  | .mmaShapeRecord w => some (Encode.tWord 0x282 w)
  | .accrd w => some (Encode.tWord 0x283 w)
  | .accwr w => some (Encode.tWord 0x284 w)
  | .accz w => some (Encode.tWord 0x285 w)
  | .drain w => some (Encode.tWord 0x286 w)
  | .tdld w => some (Encode.tWord 0x2C0 w)
  | .tld w => some (Encode.tWord 0x2C1 w)
  | .tst w => some (Encode.tWord 0x2C2 w)
  | .ctld w => some (Encode.tWord 0x2C3 w)
  | .ctinv w => some (Encode.tWord 0x2C4 w)
  | .bixrd w => some (Encode.tWord 0x2C5 w)
  | .xform w => some (Encode.eWord 0x2C6 w)
  | .poolq w => some (Encode.eWord 0x2C7 w)
  | .cpy w => some (Encode.eWord 0x300 w)
  | .cpy2 w => some (Encode.eWord 0x301 w)
  | .cpyt w => some (Encode.eWord 0x302 w)
  | .stadv w => some (Encode.eWord 0x303 w)
  | .gset w => some (Encode.eWord 0x304 w)
  | .gclr w => some (Encode.eWord 0x305 w)
  | .launch w => some (Encode.eWord 0x340 w)
  | .spawn w => some (Encode.eWord 0x341 w)
  | .trig w => some (Encode.eWord 0x342 w)
  | .taskq w => some (Encode.eWord 0x343 w)
  | .feat w => some (Encode.eWord 0x380 w)
  | .implq w => some (Encode.eWord 0x381 w)
  | .srrd w => some (Encode.eWord 0x382 w)
  | .srwr w => some (Encode.eWord 0x383 w)
  | .clk w => some (Encode.eWord 0x384 w)
  | .resume w => some (Encode.eWord 0x385 w)
  | .kill w => some (Encode.eWord 0x386 w)
  | .trcmk w => some (Encode.eWord 0x387 w)
  | .perfrd w => some (Encode.eWord 0x388 w)
  | .lnkq w => some (Encode.eWord 0x389 w)
  | .registerWrite _ _ => none
  | .queueEnable _ => none
  | .queueDisable _ => none
  | .queueSuspend _ => none
  | .queueResume _ => none
  | .queueSkip _ => none
  | .queueRetry _ => none
  | .queueDrain _ => none
  | .copyEngineRetry _ => none
  | .copyEngineDrop _ => none
  | .xformEngineRetry _ => none
  | .xformEngineDrop _ => none
  | .tlbinvWrite _ _ => none
  | .fringWrite _ _ => none
  | .dresResume _ => none
  | .dresKill _ => none
  | .traceEnable _ _ => none
  | .bootgo _ => none
  | .mccfgEnable _ => none
  | .mcfill _ => none
  | .create _ => none
  | .assign _ => none
  | .negotiate _ => none
  | .start _ => none
  | .preempt _ => none
  | .save _ => none
  | .restore _ => none
  | .migrateOut _ => none
  | .migrateIn _ => none
  | .teardown _ => none
  | .srwrite _ => none
  | .srread _ => none
  | .warpresume _ => none
  | .warpkill _ => none
  | .portenable _ => none
  | .portdisable _ => none
  | .route _ => none
  | .exportRange _ => none
  | .window _ => none
  | .debugset _ => none
  | .tlbinv _ => none
  | .checkpoint _ => none
  | .getVersion _ => none
  | .getCapabilities _ => none
  | .negotiateAlgorithms _ _ _ => none
  | .getDigests _ => none
  | .getCertificate _ _ _ => none
  | .challenge _ _ => none
  | .getMeasurements _ _ => none
  | .powerControlTick _ _ => none
  | .thermalEmergency _ => none
  | .icacheFill _ _ => none
  | .stallSwitch _ => none
  | .warpQuantum _ => none
  | .stalagmiteAddApply _ _ => none
  | .wakeDelivery _ => none
  | .waitRepresent _ => none
  | .sgWaitTimeout _ => none
  | .queueHeadRead _ => none
  | .queueHeadSubmit _ => none
  | .queuePriorityAge _ => none
  | .kernelStart _ => none
  | .kernelExpansion _ => none
  | .corePlacement _ => none
  | .taskTimeout _ => none
  | .taskEnd _ => none
  | .kernelComplete _ => none
  | .gracePeriodStart _ => none
  | .gracePeriodEnd _ => none
  | .deferredFreeDeliver _ => none
  | .planeLoadComplete _ => none
  | .mmaPortEntry _ => none
  | .matrixPass _ => none
  | .passRetire _ => none
  | .drainPublish _ => none
  | .matrixReset _ => none
  | .copyCommandStart _ => none
  | .copyCommandComplete _ => none
  | .ringCopyWrite _ => none
  | .xformCommandStart _ => none
  | .xformCommandComplete _ => none
  | .ownershipRecall _ _ => none
  | .faultRecordPush _ => none
  | .portTrained _ _ _ _ => none
  | .portTrainingTimeout _ => none
  | .portRetrain _ => none
  | .flitReceive _ _ _ => none
  | .controlFlit _ _ _ _ => none
  | .remoteRequest _ => none
  | .remoteResponse _ => none
  | .reductionResult _ _ _ _ => none
  | .contextStateError _ => none
  | .preemptComplete _ => none
  | .saveComplete _ => none
  | .migrationAnswer _ _ => none
  | .teardownRelease _ => none
  | .unassignedOpcode w => some w
  | .passLeavesArray _ => none
  | .cxlMemAccess _ _ _ _ => none
  | .dbgctlFreeze => none
  | .dbgctlThaw => none
  | .powerGood => none
  | .hostReset => none
  | .imageVerify => none
  | .thermalTrip => none
  | .invalidationComplete => none
  | .checkpointComplete => none
  | .profileCycle => none

/-- The management command of an OPC byte (R390). -/
def Decode.commandOf (opc : Nat) (c : Command) : Option Instr :=
  match opc with
  | 0x01 => some (.create c)
  | 0x02 => some (.assign c)
  | 0x03 => some (.negotiate c)
  | 0x04 => some (.start c)
  | 0x05 => some (.preempt c)
  | 0x06 => some (.save c)
  | 0x07 => some (.restore c)
  | 0x08 => some (.migrateOut c)
  | 0x09 => some (.migrateIn c)
  | 0x0A => some (.teardown c)
  | 0x10 => some (.srwrite c)
  | 0x11 => some (.srread c)
  | 0x12 => some (.warpresume c)
  | 0x13 => some (.warpkill c)
  | 0x20 => some (.portenable c)
  | 0x21 => some (.portdisable c)
  | 0x22 => some (.route c)
  | 0x23 => some (.exportRange c)
  | 0x24 => some (.window c)
  | 0x28 => some (.debugset c)
  | 0x29 => some (.tlbinv c)
  | 0x2A => some (.checkpoint c)
  | _ => none

/-- The management command of a 64-byte record, by its OPC byte (R390). -/
def Decode.command (c : Command) : Option Instr := Decode.commandOf (c.toNat % 256) c

/-- The 64-byte record of a management command (R389, R390); a row that is no command has none. -/
def encodeCommand : Instr → Option Command
  | .nop _ => none
  | .rgn _ => none
  | .exit _ => none
  | .bra _ => none
  | .brx _ => none
  | .call _ => none
  | .callx _ => none
  | .ret _ => none
  | .loop _ => none
  | .mcall _ => none
  | .ipf _ => none
  | .ifence _ => none
  | .trap _ => none
  | .bkpt _ => none
  | .iadd _ => none
  | .isub _ => none
  | .imul _ => none
  | .imulh _ => none
  | .imad _ => none
  | .iabs _ => none
  | .ineg _ => none
  | .imin _ => none
  | .imax _ => none
  | .icmp _ => none
  | .sel _ => none
  | .mov _ => none
  | .movi _ => none
  | .lea _ => none
  | .addc _ => none
  | .and _ => none
  | .or _ => none
  | .xor _ => none
  | .andn _ => none
  | .shl _ => none
  | .shr _ => none
  | .sar _ => none
  | .rot _ => none
  | .bfx _ => none
  | .bfi _ => none
  | .popc _ => none
  | .clz _ => none
  | .ctz _ => none
  | .brev _ => none
  | .perm _ => none
  | .fadd _ => none
  | .fsub _ => none
  | .fmul _ => none
  | .ffma _ => none
  | .fmin _ => none
  | .fmax _ => none
  | .fcmp _ => none
  | .frcp _ => none
  | .frsq _ => none
  | .fsqrt _ => none
  | .fexp2 _ => none
  | .flog2 _ => none
  | .fsin _ => none
  | .fcos _ => none
  | .fclass _ => none
  | .frnd _ => none
  | .cvt _ => none
  | .pack _ => none
  | .unpk _ => none
  | .qnt _ => none
  | .dqnt _ => none
  | .seed _ => none
  | .shfl _ => none
  | .vote _ => none
  | .wred _ => none
  | .wscan _ => none
  | .plop _ => none
  | .pmov _ => none
  | .ld _ => none
  | .st _ => none
  | .stbm _ => none
  | .pref _ => none
  | .clean _ => none
  | .inval _ => none
  | .evh _ => none
  | .fence _ => none
  | .xfence _ => none
  | .amo _ => none
  | .amocas _ => none
  | .red _ => none
  | .sgadd _ => none
  | .sgwait _ => none
  | .sgtest _ => none
  | .sgread _ => none
  | .sgset _ => none
  | .rgresv _ => none
  | .rgpub _ => none
  | .rgawait _ => none
  | .rgrel _ => none
  | .bjoin _ => none
  | .bleave _ => none
  | .barrive _ => none
  | .bwait _ => none
  | .ginfo _ => none
  | .gbar _ => none
  | .wsync _ => none
  | .sloop _ => none
  | .yield _ => none
  | .pdone _ => none
  | .cend _ => none
  | .rsb _ => none
  | .rse _ => none
  | .gpnum _ => none
  | .gpwait _ => none
  | .dfree _ => none
  | .wload _ => none
  | .wfree _ => none
  | .mmaRegisters _ => none
  | .mmaTile _ => none
  | .mmaShapeRecord _ => none
  | .accrd _ => none
  | .accwr _ => none
  | .accz _ => none
  | .drain _ => none
  | .tdld _ => none
  | .tld _ => none
  | .tst _ => none
  | .ctld _ => none
  | .ctinv _ => none
  | .bixrd _ => none
  | .xform _ => none
  | .poolq _ => none
  | .cpy _ => none
  | .cpy2 _ => none
  | .cpyt _ => none
  | .stadv _ => none
  | .gset _ => none
  | .gclr _ => none
  | .launch _ => none
  | .spawn _ => none
  | .trig _ => none
  | .taskq _ => none
  | .feat _ => none
  | .implq _ => none
  | .srrd _ => none
  | .srwr _ => none
  | .clk _ => none
  | .resume _ => none
  | .kill _ => none
  | .trcmk _ => none
  | .perfrd _ => none
  | .lnkq _ => none
  | .registerWrite _ _ => none
  | .queueEnable _ => none
  | .queueDisable _ => none
  | .queueSuspend _ => none
  | .queueResume _ => none
  | .queueSkip _ => none
  | .queueRetry _ => none
  | .queueDrain _ => none
  | .copyEngineRetry _ => none
  | .copyEngineDrop _ => none
  | .xformEngineRetry _ => none
  | .xformEngineDrop _ => none
  | .tlbinvWrite _ _ => none
  | .fringWrite _ _ => none
  | .dresResume _ => none
  | .dresKill _ => none
  | .traceEnable _ _ => none
  | .bootgo _ => none
  | .mccfgEnable _ => none
  | .mcfill _ => none
  | .create c => some c
  | .assign c => some c
  | .negotiate c => some c
  | .start c => some c
  | .preempt c => some c
  | .save c => some c
  | .restore c => some c
  | .migrateOut c => some c
  | .migrateIn c => some c
  | .teardown c => some c
  | .srwrite c => some c
  | .srread c => some c
  | .warpresume c => some c
  | .warpkill c => some c
  | .portenable c => some c
  | .portdisable c => some c
  | .route c => some c
  | .exportRange c => some c
  | .window c => some c
  | .debugset c => some c
  | .tlbinv c => some c
  | .checkpoint c => some c
  | .getVersion _ => none
  | .getCapabilities _ => none
  | .negotiateAlgorithms _ _ _ => none
  | .getDigests _ => none
  | .getCertificate _ _ _ => none
  | .challenge _ _ => none
  | .getMeasurements _ _ => none
  | .powerControlTick _ _ => none
  | .thermalEmergency _ => none
  | .icacheFill _ _ => none
  | .stallSwitch _ => none
  | .warpQuantum _ => none
  | .stalagmiteAddApply _ _ => none
  | .wakeDelivery _ => none
  | .waitRepresent _ => none
  | .sgWaitTimeout _ => none
  | .queueHeadRead _ => none
  | .queueHeadSubmit _ => none
  | .queuePriorityAge _ => none
  | .kernelStart _ => none
  | .kernelExpansion _ => none
  | .corePlacement _ => none
  | .taskTimeout _ => none
  | .taskEnd _ => none
  | .kernelComplete _ => none
  | .gracePeriodStart _ => none
  | .gracePeriodEnd _ => none
  | .deferredFreeDeliver _ => none
  | .planeLoadComplete _ => none
  | .mmaPortEntry _ => none
  | .matrixPass _ => none
  | .passRetire _ => none
  | .drainPublish _ => none
  | .matrixReset _ => none
  | .copyCommandStart _ => none
  | .copyCommandComplete _ => none
  | .ringCopyWrite _ => none
  | .xformCommandStart _ => none
  | .xformCommandComplete _ => none
  | .ownershipRecall _ _ => none
  | .faultRecordPush _ => none
  | .portTrained _ _ _ _ => none
  | .portTrainingTimeout _ => none
  | .portRetrain _ => none
  | .flitReceive _ _ _ => none
  | .controlFlit _ _ _ _ => none
  | .remoteRequest _ => none
  | .remoteResponse _ => none
  | .reductionResult _ _ _ _ => none
  | .contextStateError _ => none
  | .preemptComplete _ => none
  | .saveComplete _ => none
  | .migrationAnswer _ _ => none
  | .teardownRelease _ => none
  | .unassignedOpcode _ => none
  | .passLeavesArray _ => none
  | .cxlMemAccess _ _ _ _ => none
  | .dbgctlFreeze => none
  | .dbgctlThaw => none
  | .powerGood => none
  | .hostReset => none
  | .imageVerify => none
  | .thermalTrip => none
  | .invalidationComplete => none
  | .checkpointComplete => none
  | .profileCycle => none

/-- The bytes of an instruction: the 12 of an instruction word, bit 0 of the word in bit 0 of the first byte (R17), or the 64 of
a command record (R389); a step that no bytes ask for has none. -/
def encode (i : Instr) : Option (List Byte) :=
  match encodeWord i with
  | some w => some (toBytes 12 w.toNat)
  | none => (encodeCommand i).map fun c => toBytes 64 c.toNat

/-- Decoding of bytes: 12 bytes are an instruction word (R17); 64 bytes are a command record (R389). -/
def decode (bs : List Byte) : Except DecodeError Instr :=
  match bs.length with
  | 12 => .ok (Decode.wordNat (ofBytes bs))
  | 64 =>
    match Decode.command (BitVec.ofNat 512 (ofBytes bs)) with
    | some i => .ok i
    | none => .error .unknownCommand
  | _ => .error .wrongLength

/-- The instruction read from an instruction whose bits are `w`, numbered as the opcode table numbers them. -/
def decodeTableWord (nbits w : Nat) : Option Instr :=
  if nbits ≤ 96 then (decode (toBytes 12 (w % 2 ^ nbits))).toOption
  else (decode (toBytes 64 (w % 2 ^ nbits))).toOption

end Sys2Proof
end

