-- ==== Sys2Proof/Machine/Birth.lean ====
section
/-!
DEFINITION. Threads, warps, tasks and kernels as they come into being (R67), and asynchronous causes (R355).
-/

namespace Sys2Proof.Machine

open Sys2Proof

/-- A thread at placement (R67): `n` is warp id in core × 16 + tid. -/
def Thread.fresh (entry : W64) (n : Nat) : Thread :=
  { pc := entry, g := vfill 128 0, bank := vfill 32 0, p := 0, k := vfill 4 .cleared,
    seed := 0x9E3779B9#32 ^^^ BitVec.ofNat 32 (n + 1), exited := false, triggered := false, wsync := none, atHalf := false, region := .none,
    prod := .none }

/-- An inactive sump (R245). -/
def Sump.none : Sump :=
  { mode := .inactive, head := 0, count := 0, done := 0, cmask := 0, rmask := 0, pe := 0, ce := 0, xe := 0, base := 0,
    cap := 0, high := 0, width := 0 }

/-- A warp at placement on a lane and slot (R67); its s and q registers are given by the kernel (R156). -/
def Warp.fresh (entry : W64) (lane slot : Nat) (sregs : Vector W64 64) (q : BitVec 8) : Warp :=
  { st := .ready, threads := ⟨⟨(List.range 16).map fun t => Thread.fresh entry ((lane * 4 + slot) * 16 + t)⟩, by simp⟩,
    s := sregs, q := q, flags := 0, done := 0, mac := none, depth := 0, held := 0, mark := false, gwt := 0,
    groups := vfill 4 none, implq := vfill 16 0, sump := .none, pendTimeout := false, pendReset := none,
    wait := none, susp := none, stall := none, failed := [], issued := 0, stalls := vfill 16 0, since := 0, stalled := 0,
    quantum := false, halted := 0, lane := lane, slot := slot, lastPc := 0, lastMask := 0, touched := [],
    bad := false }

/-- The launch record of zeros. -/
def LaunchRec.zero : LaunchRec :=
  { entry := 0, rtab := 0, macros := 0, macmask := 0, tdtab := 0, tdmask := 0, ctmask := 0, prof := 0, warps := 0,
    regs := 0, spad := 0, cttab := 0, tiles := 0, planes := 0, place := 0, order := 0, prio := 0, cscnt := 0, vault := 0,
    gtab := 0, gcnt := 0, ctn := 0, tlimit := 0, csched := 0, gx := 0, gy := 0, gz := 0, cblk := 0, affbase := 0,
    deps := [], cond := 0, trigsg := 0, donesg := 0, trigamt := 0, doneamt := 0, status := 0 }

/-- A task without units, tiles, tables or macros, of a kernel (R156). -/
def Task.fresh (id ctx dir kid : Nat) (entry : W64) : Task :=
  { id := id, ctx := ctx, dir := dir, kid := kid, core := none, index := 0, x := 0, y := 0, z := 0, frame := 0, join := 0,
    entry := entry, entryLine := [], spawned := false, counted := false, regs := 0, warps := [], spad := 0, scratch := [], units := [],
    vault := none, tileMem := [], tiles := [], planes := [], planeIds := [], ctn := 0, ctSlots := [], ctIds := [],
    td := vfill 16 0, gd := vfill 32 .unresolved, stage := 0, sched := [], released := 0, macros := [], timer := none,
    pendingStep := none, ended := false, born := 0, cmds := [], owes := false, last := 192 }

/-! ## Asynchronous causes (R355) -/

/-- The pending asynchronous cause of a warp, the lowest code first. -/
def Warp.pendingCause (w : Warp) : Option Trap :=
  if w.pendTimeout then some { cause := .taskTimeout, mask := maskOf w.activeSet, source := 1 }
  else w.pendReset.map fun x => { cause := .matrixReset, mask := maskOf w.activeSet, source := 1, extra := x }

/-- A pending asynchronous cause taken by a warp; without one nothing changes. -/
def State.takeAsync (s : State) (task warp : Nat) : State :=
  match s.warp? task warp with
  | none => s
  | some w =>
    match w.pendingCause with
    | none => s
    | some x =>
      let s := s.modWarp task warp fun w =>
        if x.cause = .taskTimeout then { w with pendTimeout := false } else { w with pendReset := none }
      s.takeFault task warp ((w.lowestPc).getD 0) x

/-- The active set of a warp stands in a committed region, so that an asynchronous cause waits for its next RGN (R159,
R355). -/
def Warp.inCommitted (w : Warp) : Bool :=
  w.activeSet.any fun t => (w.thread t).region.inside && (w.thread t).region.committed

/-- Every warp of a task that stands at an instruction boundary takes its pending cause at once (R355). -/
def State.takePending (s : State) (task : Nat) : State :=
  match s.task? task with
  | none => s
  | some t =>
    (List.range t.warps.length).foldl (fun (s : State) (i : Nat) =>
      match s.warp? task i with
      | some w =>
        if w.pendingCause.isSome && !w.inCommitted && !s.midway task i
            && (w.st == .running || w.st == .ready || w.st == .blocked) then s.takeAsync task i
        else s
      | none => s) s

end Sys2Proof.Machine
end

