-- ==== Sys2Proof/Machine/Tiles.lean ====
section
/-!
DEFINITION. Operand shape records, raw and coded operands, and the decode of a tile with its retries (R272, R273, R321, R322);
accumulator tiles as memory (R271).
-/

namespace Sys2Proof.Machine

open Sys2Proof

/-! ## A warp as a mover -/

/-- The mover of a warp's accesses on the MTX path: decoders and encoders use the cluster's translations (R192). -/
def Ctx.mover (c : Ctx) : Mover :=
  { asker := c.asker, acc := { c.who with quarter := none }, task := c.task, peers := true, core := some c.core }

/-- The threads that an instruction runs for as a mask. -/
def Ctx.whole (c : Ctx) : BitVec 16 := maskOf c.executing

/-- A warp's use of a mover, whose faults come before any effect: they name the threads of the instruction, and the A and D bits set for
accesses that passed their checks stay set (R191). -/
def Op.asWarp {α : Type} (mask : BitVec 16) (f : Op α) : Op α := fun s =>
  match f s with
  | .error (.trapAt s t) => .error (.trapAt s { t with mask := mask })
  | .error (.trap t) => .error (.trap { t with mask := mask })
  | r => r

/-- The operation in which an instruction of the warp has begun and not ended. -/
def State.heldOp (s : State) (c : Ctx) : Option MatOp :=
  (s.core c.core).ops.find? fun o => o.task == c.task && o.warp == c.warp && o.pending

/-! ## Operand shape records (R272) -/

/-- An operand shape record. -/
structure Shape where
  addr : Nat
  tx : Nat
  ty : Nat
  rstride : Nat
  estride : Nat
  sbase : Nat
  rows : Nat
  cols : Nat
  fmt : Nat
  bs32 : Bool
  unit : Bool
  coded : Bool
  space : Nat
  td : Nat
  deriving DecidableEq, Repr

/-- The element format of a record. -/
def Shape.format (x : Shape) : Fmt := (Fmt.ofCode x.fmt).getD .fp32

/-- Elements of a scale block. -/
def Shape.bs (x : Shape) : Nat := if x.bs32 then 32 else 16

/-- The record in four registers, none when its own fields break R272. -/
def Shape.parse (r0 r1 r2 r3 : Nat) : Option Shape :=
  let x : Shape :=
    { addr := bitsOf r0 55 0, tx := bitsOf r0 31 0, ty := bitsOf r0 63 32, rstride := bitsOf r1 31 0,
      estride := bitsOf r1 47 32, sbase := bitsOf r2 55 0, rows := bitsOf r3 9 0, cols := bitsOf r3 25 16,
      fmt := bitsOf r3 35 32, bs32 := r3.testBit 36, unit := r3.testBit 37, coded := r3.testBit 38,
      space := bitsOf r3 41 40, td := bitsOf r3 47 44 }
  let scaled := x.format.scaled
  if bitsOf r1 63 48 == 0 && bitsOf r2 63 56 == 0 && bitsOf r3 15 10 == 0 && bitsOf r3 31 26 == 0 && !r3.testBit 39
      && bitsOf r3 43 42 == 0 && bitsOf r3 63 48 == 0
      && decide (1 ≤ x.rows) && decide (x.rows ≤ 512) && decide (1 ≤ x.cols) && decide (x.cols ≤ 512)
      && decide (1 ≤ x.fmt) && decide (x.fmt ≤ 8) && x.space != 3 && (scaled || (!x.bs32 && !x.unit))
      && (if x.coded then x.space == 0 && r1 == 0 && r2 == 0 && !x.unit
        else bitsOf r0 63 56 == 0 && x.estride != 0 && (x.format.bits != 4 || x.estride == 1)
          && (r2 == 0 || (scaled && !x.unit))) then some x
  else none

/-- A format code that needs profile 3 (R270). -/
def fmtNew (fmt : Nat) : Bool := fmt == 5 || fmt == 6 || fmt == 8

/-- A tensor descriptor in a slot of the task, with TDESC_INVALID when none is loaded or it breaks R317 (R284); an instruction that has
begun keeps it as it stood at its issue (R328). -/
def Op.descriptor (c : Ctx) (mask : BitVec 16) (slot : Nat) : Op TDesc := do
  let t ← Op.task c
  let s ← Op.state
  let v := (((s.heldOp c).bind fun (o : MatOp) => o.td).getD (vget t.td slot 0)).toNat
  if tdescOk v = false then Op.trap .tdescInvalid mask
  return TDesc.ofBits v

/-- The registers of a shape record. -/
def Warp.osr (w : Warp) (q : Nat) : List W64 := (List.range 4).map fun i => vget w.s (4 * q + i) 0

/-- The shape record of an instruction with the descriptor of coded data, after the checks of item 2 of R284; an instruction that has
begun keeps the record that it read at its issue (R272). -/
def Op.shape (c : Ctx) (w : Warp) (q : Nat) : Op (Shape × Option TDesc) := do
  let s ← Op.state
  let kept := match s.heldOp c with
    | some o => o.osr
    | none => []
  let regs := if kept.isEmpty then w.osr q else kept
  let r (i : Nat) := (regs.getD i 0).toNat
  match Shape.parse (r 0) (r 1) (r 2) (r 3) with
  | none => Op.trap .osrInvalid c.whole
  | some x => do
    if c.prof < 3 ∧ (x.coded = true ∨ fmtNew x.fmt = true) then Op.trap .profile c.whole
    if x.coded then
      let d ← Op.descriptor c c.whole x.td
      if x.rows ≠ d.tr ∨ x.cols ≠ d.tc ∨ x.fmt ≠ d.fmt ∨ x.bs32 ≠ d.bs32 then Op.trap .osrInvalid c.whole
      return (x, some d)
    return (x, none)

/-- The coordinate of a tile lies in its tensor (R317). -/
def TDesc.holds (d : TDesc) (tx ty : Nat) : Bool := decide (tx < d.txn) && decide (ty < d.tyn)

/-- SHAPE_RANGE of a coordinate and SECTION_REQUIRED of a reclaimable tensor (R260, R284 items 5 and 7). -/
def Op.coordinate (mask : BitVec 16) (w : Warp) (d : TDesc) (tx ty : Nat) : Op Unit := do
  if d.holds tx ty = false then Op.trap .shapeRange mask
  if d.recl = true ∧ w.depth = 0 then Op.trap .sectionRequired mask

/-! ## Decoding a tile with its retries (R321, R322) -/

/-- The address of the entry of a tile in an index (R316). -/
def TDesc.entryVa (d : TDesc) (base tx ty : Nat) : Nat := (base + 16 * (ty * d.txn + tx)) % 2 ^ 64

/-- What one attempt at a decode finds; `again`: the decoder tries once more. -/
inductive Attempt where
  | tile (t : TileData)
  | fail (f : DecodeFault) (again : Bool)

/-- One attempt: the entry at an address and its block. -/
def Op.attempt (m : Mover) (key : Nat) (d : TDesc) (va : Nat) (table : Nat → Option CodeTable) : Op Attempt := do
  let bits ← Op.readEntry m key va
  let e := BixEntry.ofBits bits
  if e.v = false then return .fail { cause := .bixEntry } false
  if bixOk bits = false then return .fail { cause := .bixEntry } true
  if e.z then return .tile (zeroTile d)
  let bs ← Op.readRange m .engineRead 0 4 (key + 2) e.addr (min e.len (64 * 2 ^ e.scls))
  return match decodeBlock d e table bs with
    | .ok t => .tile t
    | .error f => .fail f (f.cause != .decodeTableTag)

/-- The fault of a decode, with what R322 puts into the record. -/
def decodeTrap (slot tx ty copy : Nat) (f : DecodeFault) : Trap :=
  { cause := f.cause, mask := 0, addr := ty * 2 ^ 32 + tx, coord := true, bitoff := f.bit,
    aux := slot + copy * 16 + f.j * 32 + f.k * 65536 }

/-- A decode of a tile (R321, R322): once more after a failure, then the replica. -/
def Op.decode (m : Mover) (key : Nat) (d : TDesc) (slot tx ty : Nat) (table : Nat → Option CodeTable) : Op TileData := do
  match ← Op.attempt m key d (d.entryVa d.bix tx ty) table with
  | .tile t => return t
  | .fail f false => Op.trapHere (decodeTrap slot tx ty 0 f)
  | .fail _ true =>
    match ← Op.attempt m (key + 8) d (d.entryVa d.bix tx ty) table with
    | .tile t => return t
    | .fail f again =>
      if again = false ∨ d.rbix = 0 then Op.trapHere (decodeTrap slot tx ty 0 f)
      match ← Op.attempt m (key + 16) d (d.entryVa d.rbix tx ty) table with
      | .tile t => return t
      | .fail f _ => Op.trapHere (decodeTrap slot tx ty 1 f)

/-- The code tables of a task by slot: none for an Invalid slot and past CTN. -/
def Task.table (t : Task) (n : Nat) : Option CodeTable := (t.ctSlots.getD n none)

/-! ## Rows of an operand (R273) -/

/-- A row of operand elements with its scale words. -/
abbrev Row := List Nat × List W32

/-- The element codes of `n` packed elements of a byte string (R48, R273). -/
def unpackCodes (bits n : Nat) (bs : List Byte) : List Nat :=
  let v := ofBytes bs
  (List.range n).map fun k => bitsOf v ((k + 1) * bits - 1) (k * bits)

/-- Single elements of a row that lie apart, one after another. -/
def Op.spaced (m : Mover) (x : Shape) (key base : Nat) : Nat → Nat → Op (List Nat)
  | 0, _ => pure []
  | n + 1, k => do
    let b := x.format.bits / 8
    let bs ← Op.readRange m .engineRead x.space 2 (key + 2 * k) ((base + k * x.estride * b) % 2 ^ 64) b
    let r ← Op.spaced m x key base n (k + 1)
    return ofBytes bs :: r

/-- The bytes of a raw row and of its scale words, unchecked (R273). -/
def Op.rawRow (m : Mover) (x : Shape) (r : Nat) : Op Row := do
  let key := 4096 * (r + 1)
  let base := (x.addr + r * x.rstride) % 2 ^ 64
  let b := x.format.bits
  if b = 16 ∧ base % 2 = 1 then
    let _ ← Op.spot m .engineRead x.space base 2 2
    Op.moveFail .misaligned base
  let codes ←
    if x.estride = 1 then do
      let bs ← Op.readRange m .engineRead x.space 3 key base ((x.cols * b + 7) / 8)
      pure (unpackCodes b x.cols bs)
    else Op.spaced m x key base x.cols 0
  let n := (x.cols + x.bs - 1) / x.bs
  if x.format.scaled && !x.unit then
    let bs ← Op.readRange m .engineRead x.space 3 (key + 2048) ((x.sbase + r * n * 4) % 2 ^ 64) (4 * n)
    return (codes, (unpackCodes 32 n bs).map fun v => BitVec.ofNat 32 v)
  return (codes, [])

/-- Raw rows, in order. -/
def Op.rawRows (m : Mover) (x : Shape) : Nat → Nat → Op (List Row)
  | 0, _ => pure []
  | n + 1, r => do
    let row ← Op.rawRow m x r
    let rest ← Op.rawRows m x n (r + 1)
    return row :: rest

/-- The rows of a decoded tile. -/
def tileRows (d : TDesc) (t : TileData) : List Row :=
  (List.range d.tr).map fun r =>
    ((t.codes.drop (r * d.tc)).take d.tc, (t.scales.drop (r * (d.tc / d.bs))).take (d.tc / d.bs))

/-- The rows of a shape record, with the faults of its memory, then of its scale words or its decode (R284 items 8 and 9); peers accept
no reads of raw rows (R369). -/
def Op.operandRows (m : Mover) (x : Shape) (d : Option TDesc) (table : Nat → Option CodeTable) : Op (List Row) := do
  match d with
  | some d => do
    let t ← Op.decode m 8 d x.td x.tx x.ty table
    return tileRows d t
  | none => do
    let rows ← Op.rawRows { m with peers := false } x x.rows 0
    let words := rows.flatMap fun (r : Row) => r.2
    match words.findIdx? fun w => !scaleOk w x.bs32 with
    | some k => Op.trapHere { cause := .decodeScale, mask := 0, aux := k * 65536 }
    | none => return rows

/-! ## Accumulator tiles (R271) -/

/-- Where a value of a tile lies in the tiles' bytes. -/
def tileOff (tile row col : Nat) : Nat := 8192 * tile + 4 * (128 * row + col)

/-- A value of a tile as an FP32 code. -/
def Task.tileAt (t : Task) (tile row col : Nat) : Nat := t.tileMem.getN (tileOff tile row col) 4

/-- Values of a row of a tile written from a column on. -/
def Task.putTile (t : Task) (tile row col : Nat) (vs : List Nat) : Task :=
  { t with tileMem := t.tileMem.setBytes (tileOff tile row col) (vs.flatMap fun v => toBytes 4 v) }

/-- Every value of a tile is +0. -/
def Task.zeroTile (t : Task) (tile : Nat) : Task :=
  { t with tileMem := t.tileMem.filter fun (x : Host.Cell) => x.1 / 8192 != tile }

end Sys2Proof.Machine
end

