-- ==== Sys2Proof/Machine/MatrixInstr.lean ====
section
/-!
DEFINITION. The matrix instructions (R270 to R290): their encodings, the checks of R284, the tile interlock and the planes.
-/

namespace Sys2Proof

/-- The literal A FMT of an MMA word (R283). -/
def TWord.afmt (k : TWord) : Nat := k.h.b.toNat
/-- Columns, conversion and rounding of ACCRD and ACCWR (R283, R288). -/
def TWord.cols (k : TWord) : Nat := k.h.c.toNat % 32 + 1
def TWord.conv (k : TWord) : Nat := k.h.c.toNat / 32
def TWord.rnd (k : TWord) : Nat := (k.md.extractLsb' 3 3).toNat
/-- Registers of a window (R288). -/
def TWord.accRegs (k : TWord) : Nat := if k.conv = 0 then k.cols else (k.cols + 1) / 2

end Sys2Proof

namespace Sys2Proof.Machine

open Sys2Proof

/-! ## Encodings (R283) -/

/-- The T fields that an instruction uses. -/
structure TUse where
  plane : Bool := false
  tile : Bool := false
  osrq : Bool := false
  td : Bool := false
  ct : Bool := false
  asrc : Bool := false
  atile : Bool := false
  md : BitVec 6 := 0
  deriving DecidableEq, Repr

/-- A T field that is not used is not zero (R25). -/
def TUse.bad (u : TUse) (k : TWord) : Bool :=
  k.z != 0 || k.md &&& ~~~u.md != 0 || (!u.plane && k.plane != 0) || (!u.tile && k.tile != 0)
    || (!u.osrq && k.osrq != 0) || (!u.td && k.td != 0) || (!u.ct && k.ct != 0) || (!u.asrc && k.asrc != 0)
    || (!u.atile && k.atile != 0)

/-- WLOAD. -/
def wloadEnc (k : TWord) : Enc :=
  { prof := 2, umode := .one, b := .sSrcOpt .w64, reserved := TUse.bad { plane := true, osrq := true } k }

/-- A uniform instruction without operands. -/
def plainEnc (prof : Nat) (u : TUse) (k : TWord) : Enc := { prof := prof, umode := .one, reserved := u.bad k }

/-- A literal A FMT outside the codes of R270. -/
def afmtBad (k : TWord) : Bool := k.afmt == 0 || decide (8 < k.afmt)

/-- MMA with A rows from registers (ASRC 0). -/
def mmaRegEnc (k : TWord) : Enc :=
  { prof := 2, fmtProf := if k.asrc == 0 && fmtNew k.afmt then 3 else 1, umode := .zero, a := .gSrc .w128, b := .lit,
    reserved := TUse.bad { plane := true, tile := true, md := 0xF } k || afmtBad k
      || (k.md.getLsbD 3 && (k.afmt == 1 || k.afmt == 2)) }

/-- MMA with A rows from a tile (ASRC 1). -/
def mmaTileEnc (k : TWord) : Enc :=
  { prof := 2, fmtProf := if fmtNew k.afmt then 3 else 1, umode := .one, b := .lit, c := .lit,
    reserved := TUse.bad { plane := true, tile := true, asrc := true, atile := true, md := 7 } k || afmtBad k
      || decide (16 ≤ k.h.c.toNat) }

/-- MMA with A rows from a shape record (ASRC 2). -/
def mmaShapeEnc (k : TWord) : Enc :=
  plainEnc 2 { plane := true, tile := true, osrq := true, asrc := true, md := 7 } k

/-- The literals of ACCRD and ACCWR are legal. -/
def accLit (k : TWord) : Bool := decide (k.conv ≤ 2) && decide (k.h.b.toNat < 128)

/-- ACCRD. -/
def accrdEnc (k : TWord) : Enc :=
  { prof := 2, umode := .zero, d := .gDst .w32, b := .lit, c := .lit, dSpan := k.accRegs,
    reserved := TUse.bad { tile := true, md := 0x38 } k || !accLit k || decide (3 < k.rnd)
      || (k.conv == 0 && k.rnd != 0) }

/-- ACCWR. -/
def accwrEnc (k : TWord) : Enc :=
  { prof := 2, umode := .zero, a := .gSrc .w32, b := .lit, c := .lit, aSpan := k.accRegs,
    reserved := TUse.bad { tile := true } k || !accLit k }

/-- DRAIN. -/
def drainEnc (k : TWord) : Enc :=
  { prof := 3, umode := .one, a := .sSrcOpt .w64, b := .sSrc .w64,
    reserved := TUse.bad { tile := true, td := true, ct := true, md := 0x38 } k || k.md.extractLsb' 4 2 == 3 }

/-- The rounding of an encoder by its two mode bits: RNE, RTZ, RSR. -/
def encoderMode (n : Nat) : Mode := Mode.ofCode (if n = 2 then 4 else n)

/-! ## Tiles and planes of a task (R270, R271, R284) -/

/-- TILE_NOT_OWNED. -/
def Op.ownTile (c : Ctx) (n : Nat) : Op Unit := do
  let t ← Op.task c
  if t.tiles.length ≤ n then Op.trap .tileNotOwned c.whole

/-- A plane of the task; PLANE_NOT_OWNED. -/
def Op.ownPlane (c : Ctx) (n : Nat) : Op Plane := do
  let t ← Op.task c
  match t.planes[n]? with
  | some p => return p
  | none => Op.trap .planeNotOwned c.whole

/-- An empty plane (R271). -/
def Plane.empty_ : Plane :=
  { st := .empty, fmt := 0, k := 0, n := 0, sparse := false, bs32 := false, unit := false, cols := [], scales := [] }

/-- The largest dense K of a plane format (R270). -/
def largestK (f : Fmt) : Nat := if f.bits = 4 then 256 else if f.bits = 8 then 128 else 64

/-- A plane of a format accepts an A format (R270). -/
def accepts (plane a : Nat) : Bool :=
  match plane with
  | 3 | 4 | 6 => a == 3 || a == 4
  | f => a == f

/-- The task's plane changed. -/
def State.modPlane (s : State) (task p : Nat) (f : Plane → Plane) : State :=
  s.modTask task fun t => { t with planes := t.planes.modify p f }

/-! ## Issue order (R276) -/

/-- A debug freeze stops the engines of every core but those of the debug partition (R293, R381). -/
def State.coreRuns (s : State) (core : Nat) : Bool :=
  s.mgmt.boot == 3 && (!s.frozen || match s.debugSlot with
    | some d => (s.ctx d).hasCluster (clusterOf core)
    | none => false)

/-- An operation that names nothing. -/
def MatOp.blank (c : Ctx) (kind : Nat) : MatOp :=
  { n := 0, cycle := 0, quarter := c.lane / 8, task := c.task, warp := c.warp, kind := kind, tile := none, atile := none,
    plane := none, physPlane := 0, coded := false, afmt := 0, m := 0, kA := 0, zero := false, na := false, nb := false,
    rows := [], bs32 := true, weights := none, inPort := false, taken := false, left := false, word := none, osr := [], td := none,
    maddr := 0, began := none }

/-- An operation takes its place: after those of earlier cycles, and in one cycle by quarter (R276). -/
def Core.issueOp (k : Core) (o : MatOp) : Core :=
  let o := { o with n := k.nextOp, cycle := k.cycles }
  let before (x : MatOp) : Bool := !(x.cycle == o.cycle && decide (o.quarter < x.quarter))
  { k with ops := k.ops.takeWhile before ++ o :: k.ops.dropWhile before, nextOp := k.nextOp + 1 }

/-- An operation of a warp whose instruction has not ended. -/
def State.pendingOp (s : State) (core : Nat) (r : WarpRef) (kind : Nat) : Option MatOp :=
  (s.core core).ops.find? fun o => o.task == r.task && o.warp == r.warp && o.kind == kind && o.pending

/-- The operations before one in the issue order. -/
def Core.earlier (k : Core) (n : Nat) : List MatOp := k.ops.takeWhile fun o => o.n != n

/-- An operation names a tile of a task, as TILE or as ATILE. -/
def MatOp.names (o : MatOp) (task tile : Nat) : Bool :=
  o.task == task && (o.tile == some tile || o.atile == some tile)

/-- An operation is gone from a core. -/
def State.dropOp (s : State) (core n : Nat) : State :=
  s.modCore core fun k => { k with ops := k.ops.filter fun (o : MatOp) => o.n != n }

/-- An operation of a core changed. -/
def State.modOp (s : State) (core n : Nat) (f : MatOp → MatOp) : State :=
  s.modCore core fun k => { k with ops := k.ops.map fun (o : MatOp) => if o.n = n then f o else o }

/-- The instruction stalls where it stands. -/
def Op.stallHere {α : Type} (c : Ctx) (why : Stall) : Op α := do
  Op.modWarp c fun w => { w with stall := some why }
  Op.holdHere

/-- The operations of the core before the instruction's own in the issue order. -/
def State.before (s : State) (c : Ctx) : List MatOp :=
  match s.heldOp c with
  | some o => (s.core c.core).earlier o.n
  | none => (s.core c.core).ops

/-- An instruction that has kept a place in the issue order leaves it. -/
def State.leavePlace (s : State) (c : Ctx) : State := match s.heldOp c with
  | some x => s.dropOp c.core x.n
  | none => s

/-- An instruction keeps its place in the issue order, as `o`, from its first wait to its end (R276). -/
def Op.inPlace {α : Type} (c : Ctx) (o : MatOp) (f : Op α) : Op α := fun s =>
  match f s with
  | .error (.hold s) => .error (.hold (if (s.heldOp c).isSome then s else s.modCore c.core fun k => k.issueOp o))
  | .ok (a, s) => .ok (a, s.leavePlace c)
  | r => r

/-- The tile interlock (R280): the instruction waits until every earlier operation that names the tile has retired. -/
def Op.turnOf (c : Ctx) (tile : Nat) : Op Unit := do
  let s ← Op.state
  if (s.before c).any fun x => x.names c.task tile then Op.stallHere c .tileInterlock

/-- The wait of ACCRD, ACCWR and ACCZ (R280), in their place of the issue order. -/
def Op.tileTurn (c : Ctx) (tile : Nat) : Op Unit :=
  Op.inPlace c { MatOp.blank c 1 with tile := some tile } (Op.turnOf c tile)

/-- The code tables stand as the instruction's place gives them: no earlier CTLD or CTINV of the task waits (R315). -/
def Op.tableTurn (c : Ctx) : Op Unit := do
  let s ← Op.state
  if (s.before c).any fun x => x.kind == 7 && x.task == c.task then Op.stallHere c .decode

/-- The encoder serves the core's DRAINs and TSTs in issue order (R324). -/
def Op.encoderTurn (c : Ctx) : Op Unit := do
  let s ← Op.state
  if (s.before c).any fun x => x.kind == 5 || x.kind == 6 then Op.stallHere c .encode

/-- An operation with the shape record of an instruction, and the descriptor it names (R272, R328). -/
def MatOp.shaped (o : MatOp) (w : Warp) (t : Task) (q : Nat) : MatOp :=
  let r := w.osr q
  let x := (r.getD 3 0).toNat
  { o with osr := r, td := if x.testBit 38 then some (vget t.td (bitsOf x 47 44) 0) else none, coded := x.testBit 38 }

/-- Elements of the tile of an operation's shape record, and their format. -/
def MatOp.elems (o : MatOp) : Nat × Fmt :=
  let x := (o.osr.getD 3 0).toNat
  (bitsOf x 9 0 * bitsOf x 25 16, (Fmt.ofCode (bitsOf x 35 32)).getD .fp32)

/-- The cycles in which the raw bytes of an operation's shape record are fetched (R279). -/
def MatOp.rawCycles (o : MatOp) : Nat := (o.elems.1 * o.elems.2.bits / 8 + 255) / 256

/-- The cycles in which a decoder delivers the symbols of its tile (R279). -/
def MatOp.symbolCycles (o : MatOp) : Nat := ((if o.elems.2.bits = 4 then o.elems.1 / 2 else o.elems.1) + 63) / 64

/-! ## Regions (R281) -/

/-- A tile is written: regions that have read it commit, or all of them by force. -/
def Op.tileWrite (c : Ctx) (tile : Nat) (force : Bool) : Op Unit := do
  let w ← Op.warp c
  let hit := if force then c.executing else c.executing.filter fun t => (w.thread t).region.tiles.contains tile
  if !hit.isEmpty then Op.commit c hit

/-- A tile is read in the regions of the threads. -/
def Op.tileRead (c : Ctx) (tile : Nat) : Op Unit :=
  Op.modWarp c fun w => w.modThreads c.executing fun th =>
    { th with region := if th.region.inside && !th.region.tiles.contains tile then
        { th.region with tiles := th.region.tiles ++ [tile] } else th.region }

/-! ## WLOAD and WFREE (R275, R285, R286) -/

/-- The plane is still needed by an earlier MMA. -/
def State.planeWaits (s : State) (core task n p : Nat) : Bool :=
  ((s.core core).earlier n).any fun o =>
    o.task == task && o.plane == some p && ((o.kind == 0 && !o.left) || o.kind == 4)

/-- An earlier CTLD or CTINV of the task waits, and the operation decodes (R315). -/
def State.tableWaits (s : State) (core : Nat) (o : MatOp) : Bool :=
  o.coded && ((s.core core).earlier o.n).any fun x => x.kind == 7 && x.task == o.task

/-- The stall of a warp whose WLOAD is under way. -/
def State.loadStall (s : State) (core task n p : Nat) : Stall :=
  if s.planeWaits core task n p then .planeBusy else .memory

/-- The operands of an operation are on their way: its plane and its code tables wait for nothing (R275, R279, R315). -/
def State.fetches (s : State) (core : Nat) (o : MatOp) : Bool :=
  o.pending && !s.tableWaits core o &&
    match o.kind, o.plane with
    | 0, _ => o.rows.isEmpty
    | 2, some p => !s.planeWaits core o.task o.n p
    | _, _ => false

/-- In a core cycle in which an operation's operands begin to come, its warp stalls for them (R279). -/
def State.beginFetch (s : State) (core : Nat) : State :=
  ((s.core core).ops.filter fun o => o.began.isNone && s.fetches core o).foldl (fun (s : State) (o : MatOp) =>
    (s.modOp core o.n fun x => { x with began := some (s.core core).cycles }).modWarp o.task o.warp fun w =>
      { w with stall := if w.stall = some .planeBusy then some .memory else w.stall }) s

/-- The place of a WLOAD, with its shape record and the address of its metadata (R285). -/
def wloadOp (c : Ctx) (k : TWord) (w : Warp) (t : Task) : MatOp :=
  { { MatOp.blank c 2 with plane := some k.plane.toNat, word := some k }.shaped w t k.osrq.toNat with
    maddr := (read64 c w (c.active.headD 0) k.h.b).toNat }

/-- WLOAD at its issue: its checks, then the plane is Loading and the warp waits. DEDUCED (log 56): R275 lists no WLOAD and no WFREE in
state Loading, where by R7 they have no effect. -/
def wloadRun (c : Ctx) (k : TWord) : Op Unit := do
  if c.parts.isEmpty then return ()
  let p := k.plane.toNat
  let s ← Op.state
  match s.pendingOp c.core { task := c.task, warp := c.warp } 2 with
  | some o => Op.stallHere c (s.loadStall c.core c.task o.n p)
  | none => pure ()
  let own ← Op.ownPlane c p
  let w ← Op.warp c
  let t ← Op.task c
  let x ← Op.shape c w k.osrq.toNat
  if 128 < x.1.rows ∨ largestK x.1.format < x.1.cols ∨ (k.h.b ≠ 0xC8 ∧ x.1.cols % 2 = 1) then
    Op.trap .shapeRange c.whole
  match x.2 with
  | some d => Op.coordinate c.whole w d x.1.tx x.1.ty
  | none => pure ()
  if own.st = .loading then return ()
  let n := (s.core c.core).nextOp
  Op.modify fun s => (s.modCore c.core fun q =>
    q.issueOp (wloadOp c k w t)).modPlane c.task p fun y => { y with st := .loading }
  Op.stallHere c (s.loadStall c.core c.task n p)

/-- WLOAD (R285). -/
def execWload (w : TWord) (s : State) : Out := issueT wloadEnc w .straight wloadRun s

/-- The fields of WFREE. -/
def encOfWfree : TWord → Enc := plainEnc 2 { plane := true }

/-- WFREE (R275, R286): earlier MMAs keep the plane as it stood at their issue; a Loading plane stays (log 56). -/
def execWfree (w : TWord) (s : State) : Out :=
  issueT encOfWfree w .straight (fun c k => do
    if c.parts.isEmpty then return ()
    let p ← Op.ownPlane c k.plane.toNat
    if p.st = .loading then return ()
    Op.modify fun s => s.modPlane c.task k.plane.toNat fun _ => .empty_) s

/-- The stored elements of a column of a sparse plane (R285): each group of 4 positions holds two elements at i0 < i1; none where
a nibble breaks that. -/
def sparseColumn (codes : List Nat) (nib : Nat → Nat) : Option (List (Nat × Nat)) :=
  let groups := (List.range (codes.length / 2)).map fun g => (g, nib g % 4, nib g / 4)
  if groups.all fun x => decide (x.2.1 < x.2.2) then
    some (groups.flatMap fun x =>
      [(4 * x.1 + x.2.1, codes.getD (2 * x.1) 0), (4 * x.1 + x.2.2, codes.getD (2 * x.1 + 1) 0)])
  else none

/-- The columns of a plane from the rows of a shape record and the metadata, if any. -/
def planeColumns (rows : List Row) (meta_ : Option (List Byte)) : Option (List (List (Nat × Nat))) :=
  match meta_ with
  | none => some (rows.map fun r => r.1.zipIdx.map fun p => (p.2, p.1))
  | some bs =>
    rows.zipIdx.mapM fun p =>
      let stride := (2 * p.1.1.length + 7) / 8
      sparseColumn p.1.1 fun g => (bs.getD (p.2 * stride + g / 2) 0).toNat / 16 ^ (g % 2) % 16

/-- The rows of a WLOAD's shape record, and its metadata from the address that it had at its issue, which is read before them. -/
def Op.planeRows (c : Ctx) (k : TWord) (va : Nat) (t : Task) (x : Shape × Option TDesc) : Op (List Row × Option (List Byte)) := do
  let kk := if k.h.b = 0xC8 then x.1.cols else 2 * x.1.cols
  let meta_ ← if k.h.b = 0xC8 then pure none else do
    let bs ← Op.readRange { c.mover with peers := false } .engineRead 0 4 0 va (x.1.rows * ((kk + 7) / 8))
    pure (some bs)
  let rows ← Op.operandRows c.mover x.1 x.2 t.table
  return (rows, meta_)

/-- The end of a WLOAD (R275, R285): the weights, scales and metadata are read and latched, and the warp goes on. -/
def wloadFinish (o : MatOp) (c : Ctx) (k : TWord) : Op Unit := do
  let p := k.plane.toNat
  let w ← Op.warp c
  let t ← Op.task c
  let x ← Op.shape c w k.osrq.toNat
  let sh := x.1
  let kk := if k.h.b = 0xC8 then sh.cols else 2 * sh.cols
  let r ← Op.asWarp c.whole (Op.planeRows c k o.maddr t x)
  match planeColumns r.1 r.2 with
  | none => Op.trap .sparseMeta c.whole
  | some cols => Op.modify fun s =>
    let y : Plane :=
      { st := .loaded, fmt := sh.fmt, k := kk, n := sh.rows, sparse := k.h.b != 0xC8,
        bs32 := sh.bs32, unit := sh.unit, cols := cols, scales := r.1.map fun (row : Row) => row.2 }
    ((s.dropOp c.core o.n).modPlane c.task p fun _ => y).modCore c.core fun q => { q.planeReady c.task p y with idle := 0 }

/-- PLANE_LOAD_COMPLETE (R275). -/
def execPlaneLoadComplete (w : WarpId) (s : State) : Out :=
  s.keeping <|
  match s.warpAt w.core w.warp with
  | none => .next s
  | some r =>
    match s.pendingOp w.core r 2 with
    | some o =>
      match o.word with
      | some k =>
        if !s.coreRuns w.core || s.planeWaits w.core r.task o.n k.plane.toNat || s.tableWaits w.core o then .next s
        else
          issueT wloadEnc k .straight (wloadFinish o) { s with issuer := some r }
      | none => .next s
    | none => .next s

/-! ## MMA (R274, R277, R287) -/

/-- The register row of a participant (R274): its element codes and scale words. -/
def registerRow (w : Warp) (t : Tid) (a bits k ns : Nat) : Row :=
  let th := w.thread t
  let reg (i : Nat) : W32 := vget th.g (a + i) 0
  ((List.range k).map fun i => bitsOf (reg (i * bits / 32)).toNat (i * bits % 32 + bits - 1) (i * bits % 32),
    (List.range ns).map fun j => reg ((k * bits + 31) / 32 + j))

/-- The place of an MMA that waits (R276): the tiles and the plane that it names. -/
def mmaPlace (c : Ctx) (k : TWord) : MatOp :=
  { MatOp.blank c 4 with
    tile := some k.tile.toNat, atile := if k.asrc = 1 then some k.atile.toNat else none, plane := some k.plane.toNat }

/-- The plane of an MMA as it stands at its issue: Loaded, or as the load in progress leaves it, for which the warp stalls in its place;
an Empty one is PLANE_NOT_OWNED (R275). -/
def Op.loadedPlane (c : Ctx) (n : Nat) (place : MatOp) : Op Plane := do
  let own ← Op.ownPlane c n
  let s ← Op.state
  match s.pendingOp c.core { task := c.task, warp := c.warp } 4 with
  | some o =>
    match o.weights with
    | some p => if p.st = .empty then Op.trap .planeNotOwned c.whole 0 1 else return p
    | none => Op.stallHere c .planeBusy
  | none =>
    match own.st with
    | .loaded => return own
    | .loading => do
      Op.modify fun s => s.modCore c.core fun k => k.issueOp place
      Op.stallHere c .planeBusy
    | .empty => Op.trap .planeNotOwned c.whole 0 1

/-- MMAs that a quarter's port holds (R277). -/
def Core.portLoad (k : Core) (q : Nat) : Nat :=
  (k.ops.filter fun o => o.kind == 0 && o.inPort && !o.taken && o.quarter == q).length

/-- The part of an operation that the word and the plane give. -/
def mmaOp (c : Ctx) (t : Task) (k : TWord) (p : Plane) : MatOp :=
  { MatOp.blank c 0 with
    tile := some k.tile.toNat, plane := some k.plane.toNat, physPlane := t.planeIds.getD k.plane.toNat 0,
    zero := k.md.getLsbD 0, na := k.md.getLsbD 1, nb := k.md.getLsbD 2, weights := some p, word := some k }

/-- An MMA takes its place, or the one that it keeps (R276). -/
def State.takePlace (s : State) (c : Ctx) (o : MatOp) : State :=
  match s.pendingOp c.core { task := c.task, warp := c.warp } 4 with
  | some x => s.modOp c.core x.n fun x => { o with n := x.n, cycle := x.cycle }
  | none => s.modCore c.core fun k => k.issueOp o

/-- An MMA with operands held enters its port (R277); while the port is full it waits in its place. -/
def Op.enterPort (c : Ctx) (o : MatOp) : Op Unit := do
  let s ← Op.state
  if 4 ≤ (s.core c.core).portLoad o.quarter then
    Op.put (s.takePlace c { o with kind := 4 })
    Op.stallHere c .matrixPort
  Op.put (s.takePlace c { o with inPort := true })

/-- MMA of register rows (R274, R287). -/
def mmaRegRun (c : Ctx) (k : TWord) : Op Unit := do
  if c.parts.isEmpty then return ()
  Op.ownTile c k.tile.toNat
  let p ← Op.loadedPlane c k.plane.toNat (mmaPlace c k)
  let w ← Op.warp c
  let t ← Op.task c
  let f := (Fmt.ofCode k.afmt).getD .fp32
  if accepts p.fmt k.afmt = false then Op.trap .formatMismatch c.whole
  let ns := if f.scaled && !k.md.getLsbD 3 then (p.k + 31) / 32 else 0
  if c.regs < k.h.a.toNat + (p.k * f.bits + 31) / 32 + ns then Op.trap .illegalSelector c.whole
  let rows := c.parts.map fun i => registerRow w i k.h.a.toNat f.bits p.k ns
  let bad := (c.parts.zip rows).filter fun x => x.2.2.any fun v => !scaleOk v true
  if !bad.isEmpty then Op.trap .decodeScale (maskOf (bad.map (·.1)))
  Op.enterPort c { mmaOp c t k p with afmt := k.afmt, m := c.parts.length, kA := p.k, rows := rows }
  Op.tileWrite c k.tile.toNat (!k.md.getLsbD 0)

/-- MMA_REGISTERS (R287). -/
def execMmaRegisters (w : TWord) (s : State) : Out := issueT mmaRegEnc w .straight mmaRegRun s

/-- MMA of a tile (R287): its rows pass the down-converter when the pass takes it (R277). -/
def mmaTileRun (c : Ctx) (k : TWord) : Op Unit := do
  if c.parts.isEmpty then return ()
  let a := k.atile.toNat
  Op.ownTile c k.tile.toNat
  Op.ownTile c a
  let p ← Op.loadedPlane c k.plane.toNat (mmaPlace c k)
  let t ← Op.task c
  if accepts p.fmt k.afmt = false then Op.trap .formatMismatch c.whole
  if 128 < p.k then Op.trap .shapeRange c.whole
  Op.enterPort c { mmaOp c t k p with afmt := k.afmt, atile := some a, m := k.h.c.toNat % 16 + 1, kA := p.k }
  Op.tileWrite c k.tile.toNat (!k.md.getLsbD 0 || k.atile == k.tile)
  Op.tileRead c a

/-- MMA_TILE (R287). -/
def execMmaTile (w : TWord) (s : State) : Out := issueT mmaTileEnc w .straight mmaTileRun s

/-- MMA of a shape record at its issue: its checks, and the warp waits for its operands (R277). -/
def mmaShapeRun (c : Ctx) (k : TWord) : Op Unit := do
  if c.parts.isEmpty then return ()
  let s ← Op.state
  match s.pendingOp c.core { task := c.task, warp := c.warp } 0 with
  | some o => Op.stallHere c (if o.rows.isEmpty then .memory else .matrixPort)
  | none => pure ()
  Op.ownTile c k.tile.toNat
  let w ← Op.warp c
  let t ← Op.task c
  let p ← Op.loadedPlane c k.plane.toNat ((mmaPlace c k).shaped w t k.osrq.toNat)
  let x ← Op.shape c w k.osrq.toNat
  if accepts p.fmt x.1.fmt = false then Op.trap .formatMismatch c.whole
  if 16 < x.1.rows ∨ p.k < x.1.cols then Op.trap .shapeRange c.whole
  match x.2 with
  | some d => Op.coordinate c.whole w d x.1.tx x.1.ty
  | none => pure ()
  let s ← Op.state
  let held := (s.heldOp c).getD ((mmaOp c t k p).shaped w t k.osrq.toNat)
  Op.put (s.takePlace c { mmaOp c t k p with
    afmt := x.1.fmt, m := x.1.rows, kA := x.1.cols, coded := x.1.coded, bs32 := x.1.bs32, osr := held.osr, td := held.td })
  Op.stallHere c .memory

/-- MMA_SHAPE_RECORD (R287). -/
def execMmaShapeRecord (w : TWord) (s : State) : Out := issueT mmaShapeEnc w .straight mmaShapeRun s

/-- The end of an MMA of a shape record (R277): its rows are fetched and decoded, it enters its port once there is a place, and the warp
goes on. -/
def mmaShapeFinish (o : MatOp) (c : Ctx) (k : TWord) : Op Unit := do
  let w ← Op.warp c
  let t ← Op.task c
  if o.rows.isEmpty then
    let x ← Op.shape c w k.osrq.toNat
    let rows ← Op.asWarp c.whole (Op.operandRows c.mover x.1 x.2 t.table)
    Op.modify fun s => (s.modOp c.core o.n fun o => { o with rows := rows }).modCore c.core fun q => { q with idle := 0 }
  let s ← Op.state
  if 4 ≤ (s.core c.core).portLoad o.quarter then Op.stallHere c .matrixPort
  Op.modify fun s => s.modOp c.core o.n fun o => { o with inPort := true }
  Op.tileWrite c k.tile.toNat (!k.md.getLsbD 0)

/-- MMA_PORT_ENTRY (R277): the operands of an MMA arrive, or its port has a place again. -/
def execMmaPortEntry (w : WarpId) (s : State) : Out :=
  s.keeping <|
  match s.warpAt w.core w.warp with
  | none => .next s
  | some r =>
    match s.pendingOp w.core r 0 with
    | some o =>
      match o.word with
      | some k =>
        if !s.coreRuns w.core || s.tableWaits w.core o then .next s
        else issueT mmaShapeEnc k .straight (mmaShapeFinish o) { s with issuer := some r }
      | none => .next s
    | none => .next s

/-! ## ACCRD, ACCWR and ACCZ (R280, R288, R289) -/

/-- The format of a conversion (R283). -/
def convFmt (n : Nat) : Fmt := if n = 1 then .fp16 else if n = 2 then .bf16 else .fp32

/-- A value of a tile in the format of a conversion, with its flags. -/
def accOut (conv rnd code : Nat) : Nat × W32 :=
  (convFmt conv).round (Fmt.fp32.value code) false (Mode.ofCode rnd) false 0

/-- Values in the registers of a window (R288). -/
def packWindow (conv : Nat) (vs : List Nat) : List Nat :=
  if conv = 0 then vs else (pieces 2 vs.length vs).map fun p => p.getD 0 0 + 65536 * p.getD 1 0

/-- Consecutive g registers of a thread written. -/
def Thread.putRegs (th : Thread) (g : Nat) (vs : List Nat) : Thread :=
  vs.zipIdx.foldl (fun th p => th.setG (g + p.2) (BitVec.ofNat 32 p.1)) th

/-- The flags that a thread's values raise. -/
def rowFlags (y : Tid × List (Nat × W32)) : W32 := y.2.foldl (fun f z => f ||| z.2) 0

/-- The values that each participant of ACCRD receives, with the flags of their conversion. -/
def accrdGives (c : Ctx) (k : TWord) (t : Task) : List (Tid × List (Nat × W32)) :=
  c.parts.map fun i => (i, (List.range k.cols).map fun j =>
    accOut k.conv k.rnd (t.tileAt k.tile.toNat i.val (k.h.b.toNat + j)))

/-- ACCRD (R288). -/
def execAccrd (w : TWord) (s : State) : Out :=
  issueT accrdEnc w .straight (fun c k => do
    if c.parts.isEmpty then return ()
    Op.ownTile c k.tile.toNat
    if 128 < k.h.b.toNat + k.cols then Op.trap .accRange c.whole
    Op.tileTurn c k.tile.toNat
    let t ← Op.task c
    let outs := accrdGives c k t
    raise c (outs.foldl (fun f x => f ||| rowFlags x) 0) (maskOf ((outs.filter fun x => rowFlags x != 0).map (·.1)))
    Op.modWarp c fun w => outs.foldl (fun w x =>
      w.modThread x.1 fun th => th.putRegs k.h.d.toNat (packWindow k.conv (x.2.map (·.1)))) w
    Op.tileRead c k.tile.toNat) s

/-- The values that a thread gives to ACCWR, as FP32 codes (R288). -/
def accIn (w : Warp) (t : Tid) (k : TWord) : List Nat :=
  (List.range k.cols).map fun j =>
    if k.conv = 0 then (vget (w.thread t).g (k.h.a.toNat + j) 0).toNat
    else
      let r := (vget (w.thread t).g (k.h.a.toNat + j / 2) 0).toNat
      (Fmt.fp32.round ((convFmt k.conv).value (r / 65536 ^ (j % 2) % 65536)) false .rne false 0).1

/-- ACCWR (R288). -/
def execAccwr (w : TWord) (s : State) : Out :=
  issueT accwrEnc w .straight (fun c k => do
    if c.parts.isEmpty then return ()
    Op.ownTile c k.tile.toNat
    if 128 < k.h.b.toNat + k.cols then Op.trap .accRange c.whole
    Op.tileTurn c k.tile.toNat
    let w ← Op.warp c
    Op.tileWrite c k.tile.toNat false
    Op.modify fun s => s.modTask c.task fun t =>
      c.parts.foldl (fun t i => t.putTile k.tile.toNat i.val k.h.b.toNat (accIn w i k)) t) s

/-- The fields of ACCZ. -/
def encOfAccz : TWord → Enc := plainEnc 2 { tile := true }

/-- ACCZ (R289). -/
def execAccz (w : TWord) (s : State) : Out :=
  issueT encOfAccz w .straight (fun c k => do
    if c.parts.isEmpty then return ()
    Op.ownTile c k.tile.toNat
    Op.tileTurn c k.tile.toNat
    Op.tileWrite c k.tile.toNat false
    Op.modify fun s => s.modTask c.task fun t => t.zeroTile k.tile.toNat) s

/-! ## DRAIN (R290) -/

/-- The values that a DRAIN converts, in row-major order. -/
def Task.drainValues (t : Task) (tile : Nat) (d : TDesc) : List Nat :=
  (List.range d.tr).flatMap fun r => (List.range d.tc).map fun col => t.tileAt tile r col

/-- The checks of a DRAIN before its wait (R284, R290): the descriptor, the coordinate and the code table. -/
def Op.drainChecks (c : Ctx) (k : TWord) (w : Warp) : Op (TDesc × Nat × CodeTable) := do
  Op.ownTile c k.tile.toNat
  let d ← Op.descriptor c c.whole k.td.toNat
  if d.fmt = 6 ∧ (k.md.extractLsb' 4 2).toNat ≠ 0 then Op.trap .reservedField c.whole
  let at_ := (read64 c w (c.active.headD 0) k.h.b).toNat
  let tx := bitsOf at_ 31 0
  let ty := bitsOf at_ 63 32
  if 16 < d.tr ∨ 128 < d.tc ∨ d.holds tx ty = false then Op.trap .shapeRange c.whole
  if d.had = true ∧ d.format.scaled = false then Op.trap .hadamardShape c.whole
  if d.format.scaled = true ∧ d.tc % d.bs ≠ 0 then Op.trap .drainFormat c.whole
  let t ← Op.task c
  match t.table k.ct.toNat with
  | some ct => return (d, d.entryVa d.bix tx ty, ct)
  | none => Op.trap .codeTableInvalid c.whole

/-- A DRAIN that has encoded and placed its tile: what is left when its warp has gone on. -/
def Ctx.drainOp (c : Ctx) (s : State) (t : Task) (w : Warp) (d : TDesc) (p : Placing) (csg : Option W64) (flags : W32) : DrainOp :=
  { task := c.task, warp := c.warp, ctx := c.ctx, kid := c.kid, priv := c.priv, pc := c.pc.toNat,
    seq := (s.core c.core).nextOp, block := p.block, entry := p.entry, old := p.old, fresh := p.fresh, pool := d.pool,
    csg := csg, hold := w.depth != 0, flags := flags, tag := BitVec.ofNat 32 (s.tagOf t), handle := t.handle c.warp,
    published := false }

/-- An earlier DRAIN of the core to the same entry is served first (R324): it is not published yet. -/
def Op.entryFree (c : Ctx) (va : Nat) : Op Unit := do
  let p ← Op.asWarp c.whole (Op.spot c.mover .engineRead 0 va 16 16)
  let s ← Op.state
  let busy := (s.core c.core).drains.any fun (o : DrainOp) =>
    !o.published && o.entry.any fun (x : Piece) => p.1 == .phys x.pa
  if busy then Op.stallHere c .encode

/-- What a DRAIN's encoder makes of its tile, with the stochastic state that it leaves (R119, R290); an FP32 element is not rounded and
draws nothing (R55). -/
def drainMakes (k : TWord) (w : Warp) (t : Task) (lead : Tid) (d : TDesc) : (TileData × W32) × W32 :=
  let mode := encoderMode (k.md.extractLsb' 4 2).toNat
  let draws := if mode = .rsr ∧ d.fmt ≠ 0 then srands d.elems (w.thread lead).seed else (List.replicate d.elems 0, (w.thread lead).seed)
  (quantiseTile d (k.md.getLsbD 3) mode (t.drainValues k.tile.toNat d) draws.1, draws.2)

/-- The storage of a DRAIN's tile (R290, R320, R324), and the check of its completion stalagmite. -/
def Op.placeDrain (c : Ctx) (k : TWord) (x : TDesc × Nat × CodeTable) (csg : Option W64) (q : TileData) : Op Placing := do
  match csg with
  | some va => do let _ ← Op.spot c.mover .sgAdd 0 va.toNat 8 8
  | none => pure ()
  let old ← Op.readEntry c.mover 0 x.2.1
  Op.place c.mover 10 x.1 k.ct.toNat x.2.2 q x.2.1 old

/-- An ENGINE frame of the encoder about a DRAIN (R384): event 0 accepted, 1 complete, 2 fault, 3 discarded. -/
def State.drainFrame (s : State) (o : DrainOp) (event : Nat) : State :=
  s.traceFrame o.task o.warp 3 (toBytes 4 o.seq ++ [BitVec.ofNat 8 event, 2, 0, 0] ++ toBytes 8 o.pc)

/-- A DRAIN goes on beside its warp: the encoder keeps it, the place that its old extent needs is held, and the warp's section waits
for it (R259, R290, R324). -/
def State.keepDrain (s : State) (c : Ctx) (o : DrainOp) (lead : Tid) (seed : W32) : State :=
  let s := (s.modCore c.core fun g => { g with drains := g.drains ++ [o], nextOp := g.nextOp + 1 }).modCtx c.ctx fun (x : Context) =>
    if o.old.isSome then { x with dfqHeld := x.dfqHeld + 1 } else x
  let s := s.modWarp c.task c.warp fun w =>
    let w := if o.hold then { w with held := w.held + 1 } else w
    w.modThread lead fun th => { th with seed := seed }
  s.drainFrame o 0

/-- The completion stalagmite of a DRAIN, when A names a register. -/
def drainSg (c : Ctx) (k : TWord) (w : Warp) : Option W64 :=
  if k.h.a = 0xC8 then none else some (read64 c w (c.active.headD 0) k.h.a)

/-- The place of a DRAIN that waits (R276), with the descriptor as it stands (R328). -/
def drainPlace (c : Ctx) (k : TWord) (t : Task) : MatOp :=
  { MatOp.blank c 6 with tile := some k.tile.toNat, coded := true, td := some (vget t.td k.td.toNat 0) }

/-- The work of a DRAIN up to the release of its warp: its checks, its waits, and the tile quantised, encoded and placed. -/
def Op.drainTile (c : Ctx) (k : TWord) (w : Warp) : Op (TDesc × Placing × (TileData × W32) × W32) := do
  Op.tableTurn c
  let x ← Op.drainChecks c k w
  Op.turnOf c k.tile.toNat
  Op.encoderTurn c
  Op.entryFree c x.2.1
  Op.release c c.whole
  let t ← Op.task c
  let q := drainMakes k w t (c.active.headD 0) x.1
  let p ← Op.asWarp c.whole (Op.placeDrain c k x (drainSg c k w) q.1.1)
  return (x.1, p, q)

/-- DRAIN (R290): every check, the quantisation and the allocation come before the release of its warp. -/
def execDrain (w : TWord) (s : State) : Out :=
  issueT drainEnc w .straight (fun c k => do
    if c.parts.isEmpty then return ()
    let w ← Op.warp c
    let t ← Op.task c
    let x ← Op.inPlace c (drainPlace c k t) (Op.drainTile c k w)
    let s ← Op.state
    let o := c.drainOp s t w x.1 x.2.1 (drainSg c k w) (x.2.2.1.2 &&& (flagSU ||| flagSN))
    Op.commit c c.active
    Op.modify fun s => s.keepDrain c o (c.active.headD 0) x.2.2.2) s

end Sys2Proof.Machine
end

