-- ==== Sys2Proof/Machine/MatrixArray.lean ====
section
/-!
DEFINITION. The matrix array at work (R64, R65, R276 to R278, R290, R291): passes with fusion, the sums, retirement, the
publication of a drained tile, and the reset of a hung engine.
-/

namespace Sys2Proof.Machine

open Sys2Proof

/-! ## Matrix sums (R64) -/

/-- An element of a row as an exact value: scaled, or plain where no scale words are held (R58, R64). -/
def elementValue (f : Fmt) (bs : Nat) (scales : List W32) (i code : Nat) : Val :=
  if scales.isEmpty then f.value code else scaledValue f code (scales.getD (i / bs) 0)

/-- The exact product of two elements, NaN for ∞ × 0. -/
def product (a b : Val) : Val := if a.isNan || b.isNan then .nan true else (a.mul b).getD (.nan true)

/-- The exact sum of the products of a group. -/
def groupSum (ps : List Val) : Val :=
  let isInf (neg : Bool) (v : Val) : Bool := match v with
    | .inf n => n == neg
    | _ => false
  if ps.any Val.isNan || (ps.any (isInf true) && ps.any (isInf false)) then .nan true
  else if ps.any (isInf true) then .inf true
  else if ps.any (isInf false) then .inf false
  else sumNums (ps.filterMap fun v => match v with
    | .num n m e => some (n, m, e)
    | _ => none)

/-- A value rounded to FP32. -/
def toFp32 (v : Val) : Nat := (Fmt.fp32.round v false .rne false 0).1

/-- The products of a group of 32 positions: stored elements of the column below K_A. -/
def groupProducts (o : MatOp) (p : Plane) (row : Row) (col : List (Nat × Nat)) (scales : List W32) (g : Nat) : List Val :=
  let fa := (Fmt.ofCode o.afmt).getD .fp32
  let fb := (Fmt.ofCode p.fmt).getD .fp32
  col.zipIdx.filterMap fun x =>
    let k := x.1.1
    if k / 32 = g ∧ k < o.kA then
      let v := product (elementValue fa (if o.bs32 then 32 else 16) row.2 k (row.1.getD k 0))
        (elementValue fb (if p.bs32 then 32 else 16) scales x.2 x.1.2)
      some (if xor o.na o.nb then v.neg else v)
    else none

/-- The sum of one output element before it joins the tile (R64). -/
def dotSum (o : MatOp) (p : Plane) (row : Row) (col : List (Nat × Nat)) (scales : List W32) : Nat :=
  let gs := (List.range ((p.k + 31) / 32)).map fun g => toFp32 (groupSum (groupProducts o p row col scales g))
  match gs with
  | [] => 0
  | v :: vs => vs.foldl (fun run v => (fp32Add .rne run v).1) v

/-- A row of results: the new values of columns 0 to N − 1 (R64, R287). -/
def rowResult (o : MatOp) (p : Plane) (t : Task) (tile m : Nat) (row : Row) : List Nat :=
  (p.cols.zip p.scales).zipIdx.map fun x =>
    let run := dotSum o p row x.1.1 x.1.2
    if o.zero then run else (fp32Add .rne (t.tileAt tile m x.2) run).1

/-- A task after an MMA has written its rows; other rows and columns stay (R287). -/
def Task.retireMma (t : Task) (o : MatOp) : Task :=
  match o.tile, o.weights with
  | some tile, some p =>
    o.rows.zipIdx.foldl (fun t x => t.putTile tile x.2 0 (rowResult o p t tile x.2 x.1)) t
  | _, _ => t

/-! ## The down-converter (R65) -/

/-- FP32 codes of a row as an operand in a format: blocks of 32 along K. -/
def downRow (f : Fmt) (xs : List Nat) : Row :=
  if f.scaled then
    let rs := (pieces 32 xs.length xs).map fun b => quantiseBlock b f true false .rne []
    (rs.flatMap fun r => r.1, rs.map fun r => r.2.1)
  else (xs.map fun x => (f.round (Fmt.fp32.value x) false .rne false 0).1, [])

/-- The rows of an MMA when its pass takes it: of its tile, or those held (R277). -/
def MatOp.takeRows (o : MatOp) (s : State) : MatOp :=
  match o.atile, s.task? o.task with
  | some a, some t =>
    { o with
      rows := (List.range o.m).map fun r =>
        downRow ((Fmt.ofCode o.afmt).getD .fp32) ((List.range o.kA).map fun c => t.tileAt a r c),
      bs32 := true, taken := true }
  | _, _ => { o with taken := true }

/-! ## Passes (R278) -/

/-- The head of a quarter's port: the first in issue order. -/
def Core.head (k : Core) (q : Nat) : Option MatOp :=
  k.ops.find? fun o => o.kind == 0 && o.inPort && !o.taken && o.quarter == q

/-- A head is eligible: earlier operations naming its tiles have been taken, and those that write its ATILE have retired. -/
def Core.eligible (k : Core) (o : MatOp) : Bool :=
  (k.earlier o.n).all fun x =>
    x.task != o.task ||
      (((match o.tile with
          | some t => !x.names o.task t
          | none => true) || x.taken)
        && match o.atile with
          | some a => (!x.names o.task a || x.taken) && x.tile != some a
          | none => true)

/-- The leader of a pass: the earliest head, and of those issued in one cycle the next quarter after the last leader's. -/
def Core.leader (k : Core) (heads : List MatOp) : Option MatOp :=
  match heads with
  | [] => none
  | h :: _ =>
    let same := heads.filter fun o => o.cycle == h.cycle
    [1, 2, 3, 4].findSome? fun i => same.find? fun o => o.quarter == (k.lastLead + i) % 4

/-- A head joins the pass of a leader (R278 step 3). -/
def joins (pass : List MatOp) (lead o : MatOp) : Bool :=
  o.n != lead.n && o.physPlane == lead.physPlane && o.task == lead.task && o.afmt == lead.afmt
    && pass.all (fun x => x.tile != o.tile) && decide ((pass.map (·.m)).sum + o.m ≤ 64)

/-- The pass that the array takes next. -/
def Core.nextPass (k : Core) : List MatOp :=
  let ready := ([0, 1, 2, 3].filterMap k.head).filter k.eligible
  let heads := k.ops.filter fun o => ready.any fun x => x.n == o.n
  match k.leader heads with
  | none => []
  | some lead => heads.foldl (fun pass o => if joins pass lead o then pass ++ [o] else pass) [lead]

/-- MATRIX_PASS (R278): an idle array takes a pass. -/
def execMatrixPass (core : Nat) (s : State) : Out :=
  s.keeping <|
  let k := s.core core
  if !s.coreRuns core || !k.inArray.isEmpty then .next s
  else
    match k.nextPass with
    | [] => .next s
    | lead :: rest =>
      let pass := lead :: rest
      .next (s.modCore core fun k =>
        { k with
          ops := k.ops.map fun (o : MatOp) => if pass.any (fun (x : MatOp) => x.n == o.n) then o.takeRows s else o,
          inArray := pass.map fun (o : MatOp) => o.n, lastLead := lead.quarter, idle := 0 })

/-- PASS_LEAVES_ARRAY (R278). -/
def execPassLeavesArray (core : Nat) (s : State) : Out :=
  s.keeping <|
  let k := s.core core
  if !s.coreRuns core || k.inArray.isEmpty then .next s
  else
    .next (s.modCore core fun k =>
      { k with
        ops := k.ops.map fun (o : MatOp) => if k.inArray.contains o.n then { o with left := true } else o,
        inArray := [], leaving := k.leaving ++ [k.inArray], idle := 0 })

/-- PASS_RETIRE (R278): the oldest pass that has left the array writes its rows. -/
def execPassRetire (core : Nat) (s : State) : Out :=
  s.keeping <|
  let k := s.core core
  if !s.coreRuns core then .next s
  else
    match k.leaving with
    | [] => .next s
    | ns :: rest =>
      let done := k.ops.filter fun o => ns.contains o.n
      let s := done.foldl (fun (s : State) (o : MatOp) => s.modTask o.task fun t => t.retireMma o) s
      .next (s.modCore core fun k =>
        { k with ops := k.ops.filter (fun (o : MatOp) => !ns.contains o.n), leaving := rest })

/-! ## The publication of a drained tile (R290) -/

/-- The record of a DRAIN that fails after its warp was released (R290, R360). -/
def DrainOp.record (o : DrainOp) (s : State) (cause : Cause) (addr : Nat) : FaultRec :=
  { cause := cause, source := 5, seqv := true, macv := false, coord := false, mslot := 0, unit := 255, handle := o.handle,
    tmask := 0, done := 0, seq := o.seq, pc := o.pc, addr := addr, bitoff := 0, tag := o.tag.toNat, extra := 0, aux := 0,
    time := s.timeNs, src := (0, 0) }

/-- A push whose queue memory cannot be written leaves the extent out of the queue. -/
def State.tryDefer (s : State) (ctx pool : Nat) (x : Option (Nat × Nat)) : State :=
  match Op.relocate ctx pool x s with
  | .ok (_, s) => s
  | .error _ => s

/-- A DRAIN ends: its flags join FLAGS (R57), its hold is released (R259), and it leaves the encoder, with an ENGINE frame of an event
(R384). -/
def State.endDrain (s : State) (core : Nat) (o : DrainOp) (merge : Bool) (event : Nat) : State :=
  let s := s.modCore core fun k => { k with drains := k.drains.filter fun (x : DrainOp) => x.seq != o.seq, idle := 0 }
  let s := if merge then s.modWarp o.task o.warp fun w => w.orFlags o.flags else s
  let s := if o.hold then s.releaseHold o.task o.warp else s
  (s.dropAnswers (.drain core)).drainFrame o event

/-- The place reserved in the deferred-free queue is given back, or taken by the push that follows. -/
def State.unreserve (s : State) (o : DrainOp) : State :=
  s.modCtx o.ctx fun c => if o.old.isSome then { c with dfqHeld := c.dfqHeld - 1 } else c

/-- The mover of a released DRAIN. -/
def DrainOp.mover (o : DrainOp) (core : Nat) : Mover :=
  { asker := .drain core, acc := { ctx := o.ctx, priv := o.priv, cluster := clusterOf core, quarter := none },
    task := o.task, peers := true, core := some core }

/-- The completion add of a drained tile, after its publication (R290). -/
def State.finishDrain (s : State) (core : Nat) (o : DrainOp) : State :=
  let s := s.modCore core fun k =>
    { k with drains := k.drains.map fun (x : DrainOp) => if x.seq = o.seq then { x with published := true } else x }
  match o.csg with
  | none => s.endDrain core o true 1
  | some va =>
    match Op.sgAddAt (o.mover core) 0 va.toNat 1 s with
    | .ok (_, s) => s.endDrain core o true 1
    | .error (.hold s) => s
    | .error (.trapAt s' t) =>
      if s.recordRoom o.ctx = false then s
      else (s'.bufferRecord o.ctx (o.record s t.cause va.toNat)).endDrain core o true 2
    | .error _ => s

/-- DRAIN_PUBLISH (R290): the oldest DRAIN writes its block and entry, defers the old extent and makes its completion add. -/
def execDrainPublish (core : Nat) (s : State) : Out :=
  s.keeping <|
  if !s.coreRuns core then .next s
  else
    match (s.core core).drains with
    | [] => .next s
    | o :: _ =>
      if o.published then .next (s.finishDrain core o)
      else
        match s.poisonedPiece (o.block ++ o.entry) with
        | none =>
          .next ((((s.writePieces o.block).writePieces o.entry).unreserve o).tryDefer o.ctx o.pool o.old |>.finishDrain core o)
        | some va =>
          if s.recordRoom o.ctx = false ∨ (o.fresh.isSome ∧ !(s.unreserve o |>.ctx o.ctx).dfqRoom) then .next s
          else
            let s := (s.unreserve o).tryDefer o.ctx o.pool o.fresh
            .next ((s.bufferRecord o.ctx (o.record s .enginePoison va)).endDrain core o false 2)

/-! ## Reset of a hung engine (R291) -/

/-- Cycles without an advance that reset the engine. -/
def hungCycles : Nat := 2 ^ 20

/-- A task has matrix state on the core or an operation in flight. -/
def Task.hasMatrix (t : Task) (k : Core) : Bool :=
  !t.tiles.isEmpty || !t.planes.isEmpty || (k.ops.any fun o => o.task == t.id) || k.drains.any fun o => o.task == t.id

/-- The warps of a task take MATRIX_RESET at their next boundary (R291, R355). -/
def Task.resetMatrix (t : Task) (n : Nat) : Task :=
  { t with
    tileMem := [], planes := t.planes.map fun _ => .empty_,
    warps := t.warps.map fun (w : Warp) =>
      if w.st = .done then w else { w with pendReset := some n, stall := none } }

/-- The deferred-free queue has room for the new extent of an unpublished DRAIN, in the place that its old extent holds or in another. -/
def State.abandonRoom (s : State) (o : DrainOp) : Bool := o.published || o.fresh.isNone || ((s.unreserve o).ctx o.ctx).dfqRoom

/-- An unpublished DRAIN is abandoned: its new extent is deferred as a relocation would be (R291); one for which the queue has no room
stays out of the pool (log 158). -/
def State.abandonDrain (s : State) (core : Nat) (o : DrainOp) : State :=
  if o.published then s
  else
    let t := s.unreserve o
    (if s.abandonRoom o then t.tryDefer o.ctx o.pool o.fresh else t).endDrain core o false 3

/-- The DRAINs of a core in turn find room for their extents. -/
def State.abandonsAll (s : State) (core : Nat) : List DrainOp → Bool
  | [] => true
  | o :: os => s.abandonRoom o && (s.abandonDrain core o).abandonsAll core os

/-- The reset of the matrix engine of a core (R291); what it discards are the MMAs and the unfinished WLOADs. -/
def State.resetEngine (s : State) (core : Nat) : State :=
  let k := s.core core
  let n := (k.ops.filter fun o => o.kind == 0 || o.kind == 2).length
  let s := { s with tasks := s.tasks.map fun (t : Task) =>
    if t.core = some core ∧ t.hasMatrix k = true then t.resetMatrix n else t }
  let s := k.drains.foldl (fun (s : State) (o : DrainOp) => s.abandonDrain core o) s
  let s := s.modCore core fun k => { k with ops := [], inArray := [], leaving := [], idle := 0 }
  s.tasks.foldl (fun (s : State) (t : Task) => if t.core = some core then s.takePending t.id else s) s

/-- MATRIX_RESET (R291), once the deferred-free queues have room for the extents of its DRAINs (log 158). -/
def execMatrixReset (core : Nat) (s : State) : Out :=
  s.keeping <|
  if s.coreRuns core && decide (hungCycles ≤ (s.core core).idle) && s.abandonsAll core (s.core core).drains then
    .next (s.resetEngine core)
  else .next s

end Sys2Proof.Machine
end

