-- ==== Sys2Proof/Machine/CodecInstr.lean ====
section
/-!
DEFINITION. The instructions of coded tiles (R327 to R334): descriptors and code tables loaded, tiles read into and replaced
from registers, index entries and pools read.
-/

namespace Sys2Proof.Machine

open Sys2Proof

/-! ## Results without a latch (R327) -/

/-- A result that goes to no latch. -/
def putBare (c : Ctx) (d : Selector) (wd : Width) (w : Warp) (t : Tid) (v : W64) : Warp :=
  let n := d.toNat
  if c.u then (if 0x80 ≤ n ∧ n < 0xC0 then w.setS c.active (n - 0x80) v else w)
  else if n < 0x80 then w.modThread t fun th => th.writeG n wd v
  else w

/-! ## TDLD, CTLD and CTINV (R328, R331) -/

/-- TDLD and CTLD, with an address in A. -/
def loadEnc (u : TUse) (k : TWord) : Enc := { prof := 3, umode := .one, a := .sSrc .w64, reserved := u.bad k }

/-- Units of `n` bytes read one after another by one thread as a plain load of the CORE path. -/
def Op.plainUnits (c : Ctx) (n : Nat) : Nat → List Aimed → Op (List Byte)
  | _, [] => pure []
  | i, a :: as => do
    Op.noteTouch c a false n
    Op.noteLoad c a.tid a.target.place
    let v ← Op.loadAt c a (1000 + i) n 0
    let r ← Op.plainUnits c n (i + 1) as
    return toBytes n v ++ r

/-- A record of `units` units of `n` bytes at an aligned address, read as a plain load. -/
def Op.plainRecord (c : Ctx) (n units va : Nat) : Op (List Byte) := do
  let t := c.active.headD 0
  let as ← Op.aim c 0 .load n n ((List.range units).map fun i => (t, (va + n * i) % 2 ^ 64))
  Op.poisonCheck c n as
  Op.plainUnits c n 0 as

/-- The fields of TDLD. -/
def encOfTdld : TWord → Enc := loadEnc { td := true }

/-- TDLD (R328). -/
def execTdld (w : TWord) (s : State) : Out :=
  issueT encOfTdld w .straight (fun c k => do
    if c.parts.isEmpty then return ()
    let w ← Op.warp c
    let bs ← Op.plainRecord c 64 1 (read64 c w (c.active.headD 0) k.h.a).toNat
    let v := ofBytes bs
    if tdescOk v = false then Op.trap .tdescInvalid c.whole
    Op.modify fun s => s.modTask c.task fun t => { t with td := vset t.td k.td.toNat (BitVec.ofNat 512 v) }) s

/-- CTLD and CTINV stall until every earlier operation of the task that decodes or encodes has finished with its tables, and every
earlier CTLD and CTINV has changed them (R315). -/
def Op.tablesFree (c : Ctx) : Op Unit := do
  let s ← Op.state
  if (s.before c).any fun o => o.task == c.task && ((o.coded && o.pending) || o.kind == 7) then Op.stallHere c .decode

/-- A code-table slot of the task; CODE_TABLE_INVALID at or above CTN (R331). -/
def Op.setTable (c : Ctx) (n : Nat) (x : Option CodeTable) : Op Unit := do
  let t ← Op.task c
  if t.ctn ≤ n then Op.trap .codeTableInvalid c.whole
  Op.modify fun s => s.modTask c.task fun t => { t with ctSlots := t.ctSlots.set n x }

/-- The fields of CTLD. -/
def encOfCtld : TWord → Enc := loadEnc { ct := true }

/-- CTLD (R331). -/
def execCtld (w : TWord) (s : State) : Out :=
  issueT encOfCtld w .straight (fun c k => do
    if c.parts.isEmpty then return ()
    Op.inPlace c (MatOp.blank c 7) do
      Op.tablesFree c
      let w ← Op.warp c
      let bs ← Op.plainRecord c 32 9 (read64 c w (c.active.headD 0) k.h.a).toNat
      match tableOfRecord bs with
      | none => Op.trap .codeTableInvalid c.whole
      | some x => Op.setTable c k.ct.toNat (some x)) s

/-- The fields of CTINV. -/
def encOfCtinv : TWord → Enc := plainEnc 3 { ct := true }

/-- CTINV (R331). -/
def execCtinv (w : TWord) (s : State) : Out :=
  issueT encOfCtinv w .straight (fun c k => do
    if c.parts.isEmpty then return ()
    Op.inPlace c (MatOp.blank c 7) do
      Op.tablesFree c
      Op.setTable c k.ct.toNat none) s

/-! ## TLD and TST (R329, R330) -/

/-- The window, row block and raw form. -/
structure Window where
  w : Nat
  v : Nat
  raw : Bool
  deriving DecidableEq, Repr

/-- Registers that one thread's row takes: 32 values, or 32 codes with their scale words (R329). -/
def Window.regs (x : Window) (d : TDesc) : Nat :=
  if x.raw then d.format.bits + (if d.format.scaled then 32 / d.bs else 0) else 32

/-- TLD. -/
def tldEnc (k : TWord) : Enc :=
  { prof := 3, umode := .zero, d := .gDst (if k.md.getLsbD 3 then .w128 else .w32), b := .lit, c := .lit,
    dSpan := if k.md.getLsbD 3 then 1 else 32,
    reserved := TUse.bad { osrq := true, md := 8 } k || decide (16 ≤ k.h.b.toNat) || decide (32 ≤ k.h.c.toNat) }

/-- TST. -/
def tstEnc (k : TWord) : Enc :=
  let raw := k.md.extractLsb' 4 2 == 3
  { prof := 3, umode := .zero, a := .gSrc (if raw then .w128 else .w32), b := .lit, c := .lit, aSpan := if raw then 1 else 32,
    reserved := TUse.bad { osrq := true, md := 0x38 } k || decide (16 ≤ k.h.b.toNat) || decide (32 ≤ k.h.c.toNat)
      || (raw && k.md.getLsbD 3) }

/-- The checks that TLD and TST share (R284, R329, R330): the shape record and its descriptor, `bad` a rounding mode that the
format does not accept, the registers from `g` on, the rows and columns, and the section. -/
def Op.windowChecks (c : Ctx) (w : Warp) (k : TWord) (x : Window) (g : Nat) (bad : TDesc → Bool) : Op (Shape × TDesc) := do
  let r ← Op.shape c w k.osrq.toNat
  match r.2 with
  | none => Op.trap .osrInvalid c.whole
  | some d => do
    if bad d then Op.trap .reservedField c.whole
    if c.regs < g + x.regs d then Op.trap .illegalSelector c.whole
    if d.holds r.1.tx r.1.ty = false ∨ d.tc ≤ 32 * x.w then Op.trap .shapeRange c.whole
    let out := c.parts.zipIdx.filter fun p => decide (d.tr ≤ 16 * x.v + p.2)
    if !out.isEmpty then Op.trap .shapeRange (maskOf (out.map (·.1)))
    Op.coordinate c.whole w d r.1.tx r.1.ty
    return (r.1, d)

/-- The place of a TLD (3) or TST (5) that waits (R276), with its shape record and descriptor (R272, R328). -/
def windowPlace (c : Ctx) (kind : Nat) (w : Warp) (t : Task) (k : TWord) : MatOp :=
  { (MatOp.blank c kind).shaped w t k.osrq.toNat with coded := true }

/-- Values joined into 32-bit registers, from the low bits up. -/
def toRegs (bits : Nat) (codes : List Nat) : List Nat :=
  let v := joinElements bits codes
  (List.range ((codes.length * bits + 31) / 32)).map fun i => bitsOf v (32 * i + 31) (32 * i)

/-- The raw registers of a row (R329). -/
def rawRegs (d : TDesc) (t : TileData) (row w : Nat) : List Nat :=
  let codes := (List.range 32).map fun j =>
    if 32 * w + j < d.tc then t.codes.getD (row * d.tc + 32 * w + j) 0 else d.format.zero
  let words := if d.format.scaled then (List.range (32 / d.bs)).map fun j =>
      let col := 32 * w + j * d.bs
      if col < d.tc then (t.scaleAt d (row * d.tc + col)).toNat else (mkScale 0 0 false d.bs32 true).toNat
    else []
  toRegs d.format.bits codes ++ words

/-- The FP32 values of a row with the flags they raise (R329). -/
def rowValues (d : TDesc) (t : TileData) (row w : Nat) : List (Nat × W32) :=
  (List.range 32).map fun j =>
    if 32 * w + j < d.tc then Fmt.fp32.round (t.value d (row * d.tc + 32 * w + j)) false .rne false 0 else (0, 0)

/-- The window that a TLD or TST word names. -/
def tldWindow (k : TWord) : Window := { w := k.h.b.toNat, v := k.h.c.toNat, raw := k.md.getLsbD 3 }

/-- The registers that each participant of TLD receives, with the flags of each value. -/
def tldGives (c : Ctx) (x : Window) (d : TDesc) (t : TileData) : List (Tid × List (Nat × W32)) :=
  c.parts.zipIdx.map fun p =>
    (p.1, if x.raw then (rawRegs d t (16 * x.v + p.2) x.w).map fun v => (v, (0 : W32))
      else rowValues d t (16 * x.v + p.2) x.w)

/-- The tile that a TLD reads, in its place of the issue order: its checks, and the decode (R321, R322, R329). -/
def Op.readTile (c : Ctx) (k : TWord) (w : Warp) : Op (TDesc × TileData) := do
  Op.tableTurn c
  let r ← Op.windowChecks c w k (tldWindow k) k.h.d.toNat fun _ => false
  let task ← Op.task c
  let t ← Op.asWarp c.whole (Op.decode c.mover 8 r.2 r.1.td r.1.tx r.1.ty task.table)
  return (r.2, t)

/-- TLD (R329). -/
def execTld (w : TWord) (s : State) : Out :=
  issueT tldEnc w .straight (fun c k => do
    if c.parts.isEmpty then return ()
    let w ← Op.warp c
    let task ← Op.task c
    let r ← Op.inPlace c (windowPlace c 3 w task k) (Op.readTile c k w)
    let outs := tldGives c (tldWindow k) r.1 r.2
    raise c (outs.foldl (fun f y => f ||| rowFlags y) 0) (maskOf ((outs.filter fun y => rowFlags y != 0).map (·.1)))
    Op.modWarp c fun w => outs.foldl (fun w y =>
      w.modThread y.1 fun th => th.putRegs k.h.d.toNat (y.2.map (·.1))) w) s

/-- What one participant supplies to TST: codes and scale words of the window's columns below TC, flags, and the stochastic
state it leaves. -/
structure Supply where
  codes : List Nat
  words : List W32
  flags : W32
  seed : W32
  deriving DecidableEq, Repr

/-- The row of a participant of TST from its registers (R330). -/
def supplyOf (d : TDesc) (x : Window) (fine : Bool) (mode : Mode) (th : Thread) (a : Nat) : Supply :=
  let cols := min 32 (d.tc - 32 * x.w)
  let reg (i : Nat) : W32 := vget th.g (a + i) 0
  if x.raw then
    let b := d.format.bits
    { codes := (List.range cols).map fun i => bitsOf (reg (i * b / 32)).toNat (i * b % 32 + b - 1) (i * b % 32),
      words := if d.format.scaled then (List.range (cols / d.bs)).map fun j => reg (b + j) else [],
      flags := 0, seed := th.seed }
  else
    let draws := if mode = .rsr then srands cols th.seed else (List.replicate cols 0, th.seed)
    let q := quantiseTile d fine mode ((List.range cols).map fun i => (reg i).toNat) draws.1
    { codes := q.1.codes, words := q.1.scales, flags := q.2, seed := if d.fmt = 0 then th.seed else draws.2 }

/-- A list with a run of elements replaced from a position on. -/
def replaceAt {α : Type} (xs : List α) (i : Nat) (ys : List α) : List α := xs.take i ++ ys ++ xs.drop (i + ys.length)

/-- A tile with a row of a window replaced (R330). -/
def TileData.supply (t : TileData) (d : TDesc) (row w : Nat) (x : Supply) : TileData :=
  { codes := replaceAt t.codes (row * d.tc + 32 * w) x.codes,
    scales := if d.format.scaled then replaceAt t.scales (row * (d.tc / d.bs) + 32 * w / d.bs) x.words else t.scales }

/-- The tile that TST starts from: decoded, or all zero where the entry is absent (R330). -/
def Op.oldTile (c : Ctx) (sh : Shape) (d : TDesc) (table : Nat → Option CodeTable) : Op (Nat × TileData) := do
  let bits ← Op.readEntry c.mover 0 (d.entryVa d.bix sh.tx sh.ty)
  if (BixEntry.ofBits bits).v then
    let t ← Op.decode c.mover 8 d sh.td sh.tx sh.ty table
    return (bits, t)
  return (bits, zeroTile d)

/-- The end of TST: the tile is placed and published; where memory is poisoned the new extent is deferred (R330). -/
def Op.storeTile (c : Ctx) (sh : Shape) (d : TDesc) (ct : CodeTable) (bits : Nat) (t : TileData) : Op Unit := do
  let before ← Op.state
  let p ← Op.asWarp c.whole (Op.place c.mover 100 d d.dct ct t (d.entryVa d.bix sh.tx sh.ty) bits)
  let s ← Op.state
  match s.poisonedPiece (p.block ++ p.entry) with
  | none => Op.asWarp c.whole (Op.publish c.ctx d.pool p)
  | some va =>
    if p.fresh.isSome && (s.graceBad c.ctx).isNone && !(s.ctx c.ctx).dfqRoom then
      Op.put before
      Op.stallHere c .encode
    Op.stop (.trapAt (s.tryDefer c.ctx d.pool p.fresh) { cause := .dataPoison, mask := c.whole, addr := va })

/-- The rounding code of a TST word, 3 of its raw form, and its window. -/
def tstCode (k : TWord) : Nat := (k.md.extractLsb' 4 2).toNat
def tstWindow (k : TWord) : Window := { w := k.h.b.toNat, v := k.h.c.toNat, raw := tstCode k == 3 }

/-- The row that each participant of TST supplies, with its number in the tile. -/
def tstGives (c : Ctx) (k : TWord) (w : Warp) (d : TDesc) : List (Tid × Nat × Supply) :=
  c.parts.zipIdx.map fun p =>
    (p.1, 16 * (tstWindow k).v + p.2,
      supplyOf d (tstWindow k) (k.md.getLsbD 3) (encoderMode (tstCode k % 3)) (w.thread p.1) k.h.a.toNat)

/-- The flags that the rows of a TST raise. -/
def tstFlags (xs : List (Tid × Nat × Supply)) : W32 := xs.foldl (fun f y => f ||| y.2.2.flags) 0

/-- The work of a TST in its place of the issue order (R330): its checks, the old tile, the scale words and traps of the supplied rows, and
the new tile stored, which releases what the warp has stored before (R318). -/
def Op.replaceTile (c : Ctx) (k : TWord) (w : Warp) : Op (List (Tid × Nat × Supply)) := do
  let x := tstWindow k
  Op.tableTurn c
  let r ← Op.windowChecks c w k x k.h.a.toNat fun d => d.fmt == 6 && (tstCode k == 1 || tstCode k == 2)
  let d := r.2
  let task ← Op.task c
  match task.table d.dct with
  | none => Op.trap .codeTableInvalid c.whole
  | some ct => do
    Op.encoderTurn c
    let s ← Op.state
    if (s.core c.core).drains.any fun (o : DrainOp) => !o.published then Op.stallHere c .encode
    Op.release c c.whole
    let old ← Op.asWarp c.whole (Op.oldTile c r.1 d task.table)
    let xs := tstGives c k w d
    let bad := if x.raw then xs.filter fun y => y.2.2.words.any fun v => !scaleOk v d.bs32 else []
    if !bad.isEmpty then Op.trap .decodeScale (maskOf (bad.map (·.1)))
    if tstFlags xs &&& c.fpte ≠ 0 then
      raise c (tstFlags xs) (maskOf ((xs.filter fun y => y.2.2.flags != 0).map (·.1)))
    Op.storeTile c r.1 d ct old.1 (xs.foldl (fun t y => t.supply d y.2.1 x.w y.2.2) old.2)
    return xs

/-- TST (R330). -/
def execTst (w : TWord) (s : State) : Out :=
  issueT tstEnc w .straight (fun c k => do
    if c.parts.isEmpty then return ()
    let w ← Op.warp c
    let task ← Op.task c
    let xs ← Op.inPlace c (windowPlace c 5 w task k) (Op.replaceTile c k w)
    Op.commit c c.parts
    Op.modWarp c fun w => (xs.foldl (fun w y =>
      w.modThread y.1 fun th => { th with seed := y.2.2.seed }) w).orFlags (tstFlags xs)) s

/-! ## BIXRD (R332) -/

/-- The aim of a unit of BIXRD. -/
def Op.aimEntry (c : Ctx) (k : TWord) (w : Warp) (d : TDesc) (t : Tid) : Op Aimed := do
  let v := (read64 c w t k.h.a).toNat
  Op.coordinate (c.maskAt t) w d (bitsOf v 31 0) (bitsOf v 63 32)
  Op.aimOne c 0 .load 16 16 t (d.entryVa (if k.md.getLsbD 3 then d.rbix else d.bix) (bitsOf v 31 0) (bitsOf v 63 32))

/-- The entries of all units read at their homes. -/
def Op.readEntries (c : Ctx) (as : List (Tid × Aimed)) : Op (List (Tid × Nat)) :=
  Op.together as fun t a => do
    let v ← Op.homeAt c a (c.key t 0) 16 (fun p => .load p 16) id true
    Op.noteTouch c a false 16
    Op.noteLoad c t a.target.place
    return v

/-- The descriptor of a slot as it stood at the issue of an instruction that may wait for a peer (R328). -/
def Op.keptDescriptor (c : Ctx) (slot : Nat) : Op TDesc := do
  let v ← Op.latched c 7900 do
    let t ← Op.task c
    return (vget t.td slot 0).toNat
  if tdescOk v = false then Op.trap .tdescInvalid c.whole
  return TDesc.ofBits v

/-- The fields of BIXRD. -/
def encOfBixrd (k : TWord) : Enc :=
  { prof := 3, d := .dst .w128, a := .src .w64 false, reserved := TUse.bad { td := true, md := 8 } k }

/-- BIXRD (R332). -/
def execBixrd (w : TWord) (s : State) : Out :=
  issueT encOfBixrd w .straight
    (fun c k => do
      if c.parts.isEmpty then return ()
      let w ← Op.warp c
      let d ← Op.keptDescriptor c k.td.toNat
      if k.md.getLsbD 3 = true ∧ d.rbix = 0 then Op.trap .tdescInvalid c.whole
      let as ← Op.gather c (Op.aimEntry c k w d)
      let vs ← Op.readEntries c as
      Op.acquire c
      Op.modWarp c fun w => vs.foldl (fun w x =>
        putWide c k.h.d w x.1 (BitVec.ofNat 64 x.2) (BitVec.ofNat 64 (x.2 / 2 ^ 64))) w) s

/-! ## POOLQ (R333) -/

/-- What POOLQ gives a unit: the filled entries of a free ring, or the room of the bump region. -/
def Op.poolCount (c : Ctx) (k : EWord) (w : Warp) (t : Tid) : Op W64 := do
  let m := c.mover
  let va := (read64 c w t k.h.a).toNat
  let key := 1000 + 16 * t.val
  let _ ← Op.spot m .load 0 va 1 256
  let pool ← Op.readNum m .load key va 256
  let word (n : Nat) := bitsOf pool (64 * n + 63) (64 * n)
  if k.sub = 0 then
    let ring := word (3 + k.imm.toNat % 16)
    let r ← Op.readNum m .load (key + 2) ring 64
    let fill ← Op.readNum m .load (key + 4) (bitsOf r 191 128) 8
    let rel ← Op.readNum m .load (key + 6) (bitsOf r 255 192) 8
    return BitVec.ofNat 64 fill - BitVec.ofNat 64 rel
  else
    let bump ← Op.readNum m .load (key + 2) (word 0) 8
    return BitVec.ofNat 64 (word 2) - BitVec.ofNat 64 bump

/-- The fields of POOLQ. -/
def encOfPoolq (k : EWord) : Enc :=
  { prof := 3, d := .dst .w64, a := .src .w64 false,
    reserved := eBad k (noPi k) (decide (k.sub.toNat ≤ 1)) (k.sel == 0)
      (decide (k.imm.toNat ≤ (if k.sub = 0 then 10 else 0))) }

/-- POOLQ (R333). -/
def execPoolq (w : EWord) (s : State) : Out :=
  issueE encOfPoolq w .straight (fun c k => do
    let w ← Op.warp c
    let vs ← Op.gather c fun t => Op.asWarp (c.maskAt t) (Op.poolCount c k w t)
    Op.modWarp c fun w => vs.foldl (fun w x => putBare c k.h.d .w64 w x.1 x.2) w) s

end Sys2Proof.Machine
end

