-- ==== Sys2Proof/Machine/Transcend.lean ====
section
/-!
DEFINITION. The exact mathematical functions of R111, correctly rounded: reciprocal and roots from integer quotients and
integer square roots, the transcendental ones from fixed-point bounds at rising precision.
-/

namespace Sys2Proof.Machine

open Sys2Proof

/-- Integer square root by bits: `fuel` bits remain, `r` is the root of the bits above. -/
def isqrtGo : Nat → Nat → Nat → Nat
  | 0, _, r => r
  | n + 1, v, r =>
    let c := r + 2 ^ n
    isqrtGo n v (if c * c ≤ v then c else r)

/-- The integer square root. -/
def isqrt (v : Nat) : Nat := isqrtGo (Nat.log2 v / 2 + 1) v 0

/-- A magnitude with a sticky bit, as round_to takes it. -/
abbrev Approx := Val × Bool

/-- 1/x of a non-zero magnitude. -/
def recipMag (neg : Bool) (m : Nat) (e : Int) : Approx :=
  let sh := Nat.log2 m + 200
  (.num neg (2 ^ sh / m) (-(sh : Int) - e), 2 ^ sh % m != 0)

/-- The root of a positive magnitude. -/
def sqrtMag (m : Nat) (e : Int) : Approx :=
  let m := if e % 2 = 0 then m else 2 * m
  let e := if e % 2 = 0 then e else e - 1
  let v := m * 2 ^ 200
  let r := isqrt v
  (.num false r (e / 2 - 100), r * r != v)

/-- 1/√x of a positive magnitude. -/
def rsqrtMag (m : Nat) (e : Int) : Approx :=
  let m := if e % 2 = 0 then m else 2 * m
  let e := if e % 2 = 0 then e else e - 1
  let k := Nat.log2 m + 200
  let r := isqrt (2 ^ (2 * k) / m)
  (.num false r (-(e / 2) - k), r * r * m != 2 ^ (2 * k))

/-! Fixed-point series at `p` fraction bits; every term is cut downwards by less than one unit. -/

/-- Σ x^(2i+1)/(2i+1), alternating or not: the series of atan and atanh of `x`, with `n` terms from the `i`-th. -/
def atanSeries (p : Nat) (alt : Bool) (x2 : Nat) : Nat → Nat → Nat → Int
  | 0, _, _ => 0
  | n + 1, i, pw =>
    let t := pw / (2 * i + 1)
    (if alt && i % 2 == 1 then -(t : Int) else t) + atanSeries p alt x2 n (i + 1) (pw * x2 / 2 ^ p)

/-- atan(1/k). -/
def atanInv (p k : Nat) : Int := atanSeries p true (2 ^ p / (k * k)) (p / 4 + 2) 0 (2 ^ p / k)

/-- π by Machin's formula. -/
def piFix (p : Nat) : Nat := (16 * atanInv p 5 - 4 * atanInv p 239).toNat

/-- ln y for y = 1 + a/b, 0 ≤ a/b < 1, as twice the atanh of a/(a + 2b). -/
def lnFix (p a b : Nat) : Nat :=
  let z := a * 2 ^ p / (a + 2 * b)
  (2 * atanSeries p false (z * z / 2 ^ p) (p / 3 + 2) 0 z).toNat

/-- ln 2. -/
def ln2Fix (p : Nat) : Nat := lnFix p 1 1

/-- Σ y^i/i! from the `i`-th term. -/
def expSeries (p y : Nat) : Nat → Nat → Nat → Nat
  | 0, _, _ => 0
  | n + 1, i, t => t + expSeries p y n (i + 1) (t * y / 2 ^ p / (i + 1))

/-- e^y for 0 ≤ y < 1. -/
def expFix (p y : Nat) : Nat := expSeries p y (p / 3 + 2) 0 (2 ^ p)

/-- Σ (−1)^i y^(2i+1)/(2i+1)! from the `i`-th term. -/
def sinSeries (p y2 : Nat) : Nat → Nat → Nat → Int
  | 0, _, _ => 0
  | n + 1, i, t =>
    (if i % 2 = 1 then -(t : Int) else t) + sinSeries p y2 n (i + 1) (t * y2 / 2 ^ p / ((2 * i + 2) * (2 * i + 3)))

/-- sin(π a / 2^k) for 0 < a / 2^k ≤ 1/2. -/
def sinPiFix (p a k : Nat) : Nat :=
  let y := piFix p * a / 2 ^ k
  (sinSeries p (y * y / 2 ^ p) (p / 4 + 2) 0 y).toNat

/-- What bounds `r` ± 2^14 units of 2^e on a magnitude decide of its rounding: the units that the series above cut off are
fewer than that at every precision used. -/
def decideRound (f : Fmt) (mode : Mode) (neg : Bool) (r : Nat) (e : Int) : Option (Nat × W32) :=
  let err := 2 ^ 14
  if r ≤ err then none
  else
    let a := f.round (.num neg (r - err) e) true mode false 0
    let b := f.round (.num neg (r + err) e) true mode false 0
    if a = b then some a else none

/-- The rounding that bounds decide at the first precision of a list at which they do, and past the list the rounding of the value
at the last precision `p`. UNVERIFIED (log 23): that no operand of FP32, FP16 or BF16 comes past the list. -/
def firstDecided (f : Fmt) (mode : Mode) (bound : Nat → Bool × Nat × Int) (p : Nat) : List Nat → Nat × W32
  | [] => let b := bound p; f.round (.num b.1 b.2.1 b.2.2) true mode false 0
  | p :: ps =>
    let b := bound p
    match decideRound f mode b.1 b.2.1 b.2.2 with
    | some r => r
    | none => firstDecided f mode bound p ps

/-- The precisions tried, in fraction bits. -/
def precisions : List Nat := [192, 384, 768, 1536]

/-- The rounding of a value whose bounds are known at every precision. -/
def decided (f : Fmt) (mode : Mode) (bound : Nat → Bool × Nat × Int) : Nat × W32 := firstDecided f mode bound 1536 precisions

/-- 2^x of a finite x (R111). -/
def exp2Round (f : Fmt) (mode : Mode) (neg : Bool) (m : Nat) (e : Int) : Nat × W32 :=
  if m = 0 then f.round (.num false 1 0) false mode false 0
  else if 0 ≤ e then
    -- an integer
    let n := min (m * 2 ^ (min e.toNat 16)) 5000
    f.round (.num false 1 (if neg then -(n : Int) else n)) false mode false 0
  else
    let k := (-e).toNat
    let n := m / 2 ^ k
    let fr := m % 2 ^ k
    if 5000 < n then f.round (.num false 1 (if neg then -5000 else 5000)) true mode false 0
    else if fr = 0 then f.round (.num false 1 (if neg then -(n : Int) else n)) false mode false 0
    else
      let ip : Int := if neg then -(n : Int) - 1 else n
      let fr := if neg then 2 ^ k - fr else fr
      decided f mode fun p => (false, expFix p (ln2Fix p * fr / 2 ^ k), ip - p)

/-- log2 x of a positive x (R111). -/
def log2Round (f : Fmt) (mode : Mode) (m : Nat) (e : Int) : Nat × W32 :=
  let lg := Nat.log2 m
  let n : Int := lg + e
  let a := m - 2 ^ lg
  if a = 0 then f.round (.ofInt n 0) false mode false 0
  else
    decided f mode fun p =>
      let l := lnFix (p + 16) a (2 ^ lg) * 2 ^ p / ln2Fix (p + 16)
      let v : Int := n * 2 ^ p + l
      (decide (v < 0), v.natAbs, -(p : Int))

/-- sin πx of a finite x (R111). -/
def sinPiRound (f : Fmt) (mode : Mode) (neg : Bool) (m : Nat) (e : Int) : Nat × W32 :=
  if 0 ≤ e then f.round (.num neg 0 0) false mode false 0
  else
    let k := (-e).toNat
    let r := m % 2 ^ (k + 1)
    let flip := decide (2 ^ k ≤ r)
    let r := r % 2 ^ k
    if r = 0 then f.round (.num neg 0 0) false mode false 0
    else
      let s := xor neg flip
      let a := if 2 * r ≤ 2 ^ k then r else 2 ^ k - r
      if 2 * a = 2 ^ k then f.round (.num s 1 0) false mode false 0
      else decided f mode fun p => (s, sinPiFix p a k, -(p : Int))

/-- cos πx of a finite x (R111). -/
def cosPiRound (f : Fmt) (mode : Mode) (m : Nat) (e : Int) : Nat × W32 :=
  let k := (-e).toNat
  let r := if 0 ≤ e then (m * 2 ^ e.toNat) % 2 else m % 2 ^ (k + 1)
  let r := if 2 ^ k < r then 2 ^ (k + 1) - r else r
  let s := decide (2 ^ k < 2 * r)
  let a := if s then 2 ^ k - r else r
  if 2 * a = 2 ^ k then f.round (.num false 0 0) false mode false 0
  else if a = 0 then f.round (.num s 1 0) false mode false 0
  else decided f mode fun p => (s, sinPiFix p (2 ^ k - 2 * a) (k + 1), -(p : Int))

/-- The functions of R111. -/
inductive MathFn where
  | rcp
  | rsq
  | sqrt
  | exp2
  | log2
  | sin
  | cos
  deriving DecidableEq, Repr

/-- FRCP to FCOS of a code, with the flags of the result (R111); the table of special inputs comes first. -/
def mathFn (fn : MathFn) (f : Fmt) (mode : Mode) (code : Nat) : Nat × W32 :=
  let x := f.value code
  let nanR (fl : W32) : Nat × W32 := (f.nan, fl)
  let inf (neg : Bool) : Nat := (f.round (.inf neg) false .rne false 0).1
  let zero (neg : Bool) : Nat := (f.round (.num neg 0 0) false .rne false 0).1
  let one : Nat := (f.round (.num false 1 0) false .rne false 0).1
  let raw (a : Approx) : Nat × W32 := f.round a.1 a.2 mode false 0
  match x with
  | .nan q => nanR (if q then 0 else flagNV)
  | .inf neg =>
    match fn with
    | .rcp => (zero neg, 0)
    | .rsq => if neg then nanR flagNV else (zero false, 0)
    | .sqrt => if neg then nanR flagNV else (inf false, 0)
    | .exp2 => if neg then (zero false, 0) else (inf false, 0)
    | .log2 => if neg then nanR flagNV else (inf false, 0)
    | .sin | .cos => nanR flagNV
  | .num neg m e =>
    if m = 0 then
      match fn with
      | .rcp => (inf neg, flagDZ)
      | .rsq => (inf neg, flagDZ)
      | .sqrt => (zero neg, 0)
      | .exp2 => (one, 0)
      | .log2 => (inf true, flagDZ)
      | .sin => (zero neg, 0)
      | .cos => (one, 0)
    else
      match fn with
      | .rcp => raw (recipMag neg m e)
      | .rsq => if neg then nanR flagNV else raw (rsqrtMag m e)
      | .sqrt => if neg then nanR flagNV else raw (sqrtMag m e)
      | .exp2 => exp2Round f mode neg m e
      | .log2 => if neg then nanR flagNV else log2Round f mode m e
      | .sin => sinPiRound f mode neg m e
      | .cos => cosPiRound f mode m e

end Sys2Proof.Machine
end

