-- ==== Sys2Proof/Machine/FloatAlu.lean ====
section
/-!
DEFINITION. Floating-point, conversion and quantiser instructions (R107 to R119).
-/

namespace Sys2Proof.Machine

open Sys2Proof

/-- The encoding of a floating-point instruction: the rounding modes and the negations it admits (R46, R107). -/
def fpEnc (types modes : List Nat) (neg : Nat) (nb nc : Bool) (k : KWord) : Enc :=
  aluEnc types (modes.contains k.mode && !k.sat && (k.hi ||| neg) == neg) true nb nc k

/-- All five rounding modes. -/
def modesAll : List Nat := [0, 1, 2, 3, 4]
/-- RNE, RTZ, RUP and RDN. -/
def modesDir : List Nat := [0, 1, 2, 3]

/-- The draws of RSR for `n` elements and the stochastic state after them; other modes draw nothing (R55). -/
def drawsFor (mode : Mode) (n : Nat) (seed : W32) : List Nat × Option W32 :=
  if mode = .rsr then ((srands n seed).1, some (srands n seed).2) else ([], none)

/-- The run of an instruction element by element in increasing index (R107, R108): `f` gives an element's code and flags from
the format, the mode, the operand codes and the random draw. -/
def fpRun (f : Fmt → Mode → Nat → Nat → Nat → Nat → Nat × W32) (c : Ctx) (k : KWord) : Op Unit :=
  let ty := elemTy k.tyN
  let mode := Mode.ofCode k.mode
  aluRun c k.h (tyWidth k.tyN) fun w t =>
    let us := drawsFor mode ty.n (w.thread t).seed
    let a := floatOperand c w t ty k.h.a
    let b := floatOperand c w t ty k.h.b
    let cc := floatOperand c w t ty k.h.c
    let rs := (List.range ty.n).map fun i => f ty.f mode (a.getD i 0) (b.getD i 0) (cc.getD i 0) (us.1.getD i 0)
    { val := some (BitVec.ofNat 64 (joinElements ty.f.bits (rs.map (·.1)))),
      flags := rs.foldl (fun fl r => fl ||| r.2) 0, seed := us.2 }

/-- A value negated by a modifier bit. -/
def Val.negIf (b : Bool) (v : Val) : Val := if b then v.neg else v

/-- The rounding of an exact sum or product, or the canonical NaN (R50, R54, R108): `none` is an invalid operation. -/
def fpFinish (f : Fmt) (mode : Mode) (u : Nat) (pre : W32) (x : Option Val) : Nat × W32 :=
  match x with
  | none => (f.nan, pre ||| flagNV)
  | some v => let r := f.round v false mode false u; (r.1, pre ||| r.2)

/-- FADD and FSUB of two codes with their negations (R108). -/
def fpAdd (na nb : Bool) (f : Fmt) (mode : Mode) (a b u : Nat) : Nat × W32 :=
  let x := f.value a
  let y := f.value b
  let pre := signalFlag [x, y]
  if x.isNan || y.isNan then (f.nan, pre) else fpFinish f mode u pre ((x.negIf na).add mode (y.negIf nb))

/-- FMUL of two codes (R108). -/
def fpMul (na : Bool) (f : Fmt) (mode : Mode) (a b u : Nat) : Nat × W32 :=
  let x := f.value a
  let y := f.value b
  let pre := signalFlag [x, y]
  if x.isNan || y.isNan then (f.nan, pre) else fpFinish f mode u pre ((x.negIf na).mul y)

/-- FFMA of three codes (R108): one rounding; 0 × ∞ sets NV even when C is a NaN. -/
def fpFma (na nc : Bool) (f : Fmt) (mode : Mode) (a b c u : Nat) : Nat × W32 :=
  let x := f.value a
  let y := f.value b
  let z := f.value c
  let pre := signalFlag [x, y, z]
  if x.isNan || y.isNan then (f.nan, pre)
  else
    match x.mul y with
    | none => (f.nan, pre ||| flagNV)
    | some p => if z.isNan then (f.nan, pre) else fpFinish f mode u pre ((p.negIf na).add mode (z.negIf nc))

/-- The fields of FADD. -/
def encOfFadd : KWord → Enc := fpEnc tyP modesAll 3 true false

/-- FADD (R108). -/
def execFadd (w : KWord) (s : State) : Out :=
  issueK encOfFadd w .straight
    (fun c k => fpRun (fun f m a b _ u => fpAdd (k.hi.testBit 0) (k.hi.testBit 1) f m a b u) c k) s

/-- The fields of FSUB. -/
def encOfFsub : KWord → Enc := fpEnc tyP modesAll 3 true false

/-- FSUB (R108). -/
def execFsub (w : KWord) (s : State) : Out :=
  issueK encOfFsub w .straight
    (fun c k => fpRun (fun f m a b _ u => fpAdd (k.hi.testBit 0) (!k.hi.testBit 1) f m a b u) c k) s

/-- The fields of FMUL. -/
def encOfFmul : KWord → Enc := fpEnc tyP modesAll 1 true false

/-- FMUL (R108). -/
def execFmul (w : KWord) (s : State) : Out :=
  issueK encOfFmul w .straight
    (fun c k => fpRun (fun f m a b _ u => fpMul (k.hi.testBit 0) f m a b u) c k) s

/-- The fields of FFMA. -/
def encOfFfma : KWord → Enc := fpEnc tyP modesAll 3 true true

/-- FFMA (R108). -/
def execFfma (w : KWord) (s : State) : Out :=
  issueK encOfFfma w .straight
    (fun c k => fpRun (fun f m a b d u => fpFma (k.hi.testBit 0) (k.hi.testBit 1) f m a b d u) c k) s

/-- FMIN and FMAX of two codes (R109): −0 below +0. -/
def fpMinMax (big : Bool) (f : Fmt) (a b : Nat) : Nat × W32 :=
  let x := f.value a
  let y := f.value b
  let fl := signalFlag [x, y]
  if x.isNan && y.isNan then (f.nan, fl)
  else if x.isNan then (b, fl)
  else if y.isNan then (a, fl)
  else
    let aBelow := match x.cmp y with
      | .lt => true
      | .gt => false
      | .eq => x.sign || !y.sign
    (if aBelow == big then b else a, fl)

/-- The fields of FMIN. -/
def encOfFmin : KWord → Enc := fpEnc tyP [0] 0 true false

/-- FMIN (R109). -/
def execFmin (w : KWord) (s : State) : Out :=
  issueK encOfFmin w .straight (fpRun fun f _ a b _ _ => fpMinMax false f a b) s

/-- The fields of FMAX. -/
def encOfFmax : KWord → Enc := fpEnc tyP [0] 0 true false

/-- FMAX (R109). -/
def execFmax (w : KWord) (s : State) : Out :=
  issueK encOfFmax w .straight (fpRun fun f _ a b _ _ => fpMinMax true f a b) s

/-- The condition of FCMP by its code and its flags (R102, R110). -/
def fpCond (n : Nat) (x y : Val) : Bool × W32 :=
  let fl := signalFlag [x, y]
  if x.isNan || y.isNan then
    (n == 1 || n == 6, if 2 ≤ n ∧ n ≤ 5 then fl ||| flagNV else fl)
  else
    let o := x.cmp y
    (match n with
      | 0 => o == .eq
      | 1 => o != .eq
      | 2 => o == .lt
      | 3 => o != .gt
      | 4 => o == .gt
      | 5 => o != .lt
      | 6 => false
      | _ => true, fl)

/-- The fields of FCMP. -/
def encOfFcmp (k : KWord) : Enc :=
  let e := fpEnc tyF [0] 0 true false k
  { e with
    d := .dst .w32, c := .lit,
    reserved := e.reserved || !(decide (k.h.c.toNat / 16 ≤ 7) && !k.h.c.getLsbD 3) }

/-- FCMP (R110). -/
def execFcmp (w : KWord) (s : State) : Out :=
  issueK encOfFcmp w .straight
    (fun c k =>
      let ty := elemTy k.tyN
      aluRun c k.h .w32 fun w t =>
        let v (sel : Selector) := ty.f.value ((floatOperand c w t ty sel).headD 0)
        let r := fpCond (k.h.c.toNat / 16) (v k.h.a) (v k.h.b)
        { val := some (if r.1 then 1 else 0), pred := predAt (cIndex k) r.1, flags := r.2 }) s

/-- The fields of FRCP. -/
def encOfFrcp : KWord → Enc := fpEnc tyF modesDir 0 false false

/-- FRCP (R111). -/
def execFrcp (w : KWord) (s : State) : Out :=
  issueK encOfFrcp w .straight (fpRun fun f m a _ _ _ => mathFn .rcp f m a) s

/-- The fields of FRSQ. -/
def encOfFrsq : KWord → Enc := fpEnc tyF modesDir 0 false false

/-- FRSQ (R111). -/
def execFrsq (w : KWord) (s : State) : Out :=
  issueK encOfFrsq w .straight (fpRun fun f m a _ _ _ => mathFn .rsq f m a) s

/-- The fields of FSQRT. -/
def encOfFsqrt : KWord → Enc := fpEnc tyF modesDir 0 false false

/-- FSQRT (R111). -/
def execFsqrt (w : KWord) (s : State) : Out :=
  issueK encOfFsqrt w .straight (fpRun fun f m a _ _ _ => mathFn .sqrt f m a) s

/-- The fields of FEXP2. -/
def encOfFexp2 : KWord → Enc := fpEnc tyF [0] 0 false false

/-- FEXP2 (R111). -/
def execFexp2 (w : KWord) (s : State) : Out :=
  issueK encOfFexp2 w .straight (fpRun fun f m a _ _ _ => mathFn .exp2 f m a) s

/-- The fields of FLOG2. -/
def encOfFlog2 : KWord → Enc := fpEnc tyF [0] 0 false false

/-- FLOG2 (R111). -/
def execFlog2 (w : KWord) (s : State) : Out :=
  issueK encOfFlog2 w .straight (fpRun fun f m a _ _ _ => mathFn .log2 f m a) s

/-- The fields of FSIN. -/
def encOfFsin : KWord → Enc := fpEnc tyF [0] 0 false false

/-- FSIN (R111). -/
def execFsin (w : KWord) (s : State) : Out :=
  issueK encOfFsin w .straight (fpRun fun f m a _ _ _ => mathFn .sin f m a) s

/-- The fields of FCOS. -/
def encOfFcos : KWord → Enc := fpEnc tyF [0] 0 false false

/-- FCOS (R111). -/
def execFcos (w : KWord) (s : State) : Out :=
  issueK encOfFcos w .straight (fpRun fun f m a _ _ _ => mathFn .cos f m a) s

/-- The class mask of a code (R112). -/
def classMask (f : Fmt) (code : Nat) : Nat :=
  let bit := match f.value code with
    | .inf neg => if neg then 0 else 7
    | .nan q => if q then 9 else 8
    | .num neg m _ =>
      if m = 0 then (if neg then 3 else 4)
      else if bitsOf code (f.bits - 2) f.frac = 0 then (if neg then 2 else 5)
      else if neg then 1 else 6
  2 ^ bit

/-- The fields of FCLASS. -/
def encOfFclass (k : KWord) : Enc := { fpEnc tyF [0] 0 false false k with d := .dst .w32 }

/-- FCLASS (R112). -/
def execFclass (w : KWord) (s : State) : Out :=
  issueK encOfFclass w .straight
    (fun c k =>
      let ty := elemTy k.tyN
      aluRun c k.h .w32 fun w t =>
        { val := some (BitVec.ofNat 64 (classMask ty.f ((floatOperand c w t ty k.h.a).headD 0))) }) s

/-- FRND of a code (R113): the adjacent integer that the mode selects; no NX. -/
def fpRoundInt (f : Fmt) (mode : Mode) (a : Nat) : Nat × W32 :=
  match f.value a with
  | .nan q => (f.nan, if q then 0 else flagNV)
  | .inf _ => (a, 0)
  | .num neg m e =>
    if m = 0 then (a, 0)
    else ((f.round (.num neg (roundInt neg m e false mode 0).1.natAbs 0) false .rne false 0).1, 0)

/-- The fields of FRND. -/
def encOfFrnd : KWord → Enc := fpEnc tyP modesDir 0 false false

/-- FRND (R113). -/
def execFrnd (w : KWord) (s : State) : Out :=
  issueK encOfFrnd w .straight (fpRun fun f m a _ _ _ => fpRoundInt f m a) s

/-! ## Conversion -/

/-- The source type code of R45. -/
def srcType (k : KWord) : Nat := k.imm.toNat % 256

/-- IMM32[31:8] of an instruction with a source type must be zero (R45). -/
def srcTypeBad (k : KWord) : Bool := decide (256 ≤ k.imm.toNat)

/-- A code is an integer type. -/
def isIntTy (ty : Nat) : Bool := decide (1 ≤ ty) && decide (ty ≤ 8)

/-- The types that CVT accepts (R114). -/
def tyCvt : List Nat := tyInt ++ tyF

/-- The value converted to an integer type, saturating (R54, R114). -/
def toIntType (ty : IntTy) (mode : Mode) (u : Nat) (x : Val) : W64 × W32 :=
  let r := ty.range
  let out (v : Int) : W64 := intResult ty v
  match x with
  | .nan _ => (0, flagNV)
  | .inf neg => (out (if neg then r.1 else r.2), flagNV)
  | .num neg m e =>
    let y := roundToRange r.1 r.2 neg m e false mode u
    (out y.1, y.2)

/-- The fields of CVT. -/
def encOfCvt (k : KWord) : Enc :=
  { prof := 1, types := [k.tyN, srcType k], d := .dst (tyWidth k.tyN),
    a := .src (if srcType k = 4 ∨ srcType k = 8 then .w64 else .w32) false, result := true,
    reserved := srcTypeBad k || decide (4 < k.mode) || k.hi != 0
      || (isIntTy k.tyN && isIntTy (srcType k) && k.mode != 0),
    typeBad := !tyCvt.contains k.tyN || !tyCvt.contains (srcType k) || k.tyN == srcType k }

/-- The result of CVT for a unit (R114). -/
def cvtGives (c : Ctx) (k : KWord) (w : Warp) (t : Tid) : AluOut :=
  let mode := Mode.ofCode k.mode
  let us := drawsFor mode 1 (w.thread t).seed
  let u := us.1.headD 0
  let i := intOperand c w t (intTy (srcType k)) k.h.a
  let dty := intTy k.tyN
  if isIntTy k.tyN then
    if isIntTy (srcType k) then
      let r := if k.sat then dty.clamp i else (i, 0)
      { val := some (intResult dty r.1), flags := r.2 }
    else
      let ft := elemTy (srcType k)
      let x := ft.f.value ((floatOperand c w t ft k.h.a).headD 0)
      let r := toIntType dty mode u x
      { val := some r.1, flags := signalFlag [x] ||| r.2, seed := us.2 }
  else
    let f := (elemTy k.tyN).f
    let x := if isIntTy (srcType k) then Val.ofInt i 0
      else (elemTy (srcType k)).f.value ((floatOperand c w t (elemTy (srcType k)) k.h.a).headD 0)
    let r := f.round x false mode k.sat u
    { val := some (BitVec.ofNat 64 r.1), flags := signalFlag [x] ||| r.2, seed := us.2 }

/-- CVT (R114). DESIGN CHOICE (log 5): MOD[61] may be set in every conversion. -/
def execCvt (w : KWord) (s : State) : Out :=
  issueK encOfCvt w .straight (fun c k => aluRun c k.h (tyWidth k.tyN) (cvtGives c k)) s

/-- The packed destinations of R115. -/
def tyPack : List Nat := [0x21, 0x22, 0x23, 0x24, 0x25, 0x26, 0x27, 0x28]

/-- The groups of four elements of a packed type (R115). -/
def packGroups (ty : Nat) : Nat := (elemTy ty).n / 4

/-- The fields of PACK. -/
def encOfPack (k : KWord) : Enc :=
  { prof := 1, types := [k.tyN, srcType k], d := .dst .w64, a := .src .w64 false, b := .src .w64 false, result := true,
    reserved := srcTypeBad k || decide (4 < k.mode)
      || (tyPack.contains k.tyN && (decide (packGroups k.tyN ≤ k.hi) || (k.tyN == 0x26 && k.mode != 0))),
    typeBad := !tyPack.contains k.tyN || srcType k != 0x20 }

/-- The result of PACK for a unit (R115): one group of D is replaced. -/
def packGives (c : Ctx) (k : KWord) (w : Warp) (t : Tid) : AluOut :=
  let ty := elemTy k.tyN
  let mode := Mode.ofCode k.mode
  let us := drawsFor mode 4 (w.thread t).seed
  let xs := elements ⟨.fp32, 2⟩ (read64 c w t k.h.a) ++ elements ⟨.fp32, 2⟩ (read64 c w t k.h.b)
  let rs := xs.zipIdx.map fun p =>
    let x := Fmt.fp32.value p.1
    let r := ty.f.round x false mode k.sat (us.1.getD p.2 0)
    (r.1, signalFlag [x] ||| r.2)
  let old := (read64 c w t k.h.d).toNat
  let at_ := 4 * k.hi * ty.f.bits
  let field := 4 * ty.f.bits
  let new := old - bitsOf old (at_ + field - 1) at_ * 2 ^ at_ + joinElements ty.f.bits (rs.map (·.1)) * 2 ^ at_
  { val := some (BitVec.ofNat 64 new), flags := rs.foldl (fun fl r => fl ||| r.2) 0, seed := us.2 }

/-- PACK (R115). DESIGN CHOICE (log 5): MOD[61] may be set where saturation is always made. -/
def execPack (w : KWord) (s : State) : Out :=
  issueK encOfPack w .straight (fun c k => aluRun c k.h .w64 (packGives c k)) s

/-- The fields of UNPK. -/
def encOfUnpk (k : KWord) : Enc :=
  { prof := 1, types := [k.tyN, srcType k], d := .dst .w128, a := .src .w64 false,
    reserved := srcTypeBad k || k.mode != 0 || k.sat || k.h.d == 0xC8
      || (tyPack.contains (srcType k) && decide (packGroups (srcType k) ≤ k.hi)),
    typeBad := k.tyN != 0x10 || !tyPack.contains (srcType k) }

/-- The result of UNPK for a unit (R116): the four elements of a group. -/
def unpkGives (c : Ctx) (k : KWord) (w : Warp) (t : Tid) : AluOut :=
  let ty := elemTy (srcType k)
  let xs := ((elements ty (read64 c w t k.h.a)).drop (4 * k.hi)).take 4
  let vs := xs.map ty.f.value
  let v := joinElements 32 (vs.map fun v => (Fmt.fp32.round v false .rne false 0).1)
  { val := some (BitVec.ofNat 64 v), high := some (BitVec.ofNat 64 (v / 2 ^ 64)), flags := signalFlag vs }

/-- UNPK (R116). -/
def execUnpk (w : KWord) (s : State) : Out :=
  issueK encOfUnpk w .straight (fun c k => aluRun c k.h .w128 (unpkGives c k)) s

/-! ## The quantiser -/

/-- The scaled packed types (R117). -/
def tyScaled : List Nat := [0x23, 0x24, 0x25, 0x26, 0x27, 0x28]

/-- The 32 elements of a warp's block (R117): two of each participant, +0 of every other thread. -/
def qntBlock (c : Ctx) (w : Warp) (a : Selector) : List Nat :=
  allTids.flatMap fun t => if c.parts.contains t then elements ⟨.fp32, 2⟩ (read64 c w t a) else [0, 0]

/-- The draws of QNT (R117): elements 2t and 2t+1 draw from thread t, and only participants draw. -/
def qntDraws (c : Ctx) (w : Warp) (mode : Mode) : List Nat :=
  allTids.flatMap fun t =>
    if c.parts.contains t && mode == .rsr then (srands 2 (w.thread t).seed).1 else [0, 0]

/-- The participants that raise QNT's flags (R57). DESIGN CHOICE (log 133): a thread raises NX and SN by its own elements as they are
quantised, every participant raises SU, and all of them raise what only elements of other threads raise. -/
def qntRaisers (c : Ctx) (q : Quantised) : BitVec 16 :=
  let own := c.parts.filter fun t => q.clamped || (q.elems.getD (2 * t.val) (0, 0)).2 ||| (q.elems.getD (2 * t.val + 1) (0, 0)).2 != 0
  maskOf (if own.isEmpty then c.parts else own)

/-- Bits between the two codes of a thread in QNT's layout (R117). -/
def codeShift (f : Fmt) : Nat := if f.bits = 4 then 4 else 8

/-- The fields of QNT. -/
def encOfQnt (k : KWord) : Enc :=
  { prof := 3, types := [k.tyN, srcType k], umode := .zero, d := .gDst .w64, a := .gSrc .w64, result := true,
    reserved := srcTypeBad k || decide (4 < k.mode) || k.sat || (k.tyN == 0x26 && k.mode != 0),
    typeBad := !tyScaled.contains k.tyN || srcType k != 0x20 }

/-- QNT (R117). -/
def execQnt (w : KWord) (s : State) : Out :=
  issueK encOfQnt w .straight
    (fun c k => do
      let w ← Op.warp c
      if c.parts.isEmpty then return ()
      let f := (elemTy k.tyN).f
      let mode := Mode.ofCode k.mode
      let q := quantise (qntBlock c w k.h.a) f (k.hi.testBit 0) (k.hi.testBit 1) mode (qntDraws c w mode)
      raise c q.flags (qntRaisers c q)
      let outs : List (Tid × AluOut) := c.parts.map fun t =>
        let lo := (q.elems.getD (2 * t.val) (0, 0)).1 + (q.elems.getD (2 * t.val + 1) (0, 0)).1 * 2 ^ codeShift f
        (t, { val := some (q.scale ++ BitVec.ofNat 32 lo),
              seed := if mode = .rsr then some (srands 2 (w.thread t).seed).2 else none })
      Op.modWarp c (applyAll c k.h .w64 outs)) s

/-- DQNT of one thread's operand (R118): its two FP32 codes and the flags. -/
def dqntValue (f : Fmt) (a : W64) : W64 × W32 :=
  let w := a.extractLsb' 32 32
  let code (i : Nat) := bitsOf a.toNat (i * codeShift f + f.bits - 1) (i * codeShift f)
  let r (i : Nat) := Fmt.fp32.round (blockValue f (code i) w) false .rne false 0
  (BitVec.ofNat 64 (joinElements 32 [(r 0).1, (r 1).1]), (r 0).2 ||| (r 1).2)

/-- The fields of DQNT. -/
def encOfDqnt (k : KWord) : Enc :=
  { prof := 3, types := [k.tyN, srcType k], umode := .zero, d := .dst .w64, a := .src .w64 false, result := true,
    reserved := srcTypeBad k || k.md != 0,
    typeBad := k.tyN != 0x20 || !tyScaled.contains (srcType k) }

/-- DQNT (R118). -/
def execDqnt (w : KWord) (s : State) : Out :=
  issueK encOfDqnt w .straight
    (fun c k => do
      let w ← Op.warp c
      let bad := c.parts.filter fun t => !scaleOk ((read64 c w t k.h.a).extractLsb' 32 32) true
      if !bad.isEmpty then Op.trap .decodeScale (maskOf bad)
      let f := (elemTy (srcType k)).f
      aluRun c k.h .w64 fun w t =>
        let r := dqntValue f (read64 c w t k.h.a)
        { val := some r.1, flags := r.2 }) s

/-- The stochastic state that SEED stores (R55, R119). -/
def seedValue (v : W32) : W32 := if v = 0 then 0x9E3779B9 else v

/-- The fields of SEED. -/
def encOfSeed (k : KWord) : Enc :=
  { prof := 1, umode := .zero, a := .src .w32 true,
    reserved := k.ty != 0 || k.md != 0 || immUnused k.h k.imm }

/-- SEED (R119). -/
def execSeed (w : KWord) (s : State) : Out :=
  issueK encOfSeed w .straight
    (fun c k => aluRun c k.h .w32 fun w t => { seed := some (seedValue (read32 c w t k.h.a)) }) s

end Sys2Proof.Machine
end

