-- ==== Sys2Proof/Machine/IntAlu.lean ====
section
/-!
DEFINITION. Integer and bit instructions (R101 to R106).
-/

namespace Sys2Proof.Machine

open Sys2Proof

/-! ## Integer instructions (R101) -/

/-- The encoding of an integer instruction: MOD is zero but for MOD[61] where .sat is listed (R46, R101). -/
def intEnc (types : List Nat) (sat : Bool) (nb nc : Bool) (k : KWord) : Enc :=
  aluEnc types (k.mode == 0 && k.hi == 0 && (sat || !k.sat)) true nb nc k

/-- The run of an integer instruction whose exact result is a function of its operands (R101). -/
def intRun (f : IntTy → Int → Int → Int → Int) (c : Ctx) (k : KWord) : Op Unit :=
  let ty := intTy k.tyN
  aluRun c k.h (tyWidth k.tyN) fun w t =>
    let v := f ty (intOperand c w t ty k.h.a) (intOperand c w t ty k.h.b) (intOperand c w t ty k.h.c)
    let r := if k.sat then ty.clamp v else (v, 0)
    { val := some (intResult ty r.1), flags := r.2 }

/-- The fields of IADD. -/
def encOfIadd : KWord → Enc := intEnc tyInt true true false

/-- IADD (R101). -/
def execIadd (w : KWord) (s : State) : Out :=
  issueK encOfIadd w .straight (intRun fun _ a b _ => a + b) s

/-- The fields of ISUB. -/
def encOfIsub : KWord → Enc := intEnc tyInt true true false

/-- ISUB (R101). -/
def execIsub (w : KWord) (s : State) : Out :=
  issueK encOfIsub w .straight (intRun fun _ a b _ => a - b) s

/-- The fields of IMUL. -/
def encOfImul : KWord → Enc := intEnc tyInt true true false

/-- IMUL (R101). -/
def execImul (w : KWord) (s : State) : Out :=
  issueK encOfImul w .straight (intRun fun _ a b _ => a * b) s

/-- The fields of IMULH. -/
def encOfImulh : KWord → Enc := intEnc [3, 4, 7, 8] false true false

/-- IMULH (R101): bits 2w−1:w of the exact product. -/
def execImulh (w : KWord) (s : State) : Out :=
  issueK encOfImulh w .straight (intRun fun ty a b _ => a * b / (2 ^ ty.w : Nat)) s

/-- The fields of IMAD. -/
def encOfImad : KWord → Enc := intEnc tyInt true true true

/-- IMAD (R101): one exact sum. -/
def execImad (w : KWord) (s : State) : Out :=
  issueK encOfImad w .straight (intRun fun _ a b c => a * b + c) s

/-- The fields of IABS. -/
def encOfIabs : KWord → Enc := intEnc tySigned true false false

/-- IABS (R101). -/
def execIabs (w : KWord) (s : State) : Out :=
  issueK encOfIabs w .straight (intRun fun _ a _ _ => (a.natAbs : Int)) s

/-- The fields of INEG. -/
def encOfIneg : KWord → Enc := intEnc tySigned true false false

/-- INEG (R101). -/
def execIneg (w : KWord) (s : State) : Out :=
  issueK encOfIneg w .straight (intRun fun _ a _ _ => -a) s

/-- The fields of IMIN. -/
def encOfImin : KWord → Enc := intEnc tyInt false true false

/-- IMIN (R101). -/
def execImin (w : KWord) (s : State) : Out :=
  issueK encOfImin w .straight (intRun fun _ a b _ => min a b) s

/-- The fields of IMAX. -/
def encOfImax : KWord → Enc := intEnc tyInt false true false

/-- IMAX (R101). -/
def execImax (w : KWord) (s : State) : Out :=
  issueK encOfImax w .straight (intRun fun _ a b _ => max a b) s

/-- The fields of MOV. -/
def encOfMov : KWord → Enc := intEnc tyN false false false

/-- MOV (R101). -/
def execMov (w : KWord) (s : State) : Out :=
  issueK encOfMov w .straight (intRun fun _ a _ _ => a) s

/-! ## Compare, select, carry (R102) -/

/-- The condition of ICMP by its code (R102). -/
def intCond (n : Nat) (a b : Int) : Bool :=
  match n with
  | 0 => decide (a = b)
  | 1 => decide (a ≠ b)
  | 2 => decide (a < b)
  | 3 => decide (a ≤ b)
  | 4 => decide (b < a)
  | _ => decide (b ≤ a)

/-- The encoding of an instruction whose C holds a predicate field (R102). -/
def predEnc (types : List Nat) (ok : Bool) (k : KWord) : Enc :=
  { intEnc types false true false k with
    c := .lit,
    reserved := (intEnc types false true false k).reserved || !ok }

/-- The fields of ICMP. -/
def encOfIcmp (k : KWord) : Enc :=
  { predEnc tyInt (decide (k.h.c.toNat / 16 ≤ 5) && !k.h.c.getLsbD 3) k with d := .dst .w32 }

/-- ICMP (R102). -/
def execIcmp (w : KWord) (s : State) : Out :=
  issueK encOfIcmp w .straight
    (fun c k =>
      let ty := intTy k.tyN
      aluRun c k.h .w32 fun w t =>
        let r := intCond (k.h.c.toNat / 16) (intOperand c w t ty k.h.a) (intOperand c w t ty k.h.b)
        { val := some (if r then 1 else 0), pred := predAt (cIndex k) r }) s

/-- The fields of SEL. -/
def encOfSel (k : KWord) : Enc := predEnc tyN (k.h.c.toNat / 16 == 0) k

/-- SEL (R102). -/
def execSel (w : KWord) (s : State) : Out :=
  issueK encOfSel w .straight
    (fun c k =>
      let ty := intTy k.tyN
      aluRun c k.h (tyWidth k.tyN) fun w t =>
        let p := xor (readPred c w t (cIndex k)) (k.h.c.getLsbD 3)
        { val := some (intResult ty (intOperand c w t ty (if p then k.h.a else k.h.b))) }) s

/-- MOVI (R103): the value that its mode writes. -/
def moviValue (mode : Nat) (imm : W32) (a : W64) : W64 :=
  match mode with
  | 0 => imm.setWidth 64
  | 1 => imm.signExtend 64
  | _ => imm ++ a.extractLsb' 0 32

/-- The fields of MOVI. -/
def encOfMovi (k : KWord) : Enc :=
  { prof := 1, types := [k.tyN], d := .dst (tyWidth k.tyN), a := if k.hi = 2 then .src .w64 false else .none,
    result := true,
    reserved := k.mode != 0 || k.sat || k.hi == 3 || ((k.hi == 1 || k.hi == 2) && k.tyN != 8),
    typeBad := !tyN.contains k.tyN }

/-- MOVI (R103). -/
def execMovi (w : KWord) (s : State) : Out :=
  issueK encOfMovi w .straight
    (fun c k => aluRun c k.h (tyWidth k.tyN) fun w t =>
      { val := some (moviValue k.hi k.imm (if k.hi = 2 then read64 c w t k.h.a else 0)) }) s

/-- The fields of LEA. -/
def encOfLea (k : KWord) : Enc :=
  { prof := 1, types := [k.tyN], d := .dst .w64, a := .src .w64 false,
    b := .src (if k.tyN = 8 then .w64 else .w32) false, result := true,
    reserved := k.mode != 0 || k.sat,
    typeBad := !([3, 7, 8].contains k.tyN) }

/-- LEA (R104). -/
def execLea (w : KWord) (s : State) : Out :=
  issueK encOfLea w .straight
    (fun c k => aluRun c k.h .w64 fun w t =>
      let b : W64 :=
        if k.tyN = 8 then read64 c w t k.h.b
        else if k.tyN = 3 then (read32 c w t k.h.b).signExtend 64 else (read32 c w t k.h.b).setWidth 64
      { val := some (read64 c w t k.h.a + (b <<< k.hi) + k.imm.signExtend 64) }) s

/-- The fields of ADDC. -/
def encOfAddc (k : KWord) : Enc := predEnc tyN (k.h.c.toNat / 8 == 0) k

/-- ADDC (R102). -/
def execAddc (w : KWord) (s : State) : Out :=
  issueK encOfAddc w .straight
    (fun c k =>
      let ty := intTy k.tyN
      aluRun c k.h (tyWidth k.tyN) fun w t =>
        let i := cIndex k
        let cin : Int := if i ≠ 7 ∧ readPred c w t i = true then 1 else 0
        let v := intOperand c w t ty k.h.a + intOperand c w t ty k.h.b + cin
        { val := some (intResult ty v), pred := predAt i (decide (((2 ^ ty.w : Nat) : Int) ≤ v)) }) s

/-! ## Bit instructions (R105, R106) -/

/-- The run of a bit instruction on the operands' bits: `w` is the width of the type. -/
def bitRun (f : Nat → Nat → Nat → Nat → Nat) (c : Ctx) (k : KWord) : Op Unit :=
  let ty := intTy k.tyN
  let wd := tyWidth k.tyN
  aluRun c k.h wd fun w t =>
    let bitsAt (sel : Selector) := (operand c w t wd ty.signed sel).toNat
    { val := some (BitVec.ofNat 64 (f ty.w (bitsAt k.h.a) (bitsAt k.h.b) (bitsAt k.h.c) % 2 ^ ty.w)) }

/-- The fields of AND. -/
def encOfAnd : KWord → Enc := intEnc tyN false true false

/-- AND (R105). -/
def execAnd (w : KWord) (s : State) : Out :=
  issueK encOfAnd w .straight (bitRun fun _ a b _ => a &&& b) s

/-- The fields of OR. -/
def encOfOr : KWord → Enc := intEnc tyN false true false

/-- OR (R105). -/
def execOr (w : KWord) (s : State) : Out :=
  issueK encOfOr w .straight (bitRun fun _ a b _ => a ||| b) s

/-- The fields of XOR. -/
def encOfXor : KWord → Enc := intEnc tyN false true false

/-- XOR (R105). -/
def execXor (w : KWord) (s : State) : Out :=
  issueK encOfXor w .straight (bitRun fun _ a b _ => a ^^^ b) s

/-- The fields of ANDN. -/
def encOfAndn : KWord → Enc := intEnc tyN false true false

/-- ANDN (R105): A and not B. -/
def execAndn (w : KWord) (s : State) : Out :=
  issueK encOfAndn w .straight (bitRun fun n a b _ => a &&& (2 ^ n - 1 - b)) s

/-- The fields of SHL. -/
def encOfShl : KWord → Enc := intEnc tyN false true false

/-- SHL (R105): the count is B mod w. -/
def execShl (w : KWord) (s : State) : Out :=
  issueK encOfShl w .straight (bitRun fun n a b _ => a * 2 ^ (b % n)) s

/-- The fields of SHR. -/
def encOfShr : KWord → Enc := intEnc tyN false true false

/-- SHR (R105). -/
def execShr (w : KWord) (s : State) : Out :=
  issueK encOfShr w .straight (bitRun fun n a b _ => a / 2 ^ (b % n)) s

/-- The fields of SAR. -/
def encOfSar : KWord → Enc := intEnc [3, 4] false true false

/-- SAR (R105): the sign comes in. -/
def execSar (w : KWord) (s : State) : Out :=
  issueK encOfSar w .straight
    (bitRun fun n a b _ => wrapTo n (signedOf n a / (2 ^ (b % n) : Nat))) s

/-- The fields of ROT. -/
def encOfRot : KWord → Enc := intEnc tyN false true false

/-- ROT (R105): left. -/
def execRot (w : KWord) (s : State) : Out :=
  issueK encOfRot w .straight (bitRun fun n a b _ => a * 2 ^ (b % n) + a / 2 ^ (n - b % n)) s

/-- The position and length of a field word (R106). -/
def fieldOf (n f : Nat) : Nat × Nat :=
  let pos := f % 256
  if n ≤ pos then (pos, 0) else (pos, min (f / 256 % 256) (n - pos))

/-- The fields of BFX. -/
def encOfBfx (k : KWord) : Enc := { intEnc [3, 4, 7, 8] false true false k with b := .src .w32 true }

/-- BFX (R106). DEDUCED (log 3): the field word is a 32-bit operand. -/
def execBfx (w : KWord) (s : State) : Out :=
  issueK encOfBfx w .straight
    (fun c k =>
      let ty := intTy k.tyN
      aluRun c k.h (tyWidth k.tyN) fun w t =>
        let a := (operand c w t (tyWidth k.tyN) ty.signed k.h.a).toNat
        let f := fieldOf ty.w (read32 c w t k.h.b).toNat
        let v := a / 2 ^ f.1 % 2 ^ f.2
        { val := some (intResult ty (if ty.signed && f.2 != 0 then signedOf f.2 v else v)) }) s

/-- The fields of BFI. -/
def encOfBfi (k : KWord) : Enc := { intEnc tyN false true true k with c := .src .w32 true }

/-- BFI (R106). DEDUCED (log 3): the field word is a 32-bit operand. -/
def execBfi (w : KWord) (s : State) : Out :=
  issueK encOfBfi w .straight
    (fun c k =>
      let ty := intTy k.tyN
      aluRun c k.h (tyWidth k.tyN) fun w t =>
        let a := (operand c w t (tyWidth k.tyN) false k.h.a).toNat
        let b := (operand c w t (tyWidth k.tyN) false k.h.b).toNat
        let f := fieldOf ty.w (read32 c w t k.h.c).toNat
        let old := a / 2 ^ f.1 % 2 ^ f.2
        { val := some (BitVec.ofNat 64 (a - old * 2 ^ f.1 + b % 2 ^ f.2 * 2 ^ f.1)) }) s

/-- The encoding of POPC, CLZ and CTZ: a 32-bit count. -/
def countEnc (k : KWord) : Enc := { intEnc tyN false false false k with d := .dst .w32 }

/-- The run of a count (R105). -/
def countRun (f : Nat → Nat → Nat) (c : Ctx) (k : KWord) : Op Unit :=
  let ty := intTy k.tyN
  aluRun c k.h .w32 fun w t =>
    { val := some (BitVec.ofNat 64 (f ty.w (operand c w t (tyWidth k.tyN) false k.h.a).toNat)) }

/-- POPC (R105). -/
def execPopc (w : KWord) (s : State) : Out :=
  issueK countEnc w .straight (countRun fun n a => ((List.range n).filter fun i => bitAt a i).length) s

/-- CLZ (R105): of 0, w. -/
def execClz (w : KWord) (s : State) : Out :=
  issueK countEnc w .straight (countRun fun n a => if a = 0 then n else n - 1 - Nat.log2 a) s

/-- CTZ (R105): of 0, w. -/
def execCtz (w : KWord) (s : State) : Out :=
  issueK countEnc w .straight (countRun fun n a => ((List.range n).find? fun i => bitAt a i).getD n) s

/-- The fields of BREV. -/
def encOfBrev : KWord → Enc := intEnc tyN false false false

/-- BREV (R105). -/
def execBrev (w : KWord) (s : State) : Out :=
  issueK encOfBrev w .straight
    (bitRun fun n a _ _ => (List.range n).foldl (fun v i => 2 * v + (if bitAt a i then 1 else 0)) 0) s

/-- PERM (R106) of width `n`: nibble i of C chooses byte i. -/
def permBytes (n a b ctl : Nat) : Nat :=
  let src := a + b * 2 ^ n
  ofBytes ((List.range (n / 8)).map fun i =>
    let nib := ctl / 16 ^ i % 16
    let byte (j : Nat) := BitVec.ofNat 8 (src / 256 ^ j)
    if n = 32 then
      let v := byte (nib % 8)
      if nib < 8 then v else if v.getLsbD 7 then 0xFF else 0
    else byte nib)

/-- The fields of PERM. -/
def encOfPerm : KWord → Enc := intEnc tyN false true true

/-- PERM (R106). DEDUCED (log 2): with .n64 the operand C is 64-bit too (R96). -/
def execPerm (w : KWord) (s : State) : Out :=
  issueK encOfPerm w .straight (bitRun permBytes) s

end Sys2Proof.Machine
end

