-- ==== Sys2Proof/Machine/Thread.lean ====
section
/-!
DEFINITION. The instructions of a thread (R86 to R95): regions, transfers, macros, instruction fetch, traps, predicates and
the cross-thread instructions.
-/

namespace Sys2Proof.Machine

open Sys2Proof

/-! ## Encodings -/

/-- An E-format word of R86 whose selectors are all 0xC8. -/
def bareEnc (umode : UMode) (pr : Bool) (immOk : W32 → Bool) (w : EWord) : Enc :=
  { prof := 1, umode := umode, prAlways := pr, reserved := ePlain w (immOk w.imm) }

/-- A J-format word without registers (R86). -/
def jumpEnc (w : JWord) : Enc := { prof := 1, reserved := w.md != 0 }

/-- BRX, CALLX and RET: a register target, and a link of CALLX (R86, R88). -/
def targetEnc (link : Bool) (w : KWord) : Enc :=
  { prof := 1, a := .target, d := if link then .dst .w64 else .none, result := link,
    reserved := w.ty != 0 || w.md != 0 || w.imm != 0 }

/-! ## NOP, RGN and EXIT (R87) -/

/-- The fields of NOP. -/
def encOfNop (k : KWord) : Enc := { prof := 1, reserved := k.ty != 0 || k.md != 0 || k.imm != 0 }

/-- NOP (R87). -/
def execNop (w : KWord) (s : State) : Out :=
  issueK encOfNop w .straight (fun _ _ => pure ()) s

/-- The figures that IMPLQ returns (R348), as a context's warps on this device see them. -/
def State.figures (s : State) (ctx : Nat) : Vector W64 16 :=
  let ncl := (s.ctx ctx).ncl
  let up := ((vlist s.ports).filter fun (p : Port) => p.open_).length
  let at_ (n : Nat) : Nat :=
    match n with
    | 0 => 4 * ncl
    | 1 => ncl
    | 2 => 1000 + 100 * s.mgmt.clkLvl
    | 3 => 32
    | 4 => 4
    | 5 => 4096
    | 6 => 262144
    | 7 => 64
    | 8 => 4
    | 9 => 64
    | 10 => 327680
    | 11 => 268435456
    | 12 => 16777216
    | 13 => 768000000000
    | 14 => up
    | _ => 3
  ⟨⟨(List.range 16).map fun n => BitVec.ofNat 64 (at_ n)⟩, by simp⟩

/-- A switch point that a pinned warp does not take (R73, R74). -/
def State.freeSwitch (s : State) (task warp : Nat) : State :=
  match s.warp? task warp with
  | some w => if w.pinned then s else s.switchPoint task warp
  | none => s

/-- The fields of RGN. -/
def encOfRgn : EWord → Enc := bareEnc .zero true fun _ => true

/-- RGN (R87): the record is read, every thread of the active set begins a region, and the warp may be switched. -/
def execRgn (w : EWord) (s : State) : Out :=
  issueE encOfRgn w .boundary (fun c k => do
    let live ← Op.liveRecord c k.imm
    Op.modify fun s => (s.modWarp c.task c.warp fun w =>
      { w.modThreads c.active (fun th => th.beginRegion c.pc live) with implq := s.figures c.ctx }).freeSwitch c.task c.warp) s

/-- Waiting threads of a WSYNC whose mask names an exited thread (R182). -/
def Warp.orphans (w : Warp) : List Tid :=
  let gone := (maskOf (allTids.filter fun t => (w.thread t).exited)).setWidth 32
  allTids.filter fun t => !(w.thread t).exited && match (w.thread t).wsync with
    | some (m, _) => (m &&& gone) != 0
    | none => false

/-- The lowest PC of some threads. -/
def Warp.lowestOf (w : Warp) (ts : List Tid) : W64 :=
  ts.foldl (fun m t => if (w.thread t).pc.toNat < m.toNat then (w.thread t).pc else m)
    (match ts with
      | t :: _ => (w.thread t).pc
      | [] => 0)

/-- WSYNC_EXITED of the waiting threads whose mask names an exited thread, precise at the lowest PC among them; they will
execute their WSYNC again (R87, R182). -/
def State.wsyncExited (s : State) (task warp : Nat) : State :=
  match s.warp? task warp with
  | none => s
  | some w =>
    let ts := w.orphans
    if ts.isEmpty then s
    else
      let s := s.modWarp task warp fun w => w.modThreads ts fun th => { th with wsync := none }
      s.takeFault task warp (w.lowestOf ts) { cause := .wsyncExited, mask := maskOf ts }

/-- Waiting threads of a WSYNC whose mask names a thread that the sump parks (R252). -/
def Warp.strays (w : Warp) : List Tid :=
  let parked := (maskOf (allTids.filter w.parked)).setWidth 32
  allTids.filter fun t => !(w.thread t).exited && match (w.thread t).wsync with
    | some (m, _) => (m &&& parked) != 0
    | none => false

/-- SUMP_STATE of the waiting threads whose mask names a parked thread (R252), with the union of their masks, precise at the lowest
PC among them; they will execute their WSYNC again. -/
def State.wsyncParked (s : State) (task warp : Nat) : State :=
  match s.warp? task warp with
  | none => s
  | some w =>
    let ts := w.strays
    if ts.isEmpty then s
    else
      let m : BitVec 16 := ts.foldl (fun k t => match (w.thread t).wsync with
        | some (x, _) => k ||| x.setWidth 16
        | none => k) 0
      let s := s.modWarp task warp fun w => w.modThreads ts fun th => { th with wsync := none }
      s.takeFault task warp (w.lowestOf ts) { cause := .sumpState, mask := m, extra := w.sump.mode.code }

/-- Threads exit; the last one of a warp ends it (R68, R87). -/
def Warp.exitThreads (w : Warp) (ts : List Tid) : Warp :=
  let w := w.modThreads ts fun th => { th with exited := true }
  if allTids.all fun t => (w.thread t).exited then { w with st := .done, depth := 0 }.leaveSection else w

/-- The lane of a warp that has ended runs another (R68, R73). -/
def State.endSwitch (s : State) (task warp : Nat) : State :=
  match s.warp? task warp with
  | some w => if w.st = .done then s.switchPoint task warp else s
  | none => s

/-- The fields of EXIT. -/
def encOfExit : EWord → Enc := bareEnc .zero false (· == 0)

/-- EXIT (R87): what the warp has stored is released (R161, R264), the threads end, counted threads that had not
triggered count down (R161), and threads left waiting for them fault. -/
def execExit (w : EWord) (s : State) : Out :=
  issueE encOfExit w .boundary (fun c _ => do
    let w ← Op.warp c
    let t ← Op.task c
    if c.parts.isEmpty then return ()
    if w.sump.mode ≠ .inactive then
      Op.trap .sumpState (maskOf c.parts) 0 w.sump.mode.code
    Op.release c (maskOf c.parts)
    let fresh := (c.parts.filter fun i => !(w.thread i).triggered).length
    Op.modWarp c (·.exitThreads c.parts)
    if t.counted then Op.modify (·.countDown c.kid fresh)
    Op.modify (·.wsyncExited c.task c.warp)
    Op.modify (·.endSwitch c.task c.warp)) s

/-! ## Control transfers (R88) -/

/-- The targets of the J format and the byte targets of R21. -/
inductive Aim where
  | slot
  | byte
  | ret
  deriving DecidableEq, Repr

/-- One unit's transfer: its target, and whether it transfers at all (LOOP). -/
structure Hop where
  tid : Tid
  target : W64
  taken : Bool
  deriving DecidableEq, Repr

/-- The checks of R21 of one target. -/
def State.checkAim (s : State) (w : Who) (core : Nat) (k : Aim) (pc : Nat) : Except Cause Memory × State :=
  match k with
  | .slot => s.checkJTarget w core pc
  | .byte => s.checkTarget w core false pc
  | .ret => s.checkTarget w core true pc

/-- The checks of the targets of a transfer (R21): the line of each, or the one fault. -/
def Op.checkHops (c : Ctx) (k : Aim) (hops : List Hop) : Op (List (Hop × Memory)) := do
  let s ← Op.state
  let taken := hops.filter (·.taken)
  let r := taken.foldl (fun (acc : List (Hop × Memory) × List (Tid × Nat × Cause) × State) (h : Hop) =>
    match acc.2.2.checkAim c.who c.core k h.target.toNat with
    | (.ok b, s) => (acc.1 ++ [(h, b)], acc.2.1, s)
    | (.error e, s) => (acc.1, acc.2.1 ++ [(h.tid, h.target.toNat, e)], s))
    (([], [], s) : List (Hop × Memory) × List (Tid × Nat × Cause) × State)
  match failTrap c r.2.1 with
  | some t => Op.stop (.trap { t with cached := some (r.2.2.tlb, r.2.2.walks) })
  | none => do
    Op.put r.2.2
    return r.1

/-- The threads whose committed region forbids the transfer: it is too long, or it leads back to a slot that holds no RGN
(R77, R88); `after` is the warp with the results written, since a result in a live-in register commits (R76). -/
def hopsBad (c : Ctx) (w after : Warp) (hops : List (Hop × Memory)) : List Tid :=
  let back := (hops.filter fun h =>
    decide (h.1.target.toNat ≤ c.pc.toNat) && !holdsRgn h.2 h.1.target.toNat).flatMap fun h => c.threadsAt h.1.tid
  let long := w.regionBad .transfer c.executing
  c.active.filter fun t =>
    long.contains t || (back.contains t && (after.thread t).region.inside && (after.thread t).region.committed)

/-- A transfer (R88): the checks of every target, then the results, then the PCs; threads whose predicate fails go on to
next(PC). -/
def Op.transfer (c : Ctx) (k : Aim) (hops : List Hop) (write : Warp → Hop → Warp) : Op Unit := do
  let lines ← Op.checkHops c k hops
  let w ← Op.warp c
  let bad := hopsBad c w (hops.foldl write w) lines
  if !bad.isEmpty then Op.trap .regionLength (maskOf bad)
  Op.modWarp c fun w =>
    let w := hops.foldl write w
    let w := w.modThreads c.active fun th => { th with pc := nextPc c.pc }
    hops.foldl (fun w h => w.modThreads (c.threadsAt h.tid) fun th => { th with pc := h.target }) w

/-- The link or count of a transfer written. -/
def putLink (c : Ctx) (h : Head) (wd : Width) (v : Hop → W64) (w : Warp) (x : Hop) : Warp :=
  putResult c h wd w x.tid (v x)

/-- BRA (R88). -/
def execBra (w : JWord) (s : State) : Out :=
  issueJ jumpEnc w .transfer (fun c k =>
    Op.transfer c .slot (c.units.map fun t => { tid := t, target := jTarget c.pc k.off, taken := true }) fun w _ => w) s

/-- The fields of CALL. -/
def encOfCall (k : JWord) : Enc := { jumpEnc k with d := .dst .w64, result := true }

/-- CALL (R88). -/
def execCall (w : JWord) (s : State) : Out :=
  issueJ encOfCall w .transfer (fun c k =>
    Op.transfer c .slot (c.units.map fun t => { tid := t, target := jTarget c.pc k.off, taken := true })
      (putLink c k.h .w64 fun _ => nextPc c.pc)) s

/-- The transfer of BRX, CALLX and RET to a target read from a register (R88). -/
def targetRun (k : Aim) (link : Bool) (c : Ctx) (w : KWord) : Op Unit := do
  let x ← Op.warp c
  Op.transfer c k (c.units.map fun t => { tid := t, target := read64 c x t w.h.a, taken := true })
    (if link then putLink c w.h .w64 fun _ => nextPc c.pc else fun w _ => w)

/-- The fields of BRX. -/
def encOfBrx : KWord → Enc := targetEnc false

/-- BRX (R88). -/
def execBrx (w : KWord) (s : State) : Out := issueK encOfBrx w .transfer (targetRun .byte false) s

/-- The fields of CALLX. -/
def encOfCallx : KWord → Enc := targetEnc true

/-- CALLX (R88). -/
def execCallx (w : KWord) (s : State) : Out := issueK encOfCallx w .transfer (targetRun .byte true) s

/-- The fields of RET. -/
def encOfRet : KWord → Enc := targetEnc false

/-- RET (R88). -/
def execRet (w : KWord) (s : State) : Out := issueK encOfRet w .transfer (targetRun .ret false) s

/-- The fields of LOOP. -/
def encOfLoop (k : JWord) : Enc :=
  { jumpEnc k with d := .dst .w32, a := .src .w32 false, result := true }

/-- LOOP (R88): the count falls by one, and the branch is taken while it is positive. -/
def execLoop (w : JWord) (s : State) : Out :=
  issueJ encOfLoop w .transfer (fun c k => do
    let x ← Op.warp c
    let n (t : Tid) : W32 := read32 c x t k.h.a - 1
    Op.transfer c .slot (c.units.map fun t =>
        let go := decide (0 < (n t).toInt)
        { tid := t, target := if go then jTarget c.pc k.off else nextPc c.pc, taken := go })
      (putLink c k.h .w32 fun h => (n h.tid).setWidth 64)) s

/-! ## Macros (R82, R83, R89) -/

/-- The fields of MCALL. -/
def encOfMcall (k : EWord) : Enc :=
  { bareEnc .zero true (fun i => decide (i.toNat < 64)) k with
    prof := 2, d := .supplied, a := .supplied, b := .supplied, c := .supplied }

/-- MCALL (R89): the warp enters the body; its slots issue next. -/
def execMcall (w : EWord) (s : State) : Out :=
  issueE encOfMcall w .enter (fun c k => do
    let t ← Op.task c
    match t.macros.find? fun m => m.1 == k.imm.toNat with
    | some (n, x :: xs) => Op.modWarp c fun w =>
      { w with mac := some { num := n, slot := 0, body := x :: xs, m0 := k.h.d, m1 := k.h.a, m2 := k.h.b, m3 := k.h.c } }
    | _ => Op.trap .macroInvalid (maskOf c.active)) s

/-! ## Instruction fetch (R90, R91) -/

/-- A line is asked for when its target may be fetched; any failure drops the request (R90). -/
def State.askCode (s : State) (w : Who) (core pc : Nat) : State :=
  match s.translate w .fetch pc 1 with
  | (.error _, _) => s
  | (.ok t, s') =>
    if s'.poisoned (codeLine t.pa) 256 || ((s'.core core).iline? w.ctx pc t.pa).isSome then s
    else s'.askFill core w.ctx pc t

/-- IPF (R90). -/
def execIpf (w : JWord) (s : State) : Out :=
  issueJ jumpEnc w .straight (fun c k => do
    if c.parts.isEmpty then return ()
    Op.modify fun s => s.askCode c.who c.core (jTarget c.pc k.off).toNat) s

/-- A store of a warp of the core to a peer has not been acknowledged. -/
def State.coreStoresOut (s : State) (core : Nat) : Bool :=
  s.outstanding.any fun o => match o.who with
    | .store t _ => match s.task? t with
      | some x => x.core == some core
      | none => false
    | _ => false

/-- The fields of IFENCE. -/
def encOfIfence : EWord → Enc := bareEnc .either false (· == 0)

/-- IFENCE (R91): the core's stores complete, and then its instruction cache is empty. -/
def execIfence (w : EWord) (s : State) : Out :=
  issueE encOfIfence w .straight (fun c _ => do
    if c.parts.isEmpty then return ()
    let s ← Op.state
    if s.coreStoresOut c.core then
      Op.put (s.stallFor c.asker)
      Op.holdHere
    Op.modify fun s => s.modCore c.core fun k => { k with icache := [], fills := [] }) s

/-! ## Traps (R92) -/

/-- The fault of TRAP and BKPT: IMM32, and the threads of the active set whose predicate holds (R92). -/
def trapOf (cause : Cause) (c : Ctx) (k : EWord) : Trap :=
  { cause := cause, mask := maskOf c.parts, extra := k.imm.toNat, slot := c.mslot }

/-- The fields of TRAP. -/
def encOfTrap : EWord → Enc := bareEnc .either false fun _ => true

/-- TRAP (R92): taken at the instruction, once for the warp when a thread passes its predicate; RESUME goes on after it. -/
def execTrap (w : EWord) (s : State) : Out :=
  issueE encOfTrap w .straight (fun c k =>
    if c.parts.isEmpty then pure () else Op.stop (.trap (trapOf .trapSoftware c k))) s

/-- The fields of BKPT. -/
def encOfBkpt : EWord → Enc := bareEnc .either false fun _ => true

/-- BKPT (R92, R380): raised once the instruction has taken effect, so the warp stands at next(PC). -/
def execBkpt (w : EWord) (s : State) : Out :=
  issueE encOfBkpt w .straight (fun c k => fun s =>
    if c.parts.isEmpty then .ok ((), s) else .error (.after s (trapOf .breakpoint c k))) s

/-! ## Predicates (R93, R94) -/

/-- The fields of PLOP. -/
def encOfPlop (k : KWord) : Enc :=
  { prof := 1,
    reserved := k.ty != 0 || k.md != 0 || k.imm.extractLsb' 23 9 != 0 || k.imm.getLsbD 11
      || k.imm.extractLsb' 8 3 == 7 }

/-- PLOP (R93). -/
def execPlop (w : KWord) (s : State) : Out :=
  issueK encOfPlop w .straight (fun c k =>
    let i := k.imm.toNat
    aluRun c k.h .w32 fun w t =>
      let a := xor (readPred c w t (bitsOf i 14 12)) (i.testBit 15)
      let b := xor (readPred c w t (bitsOf i 18 16)) (i.testBit 19)
      let d := readPred c w t (bitsOf i 22 20)
      { pred := [(bitsOf i 10 8, i.testBit (a.toNat * 4 + b.toNat * 2 + d.toNat))] }) s

/-- The seven predicates of a unit as bits (R94). -/
def predBits (c : Ctx) (w : Warp) (t : Tid) : Nat :=
  ((List.range 7).map fun i => if readPred c w t i then 2 ^ i else 0).sum

/-- The fields of PMOV. DESIGN CHOICE (log 130): A is a 32-bit operand. -/
def encOfPmov (k : KWord) : Enc :=
  let i := k.imm.toNat
  let immOk := match k.hi with
    | 0 => i == 0
    | 1 => decide (i < 128)
    | 2 => decide (i < 7)
    | _ => false
  { prof := 1, d := if k.hi = 0 then .dst .w32 else .none, a := if k.hi = 0 then .none else .src .w32 false,
    result := k.hi == 0, reserved := k.ty != 0 || k.mode != 0 || k.sat || !immOk }

/-- PMOV (R94). -/
def execPmov (w : KWord) (s : State) : Out :=
  issueK encOfPmov w .straight (fun c k =>
    let i := k.imm.toNat
    aluRun c k.h .w32 fun w t =>
      let a := (read32 c w t k.h.a).toNat
      match k.hi with
      | 0 => { val := some (BitVec.ofNat 64 (predBits c w t)) }
      | 1 => { pred := ((List.range 7).filter fun n => i.testBit n).map fun n => (n, a.testBit n) }
      | _ => { pred := [(i, a != 0)] }) s

/-! ## Cross-thread instructions (R95) -/

/-- The encoding of a cross-thread instruction. -/
def crossEnc (types : List Nat) (umode : UMode) (second mdOk : Bool) (k : KWord) : Enc :=
  let wd := tyWidth k.tyN
  { prof := 1, types := [k.tyN], umode := umode, d := .dst wd, a := .src wd false, result := true,
    reserved := !mdOk || immUnused k.h k.imm, typeBad := !types.contains k.tyN,
    b := if second then .src wd true else .none }

/-- The values that the participants of a cross-thread instruction supply, lowest tid first. -/
def crossValues (c : Ctx) (w : Warp) (k : KWord) (sel : Selector) : List (Tid × W64) :=
  c.executing.map fun t => (t, readSel c w t (tyWidth k.tyN) sel)

/-- The results of a cross-thread instruction written: to each participant, or once for the warp (R95). -/
def Op.crossPut (c : Ctx) (k : KWord) (outs : List (Tid × W64)) : Op Unit :=
  Op.modWarp c fun w => outs.foldl (fun w o => putResult c k.h (tyWidth k.tyN) w o.1 o.2) w

/-- One result for every participant, or for the warp. -/
def Op.crossAll (c : Ctx) (k : KWord) (v : W64) : Op Unit := Op.crossPut c k (c.units.map fun t => (t, v))

/-- The fields of SHFL. DESIGN CHOICE (log 130): the index B is a 32-bit operand with either type. -/
def encOfShfl (k : KWord) : Enc :=
  { crossEnc tyN .zero true (k.mode == 0 && !k.sat) k with b := .src .w32 true }

/-- What SHFL gives each participant: the value of the participant that it names, or its own. -/
def shflGives (c : Ctx) (k : KWord) (w : Warp) : List (Tid × W64) :=
  let vals := crossValues c w k k.h.a
  vals.map fun v =>
    let b : Int := ((read32 c w v.1 k.h.b).toNat : Int)
    let t : Int := (v.1.val : Int)
    let src : Int := match k.hi with
      | 0 => b
      | 1 => t - b
      | 2 => t + b
      | _ => ((v.1.val ^^^ (read32 c w v.1 k.h.b).toNat % 16 : Nat) : Int)
    (v.1, match vals.find? fun x => (x.1.val : Int) == src with
      | some x => x.2
      | none => v.2)

/-- SHFL (R95). -/
def execShfl (w : KWord) (s : State) : Out :=
  issueK encOfShfl w .straight (fun c k => do
    let w ← Op.warp c
    Op.crossPut c k (shflGives c k w)) s

/-- The fields of VOTE. -/
def encOfVote (k : KWord) : Enc := crossEnc tyN .mixed false (k.mode == 0 && !k.sat) k

/-- The result of VOTE over the participants' values. -/
def voteGives (c : Ctx) (k : KWord) (w : Warp) : W64 :=
  let vals := crossValues c w k k.h.a
  let yes := vals.filter fun v => v.2 != 0
  match k.hi with
  | 0 => (maskOf (yes.map (·.1))).setWidth 64
  | 1 => if yes.isEmpty then 0 else 1
  | 2 => if yes.length = vals.length then 1 else 0
  | _ => if vals.all fun v => some v.2 == (vals.head?).map (·.2) then 1 else 0

/-- VOTE (R95). -/
def execVote (w : KWord) (s : State) : Out :=
  issueK encOfVote w .straight (fun c k => do
    let w ← Op.warp c
    if c.executing.isEmpty then return ()
    Op.crossAll c k (voteGives c k w)) s

/-- One step of a reduction (R95): the partial result and the flags that the step raises. -/
def reduceStep (ty op : Nat) (sat : Bool) (mode : Mode) (acc v : W64) : W64 × W32 :=
  if ty = 0x10 then
    let r := match op with
      | 0 => fp32Add mode acc.toNat v.toNat
      | 1 => fpMinMax false .fp32 acc.toNat v.toNat
      | _ => fpMinMax true .fp32 acc.toNat v.toNat
    (BitVec.ofNat 64 r.1, r.2)
  else
    let t := intTy ty
    let num (x : W64) : Int := if t.signed then signedOf t.w x.toNat else ((x.toNat % 2 ^ t.w : Nat) : Int)
    match op with
    | 0 =>
      let r := if sat then t.clamp (num acc + num v) else (num acc + num v, 0)
      (BitVec.ofNat 64 (wrapTo t.w r.1), r.2)
    | 1 => (BitVec.ofNat 64 (wrapTo t.w (min (num acc) (num v))), 0)
    | 2 => (BitVec.ofNat 64 (wrapTo t.w (max (num acc) (num v))), 0)
    | _ => (acc ||| v, 0)

/-- The partial results of a reduction after each value, with the flags of each step. -/
def reduceSteps (f : W64 → W64 → W64 × W32) : W64 → List (Tid × W64) → List (Tid × W64 × W32)
  | _, [] => []
  | acc, (t, v) :: r => let x := f acc v; (t, x.1, x.2) :: reduceSteps f x.1 r

/-- The modifier bits of WRED and WSCAN (R95). -/
def reduceMd (k : KWord) : Bool :=
  let f32 := k.tyN == 0x10
  decide (k.mode ≤ 3) && !(k.hi == 3 && f32) && !(k.sat && (k.hi != 0 || f32)) && !(k.mode != 0 && (k.hi != 0 || !f32))

/-- The types of WRED and WSCAN (R95). -/
def tyReduce : List Nat := [3, 7, 4, 8, 0x10]

/-- The operand B of WSCAN for a thread. -/
def scanSeed (c : Ctx) (w : Warp) (k : KWord) (t : Tid) : W64 :=
  operand c w t (tyWidth k.tyN) (intTy k.tyN).signed k.h.b

/-- The flags of the steps of a reduction (R56, R57), with the threads whose step raised one. -/
def Op.raiseSteps (c : Ctx) (xs : List (Tid × W64 × W32)) : Op Unit :=
  raise c (xs.foldl (fun f x => f ||| x.2.2) 0) (maskOf ((xs.filter fun x => x.2.2 != 0).map (·.1)))

/-- The fields of WRED. -/
def encOfWred (k : KWord) : Enc := crossEnc tyReduce .mixed false (reduceMd k) k

/-- WRED (R95). -/
def execWred (w : KWord) (s : State) : Out :=
  issueK encOfWred w .straight (fun c k => do
    let w ← Op.warp c
    match crossValues c w k k.h.a with
    | [] => return ()
    | v :: vs =>
      let xs := reduceSteps (reduceStep k.tyN k.hi k.sat (Mode.ofCode k.mode)) v.2 vs
      Op.raiseSteps c xs
      Op.crossAll c k (match xs.getLast? with
        | some x => x.2.1
        | none => v.2)) s

/-- The fields of WSCAN. -/
def encOfWscan (k : KWord) : Enc := crossEnc tyReduce .zero true (reduceMd k) k

/-- WSCAN (R95). -/
def execWscan (w : KWord) (s : State) : Out :=
  issueK encOfWscan w .straight (fun c k => do
    let w ← Op.warp c
    match crossValues c w k k.h.a with
    | [] => return ()
    | v :: vs =>
      let xs := reduceSteps (reduceStep k.tyN k.hi k.sat (Mode.ofCode k.mode)) (scanSeed c w k v.1) (v :: vs)
      Op.raiseSteps c xs
      Op.crossPut c k (xs.map fun x => (x.1, x.2.1))) s

end Sys2Proof.Machine
end

