-- ==== Sys2Proof/Machine/SumpInstr.lean ====
section
/-!
DEFINITION. Sump loops (R241 to R255): the banks, the switches of mode, and SLOOP, YIELD, PDONE and CEND.
-/

namespace Sys2Proof.Machine

open Sys2Proof

/-! ## Banks, producers and rounds -/

/-- The other bank of g32 to g63 comes into use (R241). -/
def Thread.swapBank (th : Thread) : Thread :=
  { th with
    g := ⟨⟨(List.range 128).map fun i => if 32 ≤ i ∧ i < 64 then vget th.bank (i - 32) 0 else vget th.g i 0⟩, by simp⟩,
    bank := ⟨⟨(List.range 32).map fun i => vget th.g (i + 32) 0⟩, by simp⟩ }

/-- Producing stops for a thread (R246, R250): its producer state is kept as a whole, with its resume PC, latches, region and wait
at a WSYNC, and its consumer bank comes into use. -/
def Thread.park (th : Thread) : Thread :=
  { th.swapBank with
    prod := { pc := th.pc, k := th.k, region := th.region, wsync := th.wsync, atHalf := th.atHalf },
    region := .none, wsync := none, atHalf := false }

/-- Producing resumes for a thread (R250). -/
def Thread.unpark (th : Thread) : Thread :=
  { th.swapBank with
    pc := th.prod.pc, k := th.prod.k, region := th.prod.region, wsync := th.prod.wsync, atHalf := th.prod.atHalf }

/-- A thread at the entry of a body, where it must execute an RGN (R242). -/
def Thread.enterAt (th : Thread) (pc : W64) : Thread := { th with pc := pc, region := .none }

/-- The scratch offset of the slot that lies `i` places from the oldest entry (R243). -/
def Sump.offset (x : Sump) (i : Nat) : Nat := x.base + (x.head + i) % x.cap * (4 * x.width)

/-- A thread receives the words of an entry in g32 and up (R243). -/
def Thread.receive (th : Thread) (scratch : Memory) (off : Nat) (width : Nat) : Thread :=
  { th with g := (List.range width).foldl (fun (g : Vector W32 128) (j : Nat) =>
      vset g (32 + j) (BitVec.ofNat 32 (scratch.getN (off + 4 * j) 4))) th.g }

/-- A round begins with `n` entries popped (R243, R247): thread i receives the i-th and stands at CE. -/
def Warp.startRound (w : Warp) (scratch : Memory) (mode : SumpMode) (n : Nat) : Warp :=
  let x := w.sump
  let ts := allTids.filter fun t => decide (t.val < n)
  let w := ts.foldl (fun (w : Warp) (t : Tid) =>
    w.modThread t fun th => (th.receive scratch (x.offset t.val) x.width).enterAt x.ce) w
  { w with sump := { x with mode := mode, head := (x.head + n) % x.cap, count := x.count - n, rmask := maskOf ts,
                            cmask := 0 } }

/-- The loop ends at XE (R247); `swapped`: the consumer bank is in use. HEAD stays for the frame of the switch (R252). -/
def Warp.enterExit (w : Warp) (swapped : Bool) : Warp :=
  let xe := w.sump.xe
  { w.modThreads allTids (fun th =>
      { (if swapped then th.swapBank else th).enterAt xe with bank := vfill 32 0 }) with sump := { Sump.none with head := w.sump.head } }

/-- Producing ends, for a round, for the draining round, or for good (R247). -/
def Warp.endProducing (w : Warp) (scratch : Memory) : Warp :=
  if w.sump.count = 0 then w.enterExit false
  else
    let w := w.modThreads allTids .park
    if 16 ≤ w.sump.count then w.startRound scratch .consuming 16 else w.startRound scratch .draining w.sump.count

/-- A round ends (R247). -/
def Warp.endRound (w : Warp) (scratch : Memory) : Warp :=
  let x := w.sump
  if x.mode = .draining then w.enterExit true
  else if 16 ≤ x.count then w.startRound scratch .consuming 16
  else if x.done ≠ 0xFFFF then
    let w := w.modThreads (tidsOf x.done) fun th => { th.swapBank with region := .none, wsync := none }
    let w := w.modThreads (tidsOf (~~~x.done)) .unpark
    { w with sump := { x with mode := .producing, cmask := 0, rmask := 0 } }
  else if 1 ≤ x.count then w.startRound scratch .draining x.count
  else w.enterExit true

/-- The bytes of a task's scratchpad. -/
def State.scratchOf (s : State) (task : Nat) : Memory := match s.task? task with
  | some t => t.scratch
  | none => []

/-- Producers that resume from consuming have the latches that were kept: the switch that resumes them, from `before` to `after`,
does not touch them (R250). -/
def Warp.keepLatches (w before after : Warp) : Warp :=
  if before.sump.mode = .consuming ∧ after.sump.mode = .producing then
    w.modThreads (tidsOf (~~~after.sump.done)) fun th => { th with k := th.prod.k }
  else w

/-- A mode switch (R250): it is an acquire, writes a trace frame, and is a switch point; its cycles are charged as SUMP_SWITCH. -/
def State.switchMode (s : State) (c : Ctx) (f : Warp → Memory → Warp) : State :=
  let m := s.scratchOf c.task
  match s.warp? c.task c.warp with
  | none => s
  | some before =>
    let w : Warp := { f before m with stall := some .sumpSwitch }
    let s := (s.modWarp c.task c.warp fun _ => w).acquire c.core
    ((s.traceFrame c.task c.warp 4 ([BitVec.ofNat 8 w.sump.mode.code] ++ toBytes 2 w.sump.count ++ toBytes 2 w.sump.head
      ++ List.replicate 3 0 ++ toBytes 8 c.pc.toNat)).switchPoint c.task c.warp).modWarp c.task c.warp fun x => x.keepLatches before w

/-- A mode switch of the issuing warp. -/
def Op.sumpSwitch (c : Ctx) (f : Warp → Memory → Warp) : Op Unit := Op.modify fun s => s.switchMode c f

/-! ## The instructions (R248, R249) -/

/-- The encoding of a sump instruction. -/
def sumpEnc (umode : UMode) (a : Use) (immOk : Bool) (k : EWord) : Enc :=
  { prof := 2, umode := umode, a := a, reserved := ePlain k immOk }

/-- SUMP_STATE (R252, R254). -/
def Op.sumpState (c : Ctx) (w : Warp) : Op Unit := Op.trap .sumpState (maskOf c.active) 0 w.sump.mode.code

/-- The threads of the active set pass on to next(PC). -/
def Op.passOn (c : Ctx) : Op Unit := Op.modWarp c fun w => w.modThreads c.active fun th => { th with pc := nextPc c.pc }

/-- The descriptor of SLOOP in its four words, none when it breaks R242. -/
def sumpDescriptor (spad regs : Nat) (pe ce xe d : W64) : Option Sump :=
  let v := d.toNat
  let base := bitsOf v 31 0
  let cap := bitsOf v 41 32
  let high := bitsOf v 51 42
  let width := bitsOf v 53 52 + 1
  if bitsOf v 63 54 = 0 ∧ base % 16 = 0 ∧ cap % 16 = 0 ∧ 16 ≤ cap ∧ cap ≤ 512 ∧ high % 16 = 0 ∧ 16 ≤ high
      ∧ high + 16 ≤ cap ∧ base + cap * (4 * width) ≤ spad * 8192 ∧ regs = 128 then
    some { mode := .producing, head := 0, count := 0, done := 0, cmask := 0, rmask := 0, pe := pe, ce := ce, xe := xe,
           base := base, cap := cap, high := high, width := width }
  else none

/-- The fields of SLOOP. -/
def encOfSloop (k : EWord) : Enc :=
  { sumpEnc .one (.sSrc .w64) (k.imm == 0) k with illegal := decide (k.h.a.toNat < 0x80) || k.h.a.toNat % 4 != 0 }

/-- SLOOP (R249). The order of its faults is that of R242 and R249, where the three entries are checked last (log 93). -/
def execSloop (w : EWord) (s : State) : Out :=
  issueE encOfSloop w .transfer (fun c k => do
    let w ← Op.warp c
    let t ← Op.task c
    if c.mslot.isSome then Op.sumpState c w
    match c.units with
    | [] => Op.passOn c
    | u :: _ =>
      if w.sump.mode ≠ .inactive ∨ c.active.length ≠ 16 then Op.sumpState c w
      let r (i : Nat) : W64 := vget w.s (k.h.a.toNat - 0x80 + i) 0
      match sumpDescriptor t.spad c.regs (r 0) (r 1) (r 2) (r 3) with
      | none => Op.trap .sumpConfig (maskOf c.active) 0 k.h.a.toNat
      | some d =>
        let lines ← Op.checkHops c .byte ([r 0, r 1, r 2].map fun pc => { tid := u, target := pc, taken := true })
        let bad := hopsBad c w w (lines.take 1)
        if !bad.isEmpty then Op.trap .regionLength (maskOf bad)
        Op.release c (maskOf c.active)
        Op.sumpSwitch c fun w _ =>
          { w.modThreads allTids (fun th => { th.enterAt d.pe with bank := vfill 32 0 }) with sump := d }) s

/-- One entry appended (R243). -/
def appendEntry (a : Nat) (acc : Sump × Memory) (th : Thread) : Sump × Memory :=
  let x := acc.1
  let off := x.offset x.count
  ({ x with count := x.count + 1 },
    (List.range x.width).foldl (fun (m : Memory) (j : Nat) => m.setN (off + 4 * j) 4 (vget th.g (a + j) 0).toNat) acc.2)

/-- The effect of YIELD before a mode switch (R243, R249): the participants' entries are appended in increasing tid, each begins a
region at next(PC), and the active set goes on there. -/
def State.yielded (s : State) (c : Ctx) (a : Nat) (w : Warp) (live : LiveRecord) : State :=
  let r := c.parts.foldl (fun (acc : Sump × Memory) t => appendEntry a acc (w.thread t)) (w.sump, s.scratchOf c.task)
  (s.modTask c.task fun t => { t with scratch := r.2 }).modWarp c.task c.warp fun w =>
    ({ w.modThreads c.parts (fun th => th.beginRegion (nextPc c.pc) live) with sump := r.1 } : Warp).modThreads c.active fun th =>
      { th with pc := nextPc c.pc }

/-- The fields of YIELD. -/
def encOfYield (k : EWord) : Enc := sumpEnc .zero (.gSrc .w32) true k

/-- YIELD (R249). -/
def execYield (w : EWord) (s : State) : Out :=
  issueE encOfYield w .body (fun c k => do
    let w ← Op.warp c
    if c.mslot.isSome then Op.sumpState c w
    if c.parts.isEmpty then Op.passOn c
    else
      let x := w.sump
      let a := k.h.a.toNat
      if x.mode ≠ .producing then Op.sumpState c w
      if 127 < a + x.width - 1 then Op.trap .sumpConfig (maskOf c.active) 0 a
      if x.cap < x.count + c.parts.length then Op.trap .sumpOverflow (maskOf c.parts) 0 x.count
      let live ← Op.liveRecord c k.imm
      let full := decide (x.high ≤ x.count + c.parts.length)
      if full then Op.release c (maskOf c.active)
      Op.modify fun s => s.yielded c a w live
      if full then Op.sumpSwitch c Warp.endProducing) s

/-- PDONE and CEND: the participants end their body, and the loop goes on when the last one has. -/
def endBody (modes : List SumpMode) (mark : Sump → BitVec 16 → Sump) (last : Sump → Bool) (f : Warp → Memory → Warp)
    (c : Ctx) : Op Unit := do
  let w ← Op.warp c
  if c.mslot.isSome ∨ modes.contains w.sump.mode = false then Op.sumpState c w
  if c.parts.isEmpty then Op.passOn c
  else
    let x := mark w.sump (maskOf c.parts)
    if last x then Op.release c (maskOf c.active)
    Op.modWarp c fun w => { w.modThreads c.parts (fun th => { th with region := .none }) with sump := x }
    Op.passOn c
    if last x then Op.sumpSwitch c f else Op.modify fun s => s.wsyncParked c.task c.warp

/-- The fields of PDONE. -/
def encOfPdone (k : EWord) : Enc := sumpEnc .zero .none (k.imm == 0) k

/-- PDONE (R249). -/
def execPdone (w : EWord) (s : State) : Out :=
  issueE encOfPdone w .body (fun c _ =>
    endBody [.producing] (fun x m => { x with done := x.done ||| m }) (fun x => x.done == 0xFFFF) Warp.endProducing c) s

/-- The fields of CEND. -/
def encOfCend (k : EWord) : Enc := sumpEnc .zero .none (k.imm == 0) k

/-- CEND (R249). -/
def execCend (w : EWord) (s : State) : Out :=
  issueE encOfCend w .body (fun c _ =>
    endBody [.consuming, .draining] (fun x m => { x with cmask := x.cmask ||| m }) (fun x => x.cmask == x.rmask)
      Warp.endRound c) s

end Sys2Proof.Machine
end

