-- ==== Sys2Proof/Machine/Sync.lean ====
section
/-!
DEFINITION. The instructions of stalagmites, rings, barriers and groups (R128 to R135, R171, R172, R179 to R182).
-/

namespace Sys2Proof.Machine

open Sys2Proof

/-! ## Encodings and addresses -/

/-- The address operand of R128: A, with IMM32 as a signed offset unless SUB = 1. -/
def sgAddr (c : Ctx) (w : Warp) (k : EWord) (t : Tid) : Nat :=
  (read64 c w t k.h.a + (if k.sub = 1 then 0 else k.imm.signExtend 64)).toNat

/-- The amount operand of R128. -/
def sgAmount (c : Ctx) (w : Warp) (k : EWord) (t : Tid) : Nat :=
  if k.sub = 1 then k.imm.toNat else (read32 c w t k.h.b).toNat

/-- The encoding of an add (R128, R135). DEDUCED (log 148): A may be IMM32. -/
def addEnc (k : EWord) : Enc :=
  { prof := 1, a := .src .w64 true, b := if k.sub = 1 then .none else .src .w32 false, d := .dst .w64, result := true,
    reserved := eBad k (noPi k) (decide (k.sub.toNat ≤ 1)) (k.sel == 0) true }

/-- The encoding of an instruction with an address operand and SUB = 0 (R128, R135, R171). DEDUCED (log 148): A may be IMM32, and so may
a timeout. -/
def sgEnc (d b x : Use) (result piOk selOk : Bool) (k : EWord) : Enc :=
  { prof := 1, a := .src .w64 true, b := b, c := x, d := d, result := result,
    reserved := eBad k piOk (k.sub == 0) selOk true }

/-! ## Adds (R129, R135) -/

/-- The stalagmite of an add: the contributions that it closes leave first, and an add to the ROUND of a window of this device travels
behind them over the fabric (R372). DESIGN CHOICE (log 120). -/
def Op.closing (a : Aimed) : Op Aimed := fun s =>
  match a.target.place with
  | .phys pa =>
    if (s.roundSlots pa).isEmpty then .ok (a, s)
    else .ok ({ a with target := { a.target with place := .remote windowPeer pa } }, s.closeRounds pa)
  | .remote p o => .ok (a, s.closeRounds (peerPa p o))
  | _ => .ok (a, s)

/-- One add of a unit as a release (R129), with the old value as the result. -/
def Op.addAt (c : Ctx) (k : EWord) (t : Tid) (a : Aimed) : Op Unit := do
  let w ← Op.warp c
  Op.release c (c.maskAt t)
  let a ← Op.closing a
  let old ← Op.homeAt c a (c.key t 0) 8 (fun p => .sgAdd p (sgAmount c w k t)) id false
  if old = refused then Op.failAt c t .sgOverflow a.ea
  Op.noteTouch c a true 8
  Op.commit c [t]
  Op.modWarp c fun w => putResult c k.h .w64 w t (BitVec.ofNat 64 old)

/-- The check of a unit's stalagmite (R121). -/
def Op.aimSg (c : Ctx) (kind : Access) (t : Tid) (ea : Nat) : Op Aimed := Op.aimOne c 0 kind 8 8 t (ea % 2 ^ 64)

/-- SGADD (R129). -/
def execSgadd (w : EWord) (s : State) : Out :=
  issueE addEnc w .straight (fun c k =>
    Op.each c (fun t => do
      let w ← Op.warp c
      Op.aimSg c .sgAdd t (sgAddr c w k t)) (Op.addAt c k)) s

/-- RGPUB and RGREL: an add to a stalagmite of a ring (R135). -/
def ringAdd (f : RingDesc → Nat) (c : Ctx) (k : EWord) : Op Unit :=
  Op.each c (fun t => do
    let w ← Op.warp c
    let d ← Op.ringDesc c t (sgAddr c w k t)
    Op.aimSg c .sgAdd t (f d)) (Op.addAt c k)

/-- RGPUB (R135). -/
def execRgpub (w : EWord) (s : State) : Out := issueE addEnc w .straight (ringAdd (·.fill)) s

/-- RGREL (R135). -/
def execRgrel (w : EWord) (s : State) : Out := issueE addEnc w .straight (ringAdd (·.rel)) s

/-! ## Waits and reads (R130, R135) -/

/-- The fields of SGWAIT. -/
def encOfSgwait (k : EWord) : Enc := sgEnc .none (.src .w64 false) (.src .w32 true) false (noPi k) true k

/-- What the units of SGWAIT wait for. -/
def sgwaitFor (c : Ctx) (k : EWord) (w : Warp) (as : List (Tid × Aimed)) : List WaitFor :=
  as.map fun p =>
    { tid := p.1, va := p.2.ea, place := p.2.target.place, target := (read64 c w p.1 k.h.b).toNat,
      timeout := (read32 c w p.1 k.h.c).toNat }

/-- SGWAIT (R130). -/
def execSgwait (w : EWord) (s : State) : Out :=
  issueE encOfSgwait w .wait (fun c k => do
    let w ← Op.warp c
    let as ← Op.gather c fun t => Op.aimSg c .sgRead t (sgAddr c w k t)
    if as.isEmpty then return ()
    Op.waitAll c 0 3 (sgwaitFor c k w as)) s

/-- The values of some units' stalagmites read once at their homes. -/
def Op.readAll (c : Ctx) (as : List (Tid × Aimed)) : Op (List (Tid × Nat)) :=
  Op.together as fun t a => do
    let v ← Op.homeAt c a (c.key t 0) 8 (fun p => .load p 8) id true
    Op.noteTouch c a false 8
    return v

/-- The fields of SGTEST. -/
def encOfSgtest (k : EWord) : Enc := sgEnc .none (.src .w64 false) .none false (k.pi != 7) true k

/-- SGTEST (R130). -/
def execSgtest (w : EWord) (s : State) : Out :=
  issueE encOfSgtest w .straight (fun c k => do
    let w ← Op.warp c
    let as ← Op.gather c fun t => Op.aimSg c .sgRead t (sgAddr c w k t)
    let vs ← Op.readAll c as
    let yes (v : Tid × Nat) : Bool := decide ((read64 c w v.1 k.h.b).toNat ≤ v.2)
    if vs.any yes then Op.acquire c
    Op.modWarp c fun w => vs.foldl (fun w v => putPred c k.pi.toNat w v.1 (yes v)) w) s

/-- The fields of SGREAD. -/
def encOfSgread (k : EWord) : Enc := sgEnc (.dst .w64) .none .none true (noPi k) true k

/-- SGREAD (R130). -/
def execSgread (w : EWord) (s : State) : Out :=
  issueE encOfSgread w .straight (fun c k => do
    let w ← Op.warp c
    let as ← Op.gather c fun t => Op.aimSg c .sgRead t (sgAddr c w k t)
    if as.isEmpty then return ()
    let vs ← Op.readAll c as
    Op.acquire c
    Op.modWarp c fun w => vs.foldl (fun w v => putResult c k.h .w64 w v.1 (BitVec.ofNat 64 v.2)) w) s

/-- SGSET of the units in turn (R131). -/
def Op.setAll (c : Ctx) (k : EWord) (w : Warp) (as : List (Tid × Aimed)) : Op Unit := do
  let oks ← Op.over as fun t a => do
    let r ← Op.homeAt c a (c.key t 0) 8 (fun p => .sgSet p (read64 c w t k.h.b).toNat) id false
    Op.noteTouch c a true 8
    return r
  Op.modWarp c fun w => oks.foldl (fun w r => putPred c k.pi.toNat w r.1 (r.2 == 1)) w

/-- The fields of SGSET. -/
def encOfSgset (k : EWord) : Enc :=
  { sgEnc .none (.src .w64 false) .none false (k.pi != 7) (k.sel == 0) k with priv := true }

/-- SGSET (R131). -/
def execSgset (w : EWord) (s : State) : Out :=
  issueE encOfSgset w .straight
    (fun c k => do
      let w ← Op.warp c
      let as ← Op.gather c fun t => Op.aimSg c .sgAdd t (sgAddr c w k t)
      Op.setAll c k w as) s

/-- What the units of RGRESV and RGAWAIT wait for (R135). -/
def ringFor (target : RingDesc → Nat → Nat) (c : Ctx) (k : EWord) (w : Warp) (ds : List (Tid × RingDesc × Aimed)) : List WaitFor :=
  ds.map fun p =>
    { tid := p.1, va := p.2.2.ea, place := p.2.2.target.place, target := target p.2.1 (read64 c w p.1 k.h.b).toNat,
      timeout := (read32 c w p.1 k.h.c).toNat }

/-- The addresses of the units' slots written to D (R135). -/
def putSlots (c : Ctx) (k : EWord) (v : Warp) (ds : List (Tid × RingDesc × Aimed)) (w : Warp) : Warp :=
  ds.foldl (fun w d => putResult c k.h .w64 w d.1 (BitVec.ofNat 64 (d.2.1.slotOf (read64 c v d.1 k.h.b).toNat))) w

/-- RGRESV and RGAWAIT: the wait on a stalagmite of a ring for slot n, and the slot's address (R135). Each unit's descriptor and
stalagmite are checked before those of the next (R354). -/
def ringWait (f : RingDesc → Nat) (target : RingDesc → Nat → Nat) (c : Ctx) (k : EWord) : Op Unit := do
  let w ← Op.warp c
  let ds ← Op.gather c fun t => do
    let d ← Op.ringDesc c t (sgAddr c w k t)
    let a ← Op.aimSg c .sgRead t (f d)
    return (d, a)
  if ds.isEmpty then return ()
  Op.waitAll c 0 3 (ringFor target c k w ds)
  Op.modWarp c (putSlots c k w ds)

/-- The encoding of the ring waits. -/
def ringEnc (k : EWord) : Enc := sgEnc (.dst .w64) (.src .w64 false) (.src .w32 true) true (noPi k) true k

/-- RGRESV (R135): the condition REL + 2^LOGCAP ≥ n + 1 holds exactly. -/
def execRgresv (w : EWord) (s : State) : Out :=
  issueE ringEnc w .wait (ringWait (·.rel) fun d n => n + 1 - 2 ^ d.logcap) s

/-- RGAWAIT (R135). -/
def execRgawait (w : EWord) (s : State) : Out := issueE ringEnc w .wait (ringWait (·.fill) fun _ n => n + 1) s

/-! ## Barriers (R169 to R172) -/

/-- The check of a unit's barrier address (R169). -/
def Op.aimBarrier (c : Ctx) (kind : Access) (t : Tid) (ea : Nat) : Op Aimed := do
  let a ← Op.aimSg c kind t ea
  if ea % 32 ≠ 0 then Op.trap .misaligned (c.maskAt t) ea
  return a

/-- An operation of a unit on its barrier, a read or a write by the permission that it needs (R169): the answer, with BARRIER_STATE for an
object that breaks R169, and SG_OVERFLOW for a refused add (R122, R132). -/
def Op.barrierOp (c : Ctx) (t : Tid) (a : Aimed) (n : Nat) (write : Bool) (op : Nat → HomeOp) : Op Nat := do
  let v ← Op.homeAt c a (c.key t n) 8 op id false
  if v = stateFault then Op.failAt c t .barrierState a.ea
  if v = overrunFault then Op.failAt c t .barrierOverrun a.ea
  if v = overflowFault then Op.failAt c t .sgOverflow a.ea
  Op.noteTouch c a write 32
  return v

/-- A barrier instruction that runs thread by thread (R171). -/
def barrierRun (act : Ctx → EWord → Tid → Aimed → Op Unit) (c : Ctx) (k : EWord) : Op Unit :=
  Op.each c (fun t => do
    let w ← Op.warp c
    Op.aimBarrier c .sgAdd t (sgAddr c w k t)) (act c k)

/-- The fields of BJOIN. -/
def encOfBjoin (k : EWord) : Enc := sgEnc (.dst .w32) .none .none true (k.pi != 7) (k.sel == 0) k

/-- The results of a unit of BJOIN and BARRIVE: a refusal writes neither D nor the latch; `yes` is what PI receives (R172). -/
def putBarrier (c : Ctx) (k : EWord) (wd : Width) (t : Tid) (r : Nat) (yes : Bool) (w : Warp) : Warp :=
  putPred c k.pi.toNat (if r = refused then w else putResult c k.h wd w t (BitVec.ofNat 64 r)) t yes

/-- One unit of BJOIN. -/
def bjoinAct (c : Ctx) (k : EWord) (t : Tid) (a : Aimed) : Op Unit := do
  let r ← Op.barrierOp c t a 0 true .bjoin
  Op.commit c [t]
  Op.modWarp c (putBarrier c k .w32 t r (r != refused))

/-- BJOIN (R172): a failed join writes neither D nor the latch. -/
def execBjoin (w : EWord) (s : State) : Out := issueE encOfBjoin w .straight (barrierRun bjoinAct) s

/-- The fields of BLEAVE. -/
def encOfBleave (k : EWord) : Enc := sgEnc .none (.src .w32 false) .none false (noPi k) (k.sel == 0) k

/-- One unit of BLEAVE. -/
def bleaveAct (c : Ctx) (k : EWord) (t : Tid) (a : Aimed) : Op Unit := do
  let w ← Op.warp c
  let _ ← Op.barrierOp c t a 0 true fun p => .bleave p (read32 c w t k.h.b).toNat
  Op.commit c [t]

/-- BLEAVE (R172). -/
def execBleave (w : EWord) (s : State) : Out := issueE encOfBleave w .straight (barrierRun bleaveAct) s

/-- The fields of BARRIVE. -/
def encOfBarrive (k : EWord) : Enc := sgEnc (.dst .w64) .none .none true (k.pi != 7) (k.sel == 0) k

/-- One unit of BARRIVE. -/
def barriveAct (c : Ctx) (k : EWord) (t : Tid) (a : Aimed) : Op Unit := do
  Op.release c (c.maskAt t)
  let r ← Op.barrierOp c t a 0 true .barrive
  Op.commit c [t]
  Op.modWarp c (putBarrier c k .w64 t r (r == refused))

/-- BARRIVE (R172): a refused arrival writes neither D nor the latch. -/
def execBarrive (w : EWord) (s : State) : Out := issueE encOfBarrive w .straight (barrierRun barriveAct) s

/-- The place of a word some bytes on in the same object. -/
def Place.after (p : Place) (n : Nat) : Place :=
  match p with
  | .phys pa => .phys (pa + n)
  | .remote peer off => .remote peer (off + n)
  | .scratch o => .scratch (o + n)
  | .vault a => .vault (a + n)
  | .debug a => .debug (a + n)

/-- The object of a unit as its home holds it. DESIGN CHOICE (log 152): a poisoned object raises DATA_POISON here, in BWAIT and GBAR, and the
other barrier instructions take its bytes as they stand. -/
def Op.readBarrier (c : Ctx) (t : Tid) (a : Aimed) (n : Nat) : Op Barrier := do
  let v ← Op.homeAt c a (c.key t n) 32 (fun p => .load p 32) id true
  let b := Barrier.ofBits v
  if !b.ok then Op.trap .barrierState (c.maskAt t) a.ea
  return b

/-- The index that C of BWAIT names; none for an unregistered wait (R172). -/
def bwaitIndex (c : Ctx) (w : Warp) (k : EWord) (t : Tid) : Option Nat :=
  if k.h.c = 0xC8 then none else some (read32 c w t k.h.c).toNat

/-- The checks of BWAIT against the objects of its units (R169, R172). -/
def Op.bwaitChecks (c : Ctx) (k : EWord) (w : Warp) (as : List (Tid × Aimed)) : Op Unit := do
  let _ ← Op.over as fun t a => do
    let b ← Op.readBarrier c t a 0
    match bwaitIndex c w k t with
    | none => pure ()
    | some i =>
      if 31 < i ∨ b.reg.getLsbD i = false then Op.trap .barrierState (c.maskAt t) a.ea
      if b.phase + 1 < (read64 c w t k.h.b).toNat then Op.trap .barrierOverrun (c.maskAt t) a.ea

/-- The observations of BWAIT once every phase has come (R172). -/
def Op.observe (c : Ctx) (k : EWord) (w : Warp) (as : List (Tid × Aimed)) : Op Unit := do
  let _ ← Op.over as fun t a =>
    Op.barrierOp c t a 2 false fun p => .bwait p (read64 c w t k.h.b).toNat (bwaitIndex c w k t)

/-- The fields of BWAIT. -/
def encOfBwait (k : EWord) : Enc := sgEnc .none (.src .w64 false) (.src .w32 false) false (noPi k) true k

/-- What the units of BWAIT wait for: the phase of their object (R172). -/
def bwaitFor (c : Ctx) (k : EWord) (w : Warp) (as : List (Tid × Aimed)) : List WaitFor :=
  as.map fun p =>
    { tid := p.1, va := p.2.ea + 8, place := p.2.target.place.after 8, target := (read64 c w p.1 k.h.b).toNat, timeout := 0 }

/-- BWAIT (R172). DESIGN CHOICE (log 153): one that has been woken makes its checks again before it observes. -/
def execBwait (w : EWord) (s : State) : Out :=
  issueE encOfBwait w .wait (fun c k => do
    let w ← Op.warp c
    let as ← Op.gather c fun t => Op.aimBarrier c .sgRead t (sgAddr c w k t)
    if as.isEmpty then return ()
    Op.bwaitChecks c k w as
    Op.waitAll c 1 4 (bwaitFor c k w as)
    Op.observe c k w as) s

/-! ## Groups (R179 to R181) -/

/-- The answer of a GINFO query about a filled slot (R180). -/
def GroupSlot.query (g : GroupSlot) (n : Nat) : W64 :=
  match n with
  | 0 => BitVec.ofNat 64 g.num
  | 1 => BitVec.ofNat 64 g.nmem
  | 2 => BitVec.ofNat 64 g.rank
  | _ => g.bar

/-- The fields of GINFO. -/
def encOfGinfo (k : EWord) : Enc :=
  { prof := 2, d := .dst .w64, result := true,
    reserved := eBad k (noPi k) (decide (k.sub.toNat < 4)) (k.sel == 0) (decide (k.imm.toNat < 4)) }

/-- GINFO (R180). -/
def execGinfo (w : EWord) (s : State) : Out :=
  issueE encOfGinfo w .straight
    (fun c k => do
      let w ← Op.warp c
      if c.parts.isEmpty then return ()
      let v : W64 ← match vget w.groups k.imm.toNat none with
        | some g => pure (g.query k.sub.toNat)
        | none => if k.sub = 0 then pure (BitVec.allOnes 64) else Op.trap .groupSlot (maskOf c.parts)
      Op.modWarp c fun w => c.units.foldl (fun w t => putResult c k.h .w64 w t v) w) s

/-- The first half of GBAR (R181): the arrival as a release, the wait target, and the end of the region. -/
def Op.gbarArrive (c : Ctx) (k : EWord) (t : Tid) (a : Aimed) : Op Unit := do
  let live ← Op.liveRecord c k.imm
  Op.release c (c.maskAt t)
  let tgt ← Op.barrierOp c t a 1 true .barrive
  if tgt = refused then Op.failAt c t .barrierState a.ea
  let v : W64 := BitVec.ofNat 64 tgt
  Op.modify fun s => { s with answers := s.answers.filter fun (x : Answer) => x.who != c.asker }
  Op.modWarp c fun w =>
    let w := putUniform c k.h .w64 w v
    { w.modThreads c.active (fun th => { th.beginRegion c.pc live true with atHalf := true }) with gwt := v }

/-- The fields of GBAR. -/
def encOfGbar (k : EWord) : Enc :=
  { prof := 2, umode := .one, d := .sDst .w64, result := true,
    reserved := eBad k (noPi k) (decide (k.sub.toNat < 4)) true true }

/-- The warp stands at the wait half of its GBAR (R181): a thread of the active set has arrived there. The others can have come later,
when a pre-emption has sent them back to the entry of an older region (R78); they wait with it, and the arrival is not repeated.
DEDUCED (log 150). -/
def Warp.atHalf (w : Warp) (ts : List Tid) : Bool := ts.any fun t => (w.thread t).atHalf

/-- The threads of the active set have passed their GBAR. -/
def Warp.leaveHalf (w : Warp) (ts : List Tid) : Warp := w.modThreads ts fun th => { th with atHalf := false }

/-- GBAR (R181): the arrival, and then the wait for its phase, which alone is repeated. -/
def execGbar (w : EWord) (s : State) : Out :=
  issueE encOfGbar w .boundary
    (fun c k => do
      let w ← Op.warp c
      let first := !w.atHalf c.active
      match (if first then c.units else c.active.take 1) with
      | [] => return ()
      | t :: _ =>
        let g ← match vget w.groups k.sub.toNat none with
          | some g => pure g
          | none => Op.trap .groupSlot (maskOf c.active)
        let a ← Op.aimBarrier c .sgAdd t g.bar.toNat
        let b ← Op.readBarrier c t a 0
        if b.reg ≠ 0 ∨ b.expect ≠ g.nmem then Op.trap .barrierState (maskOf c.active) a.ea
        if first then Op.gbarArrive c k t a
        let w ← Op.warp c
        Op.waitAll c 2 4
          [{ tid := t, va := a.ea + 8, place := a.target.place.after 8, target := w.gwt.toNat, timeout := 0 }]
        Op.modWarp c fun w => w.leaveHalf c.active
        if first then Op.modify fun s => s.freeSwitch c.task c.warp) s

/-! ## WSYNC (R182) -/

/-- The threads that wait at a WSYNC. -/
def Warp.waiters (w : Warp) : List Tid := allTids.filter fun t => !(w.thread t).exited && (w.thread t).wsync.isSome

/-- The mask of a waiting thread. -/
def Warp.waitMask (w : Warp) (t : Tid) : W32 := match (w.thread t).wsync with
  | some (m, _) => m
  | none => 0

/-- The members a mask operand names. -/
def members (m : W32) : BitVec 16 := m.setWidth 16

/-- What becomes of one waiting thread all of whose members wait (R182): their release, or the mask of WSYNC_MASK. -/
def Warp.meet (w : Warp) (t : Tid) : Except (BitVec 16) Warp :=
  let m := w.waitMask t
  let ms := tidsOf (members m)
  if m.extractLsb' 16 16 = 0 ∧ m.getLsbD t.val = true ∧ ms.all (fun u => w.waitMask u == m) = true then
    .ok (w.modThreads ms fun th => { th with wsync := none, pc := nextPc th.pc })
  else
    let u := ms.foldl (fun k u => k ||| members (w.waitMask u)) (members m)
    .error (if u = 0 then maskOf [t] else u)

/-- The waiting threads taken in turn: those whose members all wait meet. `bad`: threads that a fault returns to their WSYNC, which
no release takes; `err`: the mask of the first WSYNC_MASK. -/
def Warp.meetAll (w : Warp) (bad : BitVec 16) (err : Option (BitVec 16)) : List Tid → Warp × Option (BitVec 16)
  | [] => (w, err)
  | t :: ts =>
    let m := members (w.waitMask t) ||| maskOf [t]
    if (w.thread t).wsync.isSome && (members (w.waitMask t) &&& ~~~(maskOf w.waiters)) == 0 && (m &&& bad) == 0 then
      match w.meet t with
      | .ok w => w.meetAll bad err ts
      | .error x => w.meetAll (bad ||| x) (some (err.getD x)) ts
    else w.meetAll bad err ts

/-- WSYNC_MASK of the threads of a mask, which return to their WSYNC (R182). -/
def State.wsyncDiffers (s : State) (task warp : Nat) (m : BitVec 16) : State :=
  match s.warp? task warp with
  | none => s
  | some w =>
    let ts := (tidsOf m).filter fun t => !(w.thread t).exited
    let s := s.modWarp task warp fun w => w.modThreads ts fun th => { th with wsync := none }
    s.takeFault task warp (w.lowestOf ts) { cause := .wsyncMask, mask := m }

/-- What the device does once threads have become waiting (R182): it acts on each waiting thread, releasing those that may pass, and a
warp takes one fault, WSYNC_EXITED before WSYNC_MASK (log 131). Threads of another fault stay waiting, and are looked at again when
the returned threads execute their WSYNC. -/
def State.wsyncSettle (s : State) (c : Ctx) : State :=
  match s.warp? c.task c.warp with
  | none => s
  | some w =>
    let r := w.meetAll (maskOf w.orphans) none w.waiters
    let s := s.modWarp c.task c.warp fun _ => r.1
    let s := if r.1 = w then s else s.acquire c.core
    match w.orphans.isEmpty, r.2 with
    | false, _ => s.wsyncExited c.task c.warp
    | true, some m => s.wsyncDiffers c.task c.warp m
    | true, none => s

/-- The fields of WSYNC. -/
def encOfWsync (k : EWord) : Enc :=
  { prof := 1, umode := .zero, a := .src .w32 true,
    reserved := eBad k (noPi k) (k.sub == 0) true (!immUnused k.h k.imm) }

/-- WSYNC (R182). -/
def execWsync (w : EWord) (s : State) : Out :=
  issueE encOfWsync w .sync
    (fun c k => do
      let w ← Op.warp c
      let pass (w : Warp) : Warp := w.modThreads (c.active.filter fun t => !c.parts.contains t) fun th =>
        { th with pc := nextPc th.pc }
      if c.parts.isEmpty then
        Op.modWarp c pass
      else
        Op.release c (maskOf c.parts)
        let parked := maskOf (allTids.filter w.parked)
        let bad := c.parts.foldl (fun m t =>
          let x := members (read32 c w t k.h.a)
          if x &&& parked = 0 then m else m ||| x) (0 : BitVec 16)
        if bad ≠ 0 then Op.trap .sumpState bad 0 w.sump.mode.code
        Op.modWarp c fun w =>
          c.parts.foldl (fun w t => w.modThread t fun th => { th with wsync := some (read32 c w t k.h.a, k.sel.toNat) })
            (pass w)
        Op.modify fun s => (s.wsyncSettle c).switchPoint c.task c.warp) s

end Sys2Proof.Machine
end

