-- ==== Sys2Proof/Machine/SystemEnc.lean ====
section
/-!
DEFINITION. The fields of the memory, ordering, queue, kernel, context, debug and link instructions (R142, R164, R214, R235,
R237, R347, R375, R388): what the checks of R31 need of them before their meanings stand.
-/

namespace Sys2Proof.Machine

open Sys2Proof

/-! ## Memory (R214 to R223) -/

/-- The register width of a memory SIZE code. -/
def sizeWidth (size : Nat) : Width := if size = 3 then .w64 else if size = 4 then .w128 else .w32

/-- SIZE codes 0 to 4. -/
def plainSize (k : MWord) : Bool := decide (k.size.toNat ≤ 4)

/-- A word of the M format whose index is B and which has no result. -/
def hintEnc (hintOk : Bool) (k : MWord) : Enc :=
  { prof := 1, a := .src .w64 false, b := .src .w32 false,
    reserved := k.z != 0 || k.space != 0 || !plainSize k || k.ord != 0 || !hintOk }

/-- The fields of LD. -/
def encOfLd (k : MWord) : Enc :=
  let wide := k.size == 4
  { prof := 1, d := .dst (sizeWidth k.size.toNat), a := .src .w64 false, b := .src .w32 false, result := !wide,
    reserved := k.z != 0 || !(plainSize k || k.size == 8 || k.size == 9) || !(k.ord == 0 || k.ord == 1)
      || decide ((if k.space = 0 then 3 else 0) < k.hint.toNat) || (wide && k.h.d == 0xC8) }

/-- The fields of ST. -/
def encOfSt (k : MWord) : Enc :=
  { prof := 1, a := .src .w64 false, b := .src .w32 false, c := .src (sizeWidth k.size.toNat) false,
    reserved := k.z != 0 || !plainSize k || !(k.ord == 0 || k.ord == 2)
      || decide ((if k.space = 0 then 3 else 0) < k.hint.toNat) }

/-- The fields of STBM. -/
def encOfStbm (k : MWord) : Enc :=
  let wd := sizeWidth k.size.toNat
  { prof := 2, a := .src .w64 false, b := .src wd false, c := .src wd false,
    reserved := k.z != 0 || !(k.size == 2 || k.size == 3) || !(k.ord == 0 || k.ord == 2) || k.hint != 0 }

/-- The fields of PREF. -/
def encOfPref (k : MWord) : Enc := hintEnc (decide (k.hint.toNat ≤ 1)) k
/-- The fields of CLEAN. -/
def encOfClean (k : MWord) : Enc := hintEnc (k.hint == 0) k
/-- The fields of INVAL. -/
def encOfInval (k : MWord) : Enc := hintEnc (k.hint == 0) k
/-- The fields of EVH. -/
def encOfEvh (k : MWord) : Enc := hintEnc true k

/-! ## Ordering (R235, R237) -/

/-- The fields of FENCE. -/
def encOfFence (k : EWord) : Enc :=
  { prof := 1, reserved := eBad k (noPi k) (decide (k.sub.toNat ≤ 2)) (k.sel == 0) (k.imm == 0) }

/-- The fields of XFENCE. -/
def encOfXfence (k : EWord) : Enc := { prof := 1, reserved := eBad k (noPi k) (k.sub == 0) true (k.imm == 0) }

/-- The operation of the op field (R237). -/
def opField (k : MWord) : Nat := k.h.c.toNat / 16

/-- The reserved values that AMO, AMOCAS and RED share (R237). -/
def atomicBad (k : MWord) : Bool := k.z != 0 || !(k.size == 2 || k.size == 3) || k.hint != 0

/-- The reserved values of an op field (R237). -/
def opBad (k : MWord) : Bool :=
  decide (9 < opField k) || k.h.c.extractLsb' 0 3 != 0 || (opField k == 9 && k.size != 2)

/-- The fields of AMO. -/
def encOfAmo (k : MWord) : Enc :=
  let wd := sizeWidth k.size.toNat
  { prof := 1, d := .dst wd, a := .src .w64 false, b := .src wd false, c := .lit, result := true,
    reserved := atomicBad k || opBad k || k.h.c.getLsbD 3 }

/-- The fields of AMOCAS. -/
def encOfAmocas (k : MWord) : Enc :=
  let wd := sizeWidth k.size.toNat
  { prof := 1, d := .dst wd, a := .src .w64 false, b := .src wd false, c := .src wd false, result := true,
    reserved := atomicBad k }

/-- The fields of RED. -/
def encOfRed (k : MWord) : Enc :=
  { prof := 2, a := .src .w64 false, b := .src (sizeWidth k.size.toNat) false, c := .lit,
    reserved := atomicBad k || opBad k || opField k == 8 || k.ord == 1 || k.ord == 3 }

/-! ## Queues and kernels (R142, R164) -/

/-- The fields of LAUNCH. -/
def encOfLaunch (k : EWord) : Enc :=
  { prof := 1, d := .dst .w64, a := .src .w64 false, b := .src .w64 false, c := .src .w32 false, result := true,
    reserved := eBad k (k.pi != 7) (k.sub == 0) (k.sel == 0) (decide (k.imm.toNat < 64)) }

/-- The fields of SPAWN. -/
def encOfSpawn (k : EWord) : Enc :=
  { prof := 1, d := .dst .w64, a := .src .w128 false, b := .src .w128 false, result := true,
    reserved := eBad k (k.pi != 7) (k.sub == 0) (k.sel == 0) (k.imm == 0) }

/-- The fields of TRIG. -/
def encOfTrig (k : EWord) : Enc := { prof := 1, reserved := ePlain k (k.imm == 0) }

/-- The fields of TASKQ. -/
def encOfTaskq (k : EWord) : Enc :=
  { prof := 1, d := .dst .w64, result := true,
    reserved := eBad k (noPi k) (decide (k.sub.toNat ≤ 3)) (k.sel == 0) (k.imm == 0) }

/-! ## Contexts (R347) -/

/-- A word with a 64-bit result and no source. -/
def readEnc (prof : Nat) (k : EWord) (subMax : Nat) (immOk : Bool) : Enc :=
  { prof := prof, d := .dst .w64, result := true,
    reserved := eBad k (noPi k) (decide (k.sub.toNat ≤ subMax)) (k.sel == 0) immOk }

/-- The fields of FEAT. -/
def encOfFeat (k : EWord) : Enc := readEnc 1 k 0 (k.imm == 0)
/-- The fields of IMPLQ. -/
def encOfImplq (k : EWord) : Enc := readEnc 1 k 0 (decide (k.imm.toNat < 256))
/-- The fields of CLK. -/
def encOfClk (k : EWord) : Enc := readEnc 1 k 1 (k.imm == 0)

/-- The registers of R341 by number. -/
def sysNumbers : List Nat :=
  [0x0001, 0x0002, 0x0003, 0x0004, 0x0005, 0x0006, 0x0007, 0x0010, 0x0011, 0x0012, 0x0018, 0x0019, 0x001A, 0x0020, 0x0021,
   0x0022, 0x0028, 0x0029, 0x0030, 0x0031, 0x0032, 0x0033, 0x0034, 0x0035, 0x0040]

/-- IMM32 of SRRD and SRWR (R341, R347). -/
def sysImmOk (k : EWord) : Bool :=
  k.imm.extractLsb' 24 8 == 0 && (k.h.b == 0xC8 || k.imm.extractLsb' 16 8 == 0)
    && sysNumbers.contains (k.imm.extractLsb' 0 16).toNat

/-- The fields of SRRD. -/
def encOfSrrd (k : EWord) : Enc :=
  { prof := 1, d := .dst .w64, b := .src .w32 false, result := true,
    reserved := eBad k (noPi k) (decide (k.sub.toNat ≤ 1)) (k.sel == 0) (sysImmOk k) }

/-- The fields of SRWR. -/
def encOfSrwr (k : EWord) : Enc :=
  { prof := 1, priv := true, a := .src .w64 false, b := .src .w32 false,
    reserved := eBad k (noPi k) (k.sub == 0) (k.sel == 0) (sysImmOk k) }

/-- The fields of RESUME and KILL. -/
def handleEnc (k : EWord) : Enc :=
  { prof := 1, priv := true, a := .src .w64 false,
    reserved := eBad k (k.pi != 7) (k.sub == 0) (k.sel == 0) (k.imm == 0) }

/-- The fields of RESUME. -/
def encOfResume : EWord → Enc := handleEnc
/-- The fields of KILL. -/
def encOfKill : EWord → Enc := handleEnc

/-! ## Debug and link (R375, R388) -/

/-- The fields of TRCMK. -/
def encOfTrcmk (k : EWord) : Enc := { prof := 2, a := .src .w64 false, reserved := ePlain k true }

/-- IMM32 of PERFRD (R388). -/
def perfImmOk (k : EWord) : Bool :=
  let i := k.imm.toNat
  match k.sub.toNat with
  | 0 => decide (i ≤ 4)
  | 1 => decide (i ≤ 15)
  | 2 => i == 0
  | _ => decide (i % 8 ≤ 4) && i / 8 % 32 == 0 && decide (i < 8192)

/-- The fields of PERFRD. -/
def encOfPerfrd (k : EWord) : Enc := readEnc 2 k 3 (perfImmOk k)

/-- The fields of LNKQ. -/
def encOfLnkq (k : EWord) : Enc := readEnc 2 k 2 (decide (k.imm.toNat ≤ 17))

end Sys2Proof.Machine
end

