-- ==== Sys2Proof/Machine/XformInstr.lean ====
section
/-!
DEFINITION. Transform commands (R307, R308, R334): XFORM, and the steps of the transform engine of a cluster.
-/

namespace Sys2Proof

/-- The fields of IMM32 of XFORM (R334). -/
def EWord.srcTd (k : EWord) : Nat := k.imm.toNat % 16
def EWord.dstTd (k : EWord) : Nat := k.imm.toNat / 16 % 16
def EWord.xfSlot (k : EWord) : Nat := k.imm.toNat / 256 % 16
def EWord.xfMode (k : EWord) : Nat := k.imm.toNat / 4096 % 4
def EWord.xfFine (k : EWord) : Bool := k.imm.getLsbD 14

end Sys2Proof

namespace Sys2Proof.Machine

open Sys2Proof

/-- The unused fields of IMM32 are zero (R334). -/
def xfImmOk (k : EWord) : Bool :=
  decide (k.imm.toNat < 2 ^ 15) && k.xfMode != 3 &&
    match k.sub.toNat with
    | 0 => k.xfMode == 0 && !k.xfFine
    | 1 => true
    | 2 => k.dstTd == 0 && k.xfSlot == 0 && k.xfMode == 0 && !k.xfFine
    | _ => k.srcTd == 0

/-- XFORM. -/
def xformEnc (k : EWord) : Enc :=
  { prof := 3, d := .dst .w32, a := .src .w64 false, b := if k.sub.toNat ≤ 1 then .none else .src .w128 false,
    c := .src .w128 false, reserved := eBad k true (decide (k.sub.toNat ≤ 3)) true (xfImmOk k) }

/-- The shapes of a transform command agree and its tiles lie in the grids (R334): source, destination, coordinate, count. -/
def xfShapes (form : Nat) (a b : TDesc) (tx n : Nat) : Bool :=
  let fits (d : TDesc) : Bool := decide (tx + n ≤ d.txn)
  match form with
  | 0 => a.fmt == b.fmt && a.tr == b.tr && a.tc == b.tc && a.bs32 == b.bs32 && fits a && fits b
  | 1 => a.tr == b.tr && a.tc == b.tc && fits a && fits b
  | 2 => fits a
  | _ => fits b

/-- The checks of a unit of XFORM and its command (R284, R334). -/
def Op.xfCommand (c : Ctx) (k : EWord) (t : Tid) : Op CmdKind := do
  let w ← Op.warp c
  let mask := c.maskAt t
  let form := k.sub.toNat
  let at_ := (read64 c w t k.h.a).toNat
  let tx := bitsOf at_ 31 0
  let ty := bitsOf at_ 63 32
  let n := (completionOf c w t k.h.c).len
  let b := read128 c w t k.h.b
  let task ← Op.task c
  let none_ := TDesc.ofBits 0
  let src ← if form = 3 then pure none_ else Op.descriptor c mask k.srcTd
  let dst ← if form = 2 then pure none_ else Op.descriptor c mask k.dstTd
  if form ≠ 2 ∧ dst.fmt = 6 ∧ k.xfMode ≠ 0 then Op.trap .reservedField mask
  if xfShapes form src dst tx n = false ∨ n = 0 ∨ 65536 < n
      ∨ (2 ≤ form ∧ (bitsOf b.2.toNat 33 32 = 3 ∨ bitsOf b.2.toNat 63 34 ≠ 0)) then Op.trap .xformInvalid mask
  if (form ≠ 3 ∧ src.tyn ≤ ty) ∨ (form ≠ 2 ∧ dst.tyn ≤ ty) then Op.trap .shapeRange mask
  let table := if form = 2 then none else task.table k.xfSlot
  if form ≠ 2 ∧ table = none then Op.trap .codeTableInvalid mask
  if form ≠ 3 ∧ src.recl = true ∧ w.depth = 0 then Op.trap .sectionRequired mask
  return .xform form tx ty b.1 (b.2.setWidth 32) (bitsOf b.2.toNat 33 32) n
    (if form = 3 then 0 else vget task.td k.srcTd 0) (if form = 2 then 0 else vget task.td k.dstTd 0) table k.xfSlot
    k.xfMode k.xfFine k.srcTd

/-- A unit's transform command joins its core's queue, with its sequence number and success as results. -/
def xformAct (c : Ctx) (k : EWord) (t : Tid) (x : CmdKind) : Op Unit := do
  let w ← Op.warp c
  let s ← Op.state
  let z := completionOf c w t k.h.c
  let full := decide (8 ≤ (s.engine c.core true).places)
  if !full then Op.modify fun s => s.accept c.core true (c.command s w x z.csg z.amt k.sel.toNat)
  Op.commit c [t]
  Op.modWarp c fun w =>
    let w := if full then w else putBare c k.h.d .w32 w t ((s.core c.core).seq.setWidth 64)
    putPred c k.pi.toNat w t (!full)

/-- XFORM (R334): placed thread by thread, as copy commands are, with no latch written (R327). -/
def execXform (w : EWord) (s : State) : Out :=
  issueE xformEnc w .straight (fun c k => Op.each c (Op.xfCommand c k) (xformAct c k)) s

/-! ## The transform engine at work -/

/-- The cores of a cluster (R15). -/
def coresOf (cluster : Nat) : List Nat := (List.range 4).map fun i => 4 * cluster + i

/-- The core that the engine of a cluster serves next (R307): the next in turn with a head that is not held on its guard. -/
def State.xfNext (s : State) (cluster : Nat) : Option Nat :=
  let last := vget s.xfTurn cluster 3
  [1, 2, 3, 4].findSome? fun i =>
    let core := 4 * cluster + (last + i) % 4
    let e := s.engine core true
    match e.queue with
    | [] => none
    | cmd :: _ =>
      if (e.st == 0 || e.st == 2) && s.mayRun cmd.ctx && s.guardOf cmd != .held then some core else none

/-- Heads whose guard is unresolved are held (R302). -/
def State.xfHold (s : State) (cluster : Nat) : State :=
  (coresOf cluster).foldl (fun (s : State) (core : Nat) =>
    match (s.engine core true).queue with
    | [] => s
    | cmd :: _ => if s.guardOf cmd = .held then s.startHead core true else s) s

/-- XFORM_COMMAND_START (R302, R307): the engine of a cluster runs one command at a time. -/
def execXformCommandStart (cluster : Nat) (s : State) : Out :=
  s.keeping <|
  let s := s.xfHold cluster
  if (coresOf cluster).any fun c => (s.engine c true).st == 1 then .next s
  else
    match s.xfNext cluster with
    | none => .next s
    | some core => .next ({ s with xfTurn := vset s.xfTurn cluster (core % 4) }.startHead core true)

/-- Draws of RSR in a transform command: the spec names no stochastic state for them, so each is a free value. -/
def Op.freeDraws (n : Nat) : Op (List Nat) := fun s =>
  .ok ((List.range n).map fun i => (Config.freeValue (s.freeCtr + i)).toNat % 65536, { s with freeCtr := s.freeCtr + n })

/-- The tables that a transform command decodes with: the one it copied in its slot, else the task's (R334). -/
def State.xfTable (s : State) (task slot : Nat) (ct : Option CodeTable) (n : Nat) : Option CodeTable :=
  if n = slot ∧ ct.isSome then ct else (s.task? task).bind fun t => t.table n

/-- Exact values quantised to a tile of a descriptor (R334). -/
def Op.xfQuantise (d : TDesc) (fine : Bool) (mode : Nat) (xs : List Val) : Op TileData := do
  let us ← if encoderMode mode = .rsr then Op.freeDraws xs.length else pure (List.replicate xs.length 0)
  return quantiseExact d fine (encoderMode mode) xs us

/-- The exact values of a tile in row-major order. -/
def TileData.values (d : TDesc) (t : TileData) : List Val := (List.range d.elems).map fun i => t.value d i

/-- Where row `r` of tile `i` begins on the raw side (R334). -/
def rawRowVa (raw : W64) (stride : W32) (i tc r : Nat) : Nat :=
  (raw + stride.signExtend 64 * BitVec.ofNat 64 r + BitVec.ofNat 64 (i * tc * 4)).toNat

/-- Rows read on the raw side, from row `r` on. -/
def Op.readRaw (m : Mover) (space : Nat) (raw : W64) (stride : W32) (i tc : Nat) : Nat → Nat → Op (List Nat)
  | 0, _ => pure []
  | n + 1, r => do
    let bs ← Op.readRange m .engineRead space 3 0 (rawRowVa raw stride i tc r) (4 * tc)
    let rest ← Op.readRaw m space raw stride i tc n (r + 1)
    return unpackCodes 32 tc bs ++ rest

/-- Rows written on the raw side, from row `r` on. -/
def Op.writeRaw (m : Mover) (space : Nat) (raw : W64) (stride : W32) (i tc : Nat) : Nat → List (List Nat) → Op Unit
  | _, [] => pure ()
  | r, xs :: rest => do
    Op.writeRange m space 3 0 (rawRowVa raw stride i tc r) (xs.flatMap fun v => toBytes 4 v)
    Op.writeRaw m space raw stride i tc (r + 1) rest

/-- A tile written by a transform command (R324): a full deferred-free queue holds it, and where memory is poisoned the new extent
is deferred. -/
def Op.xfStore (m : Mover) (d : TDesc) (slot : Nat) (ct : CodeTable) (va : Nat) (t : TileData) : Op Unit := do
  let bits ← Op.readEntry m 0 va
  let s ← Op.state
  if (oldExtent bits).isSome ∧ (s.pushBad m.acc.ctx).isNone = true ∧ (s.ctx m.acc.ctx).dfqRoom = false then Op.holdHere
  let p ← Op.place m 100 d slot ct t va bits
  let s ← Op.state
  match s.poisonedPiece (p.block ++ p.entry) with
  | none => Op.publish m.acc.ctx d.pool p
  | some va => do
    Op.put (s.tryDefer m.acc.ctx d.pool p.fresh)
    Op.moveFail .dataPoison va

/-- One tile of a transform command (R334). -/
def Op.xfTile (m : Mover) (cmd : EngineCmd) : Op Unit := do
  match cmd.kind with
  | .xform form tx ty raw stride space _ srcTd dstTd table slot mode fine srcSlot => do
    let i := cmd.progress
    let src := TDesc.ofBits srcTd.toNat
    let dst := TDesc.ofBits dstTd.toNat
    let s ← Op.state
    let here := dst.entryVa dst.bix (tx + i) ty
    let ct := table.getD { counts := [], order := [], tag := 0 }
    if form = 3 then
      let xs ← Op.readRaw m space raw stride i dst.tc dst.tr 0
      let t ← Op.xfQuantise dst fine mode (xs.map Fmt.fp32.value)
      Op.xfStore m dst slot ct here t
    else
      let t ← Op.decode m 8 src srcSlot (tx + i) ty (s.xfTable cmd.task slot table)
      if form = 0 then Op.xfStore m dst slot ct here t
      else if form = 1 then
        let t ← Op.xfQuantise dst fine mode (t.values src)
        Op.xfStore m dst slot ct here t
      else Op.writeRaw m space raw stride i src.tc 0 (Machine.pieces src.tc src.tr ((t.values src).map toFp32))
  | _ => return ()

/-- The tiles of a command. -/
def CmdKind.count : CmdKind → Nat
  | .xform _ _ _ _ _ _ n _ _ _ _ _ _ _ => n
  | _ => 0

/-- The work of a transform command: a tile, and after the last the completion add (R297, R307). -/
def Op.xfWork (core : Nat) (m : Mover) (cmd : EngineCmd) : Op Bool := do
  if cmd.progress < cmd.kind.count then
    Op.xfTile m cmd
    Op.modify fun s => s.modHead core true fun c => { c with progress := c.progress + 1 }
    return false
  Op.completionAdd m 0 cmd
  return true

/-- XFORM_COMMAND_COMPLETE (R307, R308, R334): the running command of a cluster writes its next tile, or completes. -/
def execXformCommandComplete (cluster : Nat) (s : State) : Out :=
  s.keeping <|
  match (coresOf cluster).find? fun c => (s.engine c true).st == 1 with
  | none => .next s
  | some core =>
    match (s.engine core true).queue with
    | cmd :: _ => if s.mayRun cmd.ctx then .next (s.runHead core true (Op.xfWork core)) else .next s
    | [] => .next s

/-- XFORM_ENGINE_RETRY (R300, R308). -/
def execXformEngineRetry (core : Nat) (s : State) : Out :=
  s.keeping <| .next (s.engineCommand core true 1)

/-- XFORM_ENGINE_DROP (R300, R308). -/
def execXformEngineDrop (core : Nat) (s : State) : Out :=
  s.keeping <| .next (s.engineCommand core true 2)

/-! ## A killed command (R301, R308) -/

/-- The bytes that the head of an engine is about to write, without its adds: of a copy all, of a ring copy its slot once there is room,
of a transform to raw values the tile in hand. -/
def Op.payload (m : Mover) (cmd : EngineCmd) : Op Unit := do
  if cmd.moved then return ()
  match cmd.kind with
  | .cpy src dst len ss ds false => Op.copyRows m ss ds 0 0 len 1 10 src dst
  | .cpy src dst len ss _ true => do
    let d ← Op.copyRing m dst len
    let n ← match cmd.kept with
      | some n => pure n
      | none => Op.sgValue m 3 d.fill
    let rel ← Op.sgValue m 5 d.rel
    if rel + 2 ^ d.logcap < n + 1 then return ()
    Op.copyRows m ss 0 0 0 len 1 10 src (BitVec.ofNat 64 (d.slotOf n))
  | .cpy2 src dst sstr dstr rows len ss ds => Op.copyRows m ss ds sstr dstr len rows 10 src dst
  | .cpyt .. => return ()
  | .xform form .. => if form = 2 ∧ cmd.progress < cmd.kind.count then Op.xfTile m cmd else return ()

/-- Where two memories differ, each byte is the new one or what it was before, by a free value. -/
def mixed (was : Nat → Byte) (n : Nat) (old new : Memory) : Memory :=
  (old ++ new).zipIdx.foldl (fun (m : Memory) (x : Host.Cell × Nat) =>
    let a := x.1.1
    if old.get a = new.get a ∨ (Config.freeValue (n + x.2)).getLsbD 0 = true then m else m.set a (was a)) new

/-- A running command is given up (R301): "each destination byte holds either its prior value or its source byte". -/
def State.abandon (s : State) (core : Nat) (x : Bool) : State :=
  let e := s.engine core x
  match e.queue with
  | [] => s
  | cmd :: _ =>
    let half (t : State) : State :=
      let old : Memory := ((s.task? cmd.task).map (·.scratch)).getD []
      let new : Memory := ((t.task? cmd.task).map (·.scratch)).getD []
      let n := t.freeCtr + s.mem.length + t.mem.length
      let m := n + s.vault.length + t.vault.length
      { t.modTask cmd.task (fun y => { y with scratch := mixed old.get m old new }) with
        mem := mixed s.homeByte t.freeCtr s.mem t.mem, vault := mixed s.vault.get n s.vault t.vault,
        freeCtr := m + old.length + new.length }
    if e.st ≠ 1 then s
    else
      match Op.payload (cmd.mover core x) cmd s with
      | .ok (_, t) => half t
      | .error (.trapAt t _) => half t
      | .error _ => s

end Sys2Proof.Machine
end

