-- ==== Sys2Proof/Machine/MacroCheck.lean ====
section
/-!
DEFINITION. The loader of macros (R82): the length of a body, and the bodies that it marks invalid. What the checks of R31 need
of an instruction word is gathered here from the definitions of the instructions.
-/

namespace Sys2Proof.Machine

open Sys2Proof

/-- The head of an instruction word with what the checks of R31 make of its fields; none for an opcode that R40 does not give
and for steps of other agents. -/
def fieldsOf (i : Instr) : Option (Head × Enc) :=
  match i with
  | .nop w => some (w.h, encOfNop w)
  | .rgn w => some (w.h, encOfRgn w)
  | .exit w => some (w.h, encOfExit w)
  | .bra w => some (w.h, jumpEnc w)
  | .brx w => some (w.h, encOfBrx w)
  | .call w => some (w.h, encOfCall w)
  | .callx w => some (w.h, encOfCallx w)
  | .ret w => some (w.h, encOfRet w)
  | .loop w => some (w.h, encOfLoop w)
  | .mcall w => some (w.h, encOfMcall w)
  | .ipf w => some (w.h, jumpEnc w)
  | .ifence w => some (w.h, encOfIfence w)
  | .trap w => some (w.h, encOfTrap w)
  | .bkpt w => some (w.h, encOfBkpt w)
  | .iadd w => some (w.h, encOfIadd w)
  | .isub w => some (w.h, encOfIsub w)
  | .imul w => some (w.h, encOfImul w)
  | .imulh w => some (w.h, encOfImulh w)
  | .imad w => some (w.h, encOfImad w)
  | .iabs w => some (w.h, encOfIabs w)
  | .ineg w => some (w.h, encOfIneg w)
  | .imin w => some (w.h, encOfImin w)
  | .imax w => some (w.h, encOfImax w)
  | .icmp w => some (w.h, encOfIcmp w)
  | .sel w => some (w.h, encOfSel w)
  | .mov w => some (w.h, encOfMov w)
  | .movi w => some (w.h, encOfMovi w)
  | .lea w => some (w.h, encOfLea w)
  | .addc w => some (w.h, encOfAddc w)
  | .and w => some (w.h, encOfAnd w)
  | .or w => some (w.h, encOfOr w)
  | .xor w => some (w.h, encOfXor w)
  | .andn w => some (w.h, encOfAndn w)
  | .shl w => some (w.h, encOfShl w)
  | .shr w => some (w.h, encOfShr w)
  | .sar w => some (w.h, encOfSar w)
  | .rot w => some (w.h, encOfRot w)
  | .bfx w => some (w.h, encOfBfx w)
  | .bfi w => some (w.h, encOfBfi w)
  | .popc w => some (w.h, countEnc w)
  | .clz w => some (w.h, countEnc w)
  | .ctz w => some (w.h, countEnc w)
  | .brev w => some (w.h, encOfBrev w)
  | .perm w => some (w.h, encOfPerm w)
  | .fadd w => some (w.h, encOfFadd w)
  | .fsub w => some (w.h, encOfFsub w)
  | .fmul w => some (w.h, encOfFmul w)
  | .ffma w => some (w.h, encOfFfma w)
  | .fmin w => some (w.h, encOfFmin w)
  | .fmax w => some (w.h, encOfFmax w)
  | .fcmp w => some (w.h, encOfFcmp w)
  | .frcp w => some (w.h, encOfFrcp w)
  | .frsq w => some (w.h, encOfFrsq w)
  | .fsqrt w => some (w.h, encOfFsqrt w)
  | .fexp2 w => some (w.h, encOfFexp2 w)
  | .flog2 w => some (w.h, encOfFlog2 w)
  | .fsin w => some (w.h, encOfFsin w)
  | .fcos w => some (w.h, encOfFcos w)
  | .fclass w => some (w.h, encOfFclass w)
  | .frnd w => some (w.h, encOfFrnd w)
  | .cvt w => some (w.h, encOfCvt w)
  | .pack w => some (w.h, encOfPack w)
  | .unpk w => some (w.h, encOfUnpk w)
  | .qnt w => some (w.h, encOfQnt w)
  | .dqnt w => some (w.h, encOfDqnt w)
  | .seed w => some (w.h, encOfSeed w)
  | .shfl w => some (w.h, encOfShfl w)
  | .vote w => some (w.h, encOfVote w)
  | .wred w => some (w.h, encOfWred w)
  | .wscan w => some (w.h, encOfWscan w)
  | .plop w => some (w.h, encOfPlop w)
  | .pmov w => some (w.h, encOfPmov w)
  | .ld w => some (w.h, encOfLd w)
  | .st w => some (w.h, encOfSt w)
  | .stbm w => some (w.h, encOfStbm w)
  | .pref w => some (w.h, encOfPref w)
  | .clean w => some (w.h, encOfClean w)
  | .inval w => some (w.h, encOfInval w)
  | .evh w => some (w.h, encOfEvh w)
  | .fence w => some (w.h, encOfFence w)
  | .xfence w => some (w.h, encOfXfence w)
  | .amo w => some (w.h, encOfAmo w)
  | .amocas w => some (w.h, encOfAmocas w)
  | .red w => some (w.h, encOfRed w)
  | .sgadd w => some (w.h, addEnc w)
  | .sgwait w => some (w.h, encOfSgwait w)
  | .sgtest w => some (w.h, encOfSgtest w)
  | .sgread w => some (w.h, encOfSgread w)
  | .sgset w => some (w.h, encOfSgset w)
  | .rgresv w => some (w.h, ringEnc w)
  | .rgpub w => some (w.h, addEnc w)
  | .rgawait w => some (w.h, ringEnc w)
  | .rgrel w => some (w.h, addEnc w)
  | .bjoin w => some (w.h, encOfBjoin w)
  | .bleave w => some (w.h, encOfBleave w)
  | .barrive w => some (w.h, encOfBarrive w)
  | .bwait w => some (w.h, encOfBwait w)
  | .ginfo w => some (w.h, encOfGinfo w)
  | .gbar w => some (w.h, encOfGbar w)
  | .wsync w => some (w.h, encOfWsync w)
  | .sloop w => some (w.h, encOfSloop w)
  | .yield w => some (w.h, encOfYield w)
  | .pdone w => some (w.h, encOfPdone w)
  | .cend w => some (w.h, encOfCend w)
  | .rsb w => some (w.h, sectionEnc w)
  | .rse w => some (w.h, sectionEnc w)
  | .gpnum w => some (w.h, encOfGpnum w)
  | .gpwait w => some (w.h, encOfGpwait w)
  | .dfree w => some (w.h, encOfDfree w)
  | .wload w => some (w.h, wloadEnc w)
  | .wfree w => some (w.h, encOfWfree w)
  | .mmaRegisters w => some (w.h, mmaRegEnc w)
  | .mmaTile w => some (w.h, mmaTileEnc w)
  | .mmaShapeRecord w => some (w.h, mmaShapeEnc w)
  | .accrd w => some (w.h, accrdEnc w)
  | .accwr w => some (w.h, accwrEnc w)
  | .accz w => some (w.h, encOfAccz w)
  | .drain w => some (w.h, drainEnc w)
  | .tdld w => some (w.h, encOfTdld w)
  | .tld w => some (w.h, tldEnc w)
  | .tst w => some (w.h, tstEnc w)
  | .ctld w => some (w.h, encOfCtld w)
  | .ctinv w => some (w.h, encOfCtinv w)
  | .bixrd w => some (w.h, encOfBixrd w)
  | .xform w => some (w.h, xformEnc w)
  | .poolq w => some (w.h, encOfPoolq w)
  | .cpy w => some (w.h, encOfCpy w)
  | .cpy2 w => some (w.h, encOfCpy2 w)
  | .cpyt w => some (w.h, encOfCpyt w)
  | .stadv w => some (w.h, encOfStadv w)
  | .gset w => some (w.h, encOfGset w)
  | .gclr w => some (w.h, encOfGclr w)
  | .launch w => some (w.h, encOfLaunch w)
  | .spawn w => some (w.h, encOfSpawn w)
  | .trig w => some (w.h, encOfTrig w)
  | .taskq w => some (w.h, encOfTaskq w)
  | .feat w => some (w.h, encOfFeat w)
  | .implq w => some (w.h, encOfImplq w)
  | .srrd w => some (w.h, encOfSrrd w)
  | .srwr w => some (w.h, encOfSrwr w)
  | .clk w => some (w.h, encOfClk w)
  | .resume w => some (w.h, encOfResume w)
  | .kill w => some (w.h, encOfKill w)
  | .trcmk w => some (w.h, encOfTrcmk w)
  | .perfrd w => some (w.h, encOfPerfrd w)
  | .lnkq w => some (w.h, encOfLnkq w)
  | .registerWrite _ _ => none
  | .queueEnable _ => none
  | .queueDisable _ => none
  | .queueSuspend _ => none
  | .queueResume _ => none
  | .queueSkip _ => none
  | .queueRetry _ => none
  | .queueDrain _ => none
  | .copyEngineRetry _ => none
  | .copyEngineDrop _ => none
  | .xformEngineRetry _ => none
  | .xformEngineDrop _ => none
  | .tlbinvWrite _ _ => none
  | .fringWrite _ _ => none
  | .dresResume _ => none
  | .dresKill _ => none
  | .traceEnable _ _ => none
  | .bootgo _ => none
  | .mccfgEnable _ => none
  | .mcfill _ => none
  | .create _ => none
  | .assign _ => none
  | .negotiate _ => none
  | .start _ => none
  | .preempt _ => none
  | .save _ => none
  | .restore _ => none
  | .migrateOut _ => none
  | .migrateIn _ => none
  | .teardown _ => none
  | .srwrite _ => none
  | .srread _ => none
  | .warpresume _ => none
  | .warpkill _ => none
  | .portenable _ => none
  | .portdisable _ => none
  | .route _ => none
  | .exportRange _ => none
  | .window _ => none
  | .debugset _ => none
  | .tlbinv _ => none
  | .checkpoint _ => none
  | .getVersion _ => none
  | .getCapabilities _ => none
  | .negotiateAlgorithms _ _ _ => none
  | .getDigests _ => none
  | .getCertificate _ _ _ => none
  | .challenge _ _ => none
  | .getMeasurements _ _ => none
  | .powerControlTick _ _ => none
  | .thermalEmergency _ => none
  | .icacheFill _ _ => none
  | .stallSwitch _ => none
  | .warpQuantum _ => none
  | .stalagmiteAddApply _ _ => none
  | .wakeDelivery _ => none
  | .waitRepresent _ => none
  | .sgWaitTimeout _ => none
  | .queueHeadRead _ => none
  | .queueHeadSubmit _ => none
  | .queuePriorityAge _ => none
  | .kernelStart _ => none
  | .kernelExpansion _ => none
  | .corePlacement _ => none
  | .taskTimeout _ => none
  | .taskEnd _ => none
  | .kernelComplete _ => none
  | .gracePeriodStart _ => none
  | .gracePeriodEnd _ => none
  | .deferredFreeDeliver _ => none
  | .planeLoadComplete _ => none
  | .mmaPortEntry _ => none
  | .matrixPass _ => none
  | .passRetire _ => none
  | .drainPublish _ => none
  | .matrixReset _ => none
  | .copyCommandStart _ => none
  | .copyCommandComplete _ => none
  | .ringCopyWrite _ => none
  | .xformCommandStart _ => none
  | .xformCommandComplete _ => none
  | .ownershipRecall _ _ => none
  | .faultRecordPush _ => none
  | .portTrained _ _ _ _ => none
  | .portTrainingTimeout _ => none
  | .portRetrain _ => none
  | .flitReceive _ _ _ => none
  | .controlFlit _ _ _ _ => none
  | .remoteRequest _ => none
  | .remoteResponse _ => none
  | .reductionResult _ _ _ _ => none
  | .contextStateError _ => none
  | .preemptComplete _ => none
  | .saveComplete _ => none
  | .migrationAnswer _ _ => none
  | .teardownRelease _ => none
  | .unassignedOpcode _ => none
  | .passLeavesArray _ => none
  | .cxlMemAccess _ _ _ _ => none
  | .dbgctlFreeze => none
  | .dbgctlThaw => none
  | .powerGood => none
  | .hostReset => none
  | .imageVerify => none
  | .thermalTrip => none
  | .invalidationComplete => none
  | .checkpointComplete => none
  | .profileCycle => none

/-- Opcodes that a macro body must not hold (R82): BRA, BRX, CALL, CALLX, RET, LOOP, EXIT, RGN, MCALL, SGWAIT, RGRESV,
RGAWAIT, BWAIT, GBAR, WSYNC, GPWAIT. -/
def macroForbidden : List Nat :=
  [0x004, 0x005, 0x006, 0x007, 0x008, 0x009, 0x003, 0x002, 0x00A, 0x201, 0x208, 0x20A, 0x213,
   0x219, 0x21A, 0x24B]

/-- OP of a slot (R23). -/
def opOf (w : InstrWord) : Nat := w.toNat % 1024

/-- The word with other selectors D, A, B and C (R23). -/
def withSelectors (w : InstrWord) (h : Head) : InstrWord :=
  (h.c ++ h.b ++ h.a ++ h.d).setWidth 96 <<< 18 ||| (w &&& ~~~(BitVec.ofNat 96 (2 ^ 32 - 1) <<< 18))

/-- The slot raises an encoding fault when MCALL supplies some selectors (R31, R83). -/
def macroSlotFaults (e : Env) (w : InstrWord) (x : Enc) (h : Head) (m : MacroPos) : Bool :=
  match fieldsOf (decodeWord (withSelectors w (x.subst (some m) h))) with
  | some (h, x) => (x.fault e h).isSome
  | none => true

/-- Selectors that MCALL may supply, one of each kind that the checks of R31 tell apart: a g, an s, a latch, zero, a value of the
thread and IMM32. -/
def suppliedKinds : List Selector := [0x00, 0x80, 0xC0, 0xC8, 0xCB, 0xD0]

/-- The kinds to try for one of m0 to m3: all where a word names it, else one. -/
def kindsFor (h : Head) (m : Selector) : List Selector :=
  if h.d = m ∨ h.a = m ∨ h.b = m ∨ h.c = m then suppliedKinds else [0xC8]

/-- A slot makes its macro invalid (R82): it holds a forbidden instruction, or it raises an encoding fault whatever selectors MCALL
supplies, whose own legality is checked when the slot issues (R83). -/
def macroSlotBad (e : Env) (w : InstrWord) : Bool :=
  macroForbidden.contains (opOf w) || match fieldsOf (decodeWord w) with
    | some (h, x) =>
      (kindsFor h 0xE0).all fun m0 => (kindsFor h 0xE1).all fun m1 => (kindsFor h 0xE2).all fun m2 => (kindsFor h 0xE3).all fun m3 =>
        macroSlotFaults e w x h { num := 0, slot := 0, body := [], m0 := m0, m1 := m1, m2 := m2, m3 := m3 }
    | none => true

/-- A body up to its last slot that is not NOP (R82). -/
def trimMacro (slots : List InstrWord) : List InstrWord := (slots.reverse.dropWhile fun w => opOf w == 0x001).reverse

/-- The 32 slots of 384 bytes. -/
def macroSlots (bs : List Byte) : List InstrWord :=
  (List.range 32).map fun i => BitVec.ofNat 96 (ofBytes ((bs.drop (12 * i)).take 12))

/-- The body that a macro's bytes load: an invalid one is kept as an empty one, since MCALL faults on both alike (R89). -/
def macroBody (e : Env) (bs : List Byte) : List InstrWord :=
  let body := trimMacro (macroSlots bs)
  if body.any (macroSlotBad e) then [] else body

end Sys2Proof.Machine
end

