-- ==== Sys2Proof/Machine/Placement.lean ====
section
/-!
DEFINITION. The placement of tasks on cores (R153, R155 to R157, R163, R177, R205, R304): the choice of a continuation record,
the resources a task takes, and the steps of placement, whose failure is the fault of the task's first instruction.
-/

namespace Sys2Proof.Machine

open Sys2Proof

/-! ## Continuation records (R152) -/

/-- FRAME of a record. -/
def Cont.frame (r : Cont) : W64 := BitVec.ofNat 64 (bitsOf r.w0.toNat 49 0 * 64)
/-- NC of a record. -/
def Cont.conds (r : Cont) : Nat := bitsOf r.w0.toNat 61 60
/-- JOIN of a record. -/
def Cont.join (r : Cont) : W64 := BitVec.ofNat 64 (bitsOf r.w1.toNat 49 0 * 64)
/-- ENTRY of a record: slots from the launch's entry. -/
def Cont.entryOff (r : Cont) : Nat := bitsOf r.w1.toNat 63 50
/-- The word of condition 1 or 2. -/
def Cont.condWord (r : Cont) (i : Nat) : Nat := (if i = 1 then r.w2 else r.w3).toNat
/-- The address of the stalagmite of a condition: JOIN + 8 × sext(OFF, 16). -/
def Cont.condVa (r : Cont) (i : Nat) : Nat :=
  (r.join + BitVec.ofInt 64 (8 * signedOf 16 (r.condWord i))).toNat
/-- The threshold of a condition. -/
def Cont.condThr (r : Cont) (i : Nat) : Nat := r.condWord i / 2 ^ 16

/-- Records that a context's continuation queue holds (R342). -/
def Context.cqCap (c : Context) : Nat := 2 ^ bitsOf c.cqcfg.toNat 4 0

/-- The lowest place of a context's queue that no record takes. -/
def Context.cqSlot (c : Context) : Nat := ((List.range (c.cq.length + 1)).find? fun i => !c.cq.any fun x => x.slot == i).getD 0

/-- The 32 bytes of a record (R152). -/
def Cont.bytes (r : Cont) : List Byte := toBytes 8 r.w0.toNat ++ toBytes 8 r.w1.toNat ++ toBytes 8 r.w2.toNat ++ toBytes 8 r.w3.toNat

/-- A record in its place of the queue's memory, at CQCFG's base (R342). DESIGN CHOICE (log 85): the place is the lowest free one, and a
page that cannot be written, for which the rule names no fault, takes nothing. -/
def State.storeCont (s : State) (ctx : Nat) (r : Cont) : State :=
  let va := bitsOf (s.ctx ctx).cqcfg.toNat 55 6 * 64 + 32 * r.slot
  match s.agentAccess (s.agentWho ctx) .store va 32 32 with
  | (.ok (.phys pa), s) => s.homeWrite pa r.bytes
  | (.ok (.remote peer off), s) => (s.request .post 0 ctx va peer (.store off 32 (ofBytes r.bytes))).getD s
  | (_, s) => s

/-- A record joins a context's continuation queue (R151, R153, R342). -/
def State.pushCont (s : State) (ctx : Nat) (r : Cont) : State :=
  let r := { r with slot := (s.ctx ctx).cqSlot }
  (s.storeCont ctx r).modCtx ctx fun c => { c with cq := c.cq ++ [r] }

/-- Both are one record. -/
def Cont.same (r x : Cont) : Bool := r.id == x.id

/-- The state with one record of a context's queue changed. -/
def State.modCont (s : State) (ctx : Nat) (r : Cont) (f : Cont → Cont) : State :=
  s.modCtx ctx fun c => { c with cq := c.cq.map fun (x : Cont) => if x.same r then f x else x }

/-! ## Eligibility (R153) -/

/-- The place of a condition's wait in the access order of its kernel. -/
def Cont.condKey (r : Cont) (i : Nat) : Nat := 10 ^ 9 + 4 * r.id + i

/-- The waits of a record's conditions are withdrawn. -/
def State.quitConds (s : State) (r : Cont) : State :=
  s.quitWaits fun a k => a == .kernel r.kid && (k == r.condKey 1 || k == r.condKey 2)

/-- The waiter of a record's condition. -/
def Cont.condWaiter (r : Cont) (i : Nat) : Waiter := .agent (.kernel r.kid) (r.condKey i)

/-- An add has settled a condition: its entry has been woken, or its peer has said so. -/
def State.condSettled (s : State) (r : Cont) (i : Nat) : Bool :=
  (s.waiters.any fun w => w.who == r.condWaiter i && w.woken && decide (w.pa < nowhere))
    || s.answers.any fun a => a.who == .kernel r.kid && a.key == r.condKey i && a.ok

/-- A condition whose read has failed, and which no add has reached since its address can be read: it is not judged (R153). -/
def State.condUnheard (s : State) (ctx : Nat) (r : Cont) (i : Nat) : Bool :=
  (s.waiters.any fun w => w.who == r.condWaiter i && w.pa == nowhere) &&
    match (s.agentAccess (s.agentWho ctx) .sgRead (r.condVa i) 8 8).1 with
    | .ok (.phys pa) => !s.waiters.any fun w => w.who == r.condWaiter i && w.pa == heardAt pa
    | .ok _ => false
    | .error _ => r.told.contains i

/-- A condition whose read has failed listens for adds. -/
def State.condLost (s : State) (r : Cont) (i : Nat) : State :=
  { s with waiters := s.waiters.filter (fun (w : WaiterEntry) => w.who != r.condWaiter i)
      ++ [{ pa := nowhere, target := r.condThr i, who := r.condWaiter i, woken := false }] }

/-- One condition of a record: its stalagmite has reached the threshold, which the add that brings it there settles, since the distributor
waits on it (R132, R153). A read that fails counts as unmet, is reported once for the record and condition, and leaves the condition to
a later add; while a peer has not answered the condition is unmet. -/
def Op.condHolds (ctx : Nat) (r : Cont) (i : Nat) : Op Bool := fun s =>
  let meet (s : State) : State := s.modCont ctx r fun x => { x with met := i :: x.met }
  if r.met.contains i then .ok (true, s)
  else if s.condSettled r i then
    .ok (true, meet { s.quitWaits fun a k => a == .kernel r.kid && k == r.condKey i with
      answers := s.answers.filter fun (a : Answer) => !(a.who == .kernel r.kid && a.key == r.condKey i) })
  else if s.condUnheard ctx r i then .ok (false, s)
  else
    match s.agentWait (.kernel r.kid) (r.condKey i) ctx (r.condVa i) (r.condThr i) with
    | (.ok v, s) => .ok (v == 1, if v = 1 then meet s else s)
    | (.waits, s) => .ok (false, s)
    | (.fail _, s) =>
      let s := s.condLost r i
      .ok (false,
        if r.told.contains i || !s.recordRoom ctx then s
        else (s.modCont ctx r fun x => { x with told := i :: x.told }).dependenceRecord ctx r.kid (r.condVa i))

/-- Every condition of a record holds; each of them is judged. -/
def Op.eligible (ctx : Nat) (r : Cont) : Op Bool := do
  let a ← if 1 ≤ r.conds then Op.condHolds ctx r 1 else pure true
  let b ← if 2 ≤ r.conds then Op.condHolds ctx r 2 else pure true
  return a && b

/-! ## Room on a core (R156, R202, R205) -/

/-- The resources that a task takes. -/
structure Room where
  /-- the lane and slot of each warp -/
  lanes : List (Nat × Nat)
  units : List Nat
  tiles : List Nat
  planes : List Nat
  tables : List Nat
  vault : Option (Nat × Nat × Nat)
  deriving DecidableEq, Repr

/-- Tasks resident on a core. -/
def State.residents (s : State) (core : Nat) : List Task := s.tasks.filter fun t => t.core == some core && !t.ended

/-- The lowest free slot of a lane with register words free for a warp of `regs` registers (R156). -/
def laneSlot (ts : List Task) (regs lane : Nat) : Option Nat :=
  let ws := ts.flatMap fun t => (t.warps.filter fun w => w.lane == lane).map fun w => (w.slot, 16 * t.regs)
  if 4096 < (ws.map (·.2)).sum + 16 * regs then none
  else (List.range 4).find? fun n => !ws.any fun x => x.1 == n

/-- The lowest `n` numbers below `cap` that are not used, if there are so many. -/
def lowestFree (cap : Nat) (used : List Nat) (n : Nat) : Option (List Nat) :=
  let free := (List.range cap).filter fun i => !used.contains i
  if n ≤ free.length then some (free.take n) else none

/-- The lanes and slots of `n` warps. -/
def lanesFor (ts : List Task) (regs n : Nat) : Option (List (Nat × Nat)) :=
  let ls := (List.range 32).filterMap fun l => (laneSlot ts regs l).map fun x => (l, x)
  if n ≤ ls.length then some (ls.take n) else none

/-- Units of a vault that a task may hold: 160 while shadow storage takes 6 MiB of it, else 256 (R156, R343). -/
def State.vaultUnits (s : State) (cluster : Nat) : Nat :=
  if (vlist s.contexts).any fun c => c.st != 0 && c.shadow && c.hasCluster cluster then 160 else 256

/-- The lowest extent of `n` free units in a cluster's vault, as vault id, offset and length (R202). -/
def State.vaultRoom (s : State) (cluster n : Nat) : Option (Nat × Nat × Nat) :=
  let held := s.tasks.filterMap fun t => t.vault.bind fun v => if v.1 = cluster then some (v.2.1 / 65536, v.2.2) else none
  ((List.range (s.vaultUnits cluster + 1 - n)).find? fun i =>
    !held.any fun h => decide (h.1 < i + n) && decide (i < h.1 + h.2)).map fun i => (cluster, i * 65536, n)

/-- The resources of a launch on a core, none when it has no room (R156). Scratchpad and vault bytes stay held until a task's
commands are complete (R158). -/
def State.roomFor (s : State) (core : Nat) (r : LaunchRec) : Option Room :=
  let ts := s.residents core
  if 32 ≤ ts.length then none
  else
    let units := (s.tasks.filter fun t => t.core == some core).flatMap fun t => t.units
    if 32 < units.length + r.spad then none
    else
      match lanesFor ts r.regCount (r.warps + 1), lowestFree 32 units r.spad, lowestFree 64 (ts.flatMap (·.tiles)) r.tiles,
            lowestFree 4 (ts.flatMap (·.planeIds)) r.planes, lowestFree 64 (ts.flatMap (·.ctIds)) r.ctn with
      | some ls, some us, some cs, some ps, some ks =>
        let room : Room := { lanes := ls, units := us, tiles := cs, planes := ps, tables := ks, vault := none }
        if r.vault = 0 then some room
        else (s.vaultRoom (clusterOf core) r.vault).map fun v => { room with vault := some v }
      | _, _, _, _, _ => none

/-! ## Affinity (R155) -/

/-- The slice that the affinity function gives a record; a spawned task's coordinates count as zeros. -/
def affinitySlice (r : LaunchRec) (x : Cont) : Nat :=
  let c := x.coord.getD (0, 0, 0)
  crc32c (toBytes 8 r.affbase.toNat ++ toBytes 8 c.1 ++ toBytes 8 c.2.1 ++ toBytes 8 c.2.2) % 128

/-- The cluster preferred for a slice. -/
def affinityCluster (slice : Nat) : Nat := slice / 32 * 12 + slice % 32 * 12 / 32

/-- A record may go to a core: with affinity only to its die, and to another cluster than the preferred one only when that one
has no room (R155). -/
def State.affinityOk (s : State) (core : Nat) (k : Kernel) (x : Cont) : Bool :=
  if k.lr.place ≠ 2 then true
  else
    let slice := affinitySlice k.lr x
    let best := affinityCluster slice
    core / 48 == slice / 32 && (clusterOf core == best ||
      !((s.ctx k.ctx).hasCluster best && (List.range 4).any fun i => (s.roomFor (4 * best + i) k.lr).isSome))

/-! ## The choice of a record (R153) -/

/-- The records of a queue, the highest PRIO first and then the oldest. -/
def State.byPriority (s : State) (ctx : Nat) : List (Kernel × Cont) :=
  let all := (s.ctx ctx).cq.filterMap fun x => (s.kernel? x.kid).map fun k => (k, x)
  [7, 6, 5, 4, 3, 2, 1, 0].flatMap fun p => all.filter fun y => y.1.lr.prio == p

/-- The first record that the core has room for and that is eligible. -/
def Op.chooseRecord (core ctx : Nat) : List (Kernel × Cont) → Op (Option (Kernel × Cont × Room))
  | [] => pure none
  | (k, x) :: r => do
    let s ← Op.state
    match s.roomFor core k.lr with
    | none => Op.chooseRecord core ctx r
    | some room =>
      if s.affinityOk core k x = false then Op.chooseRecord core ctx r
      else
        let b ← Op.eligible ctx x
        if b then return some (k, x, room)
        Op.chooseRecord core ctx r

/-! ## The new task (R156, R157) -/

/-- The lowest free slot of a context's task directory (R351). -/
def State.freeDir (s : State) (ctx : Nat) : Nat :=
  ((List.range 65536).find? fun d => !s.tasks.any fun t => t.ctx == ctx && t.dir == d).getD 0

/-- The entry of a task: its record's slot counted from the launch's entry (R152). -/
def entryOf (k : Kernel) (x : Cont) : W64 := pcOfLin ((linOf k.lr.entry : Int) + x.entryOff)

/-- The s registers of warp `i` (R157). -/
def firstRegs (k : Kernel) (t : Task) (i : Nat) : Vector W64 64 :=
  let v : List W64 :=
    [t.frame, t.x.setWidth 64, t.y.setWidth 64, t.z.setWidth 64, BitVec.ofNat 64 t.index, BitVec.ofNat 64 i, k.tag.setWidth 64,
     k.lrec]
  v.zipIdx.foldl (fun (r : Vector W64 64) (p : W64 × Nat) => vset r p.2 p.1) (vfill 64 0)

/-- The task of a record with the resources it takes; its placement stands before its first step. -/
def State.newTask (s : State) (core : Nat) (k : Kernel) (x : Cont) (room : Room) : Task :=
  let c := x.coord.getD (0, 0, 0)
  let entry := entryOf k x
  let t := Task.fresh s.nextId k.ctx (s.freeDir k.ctx) k.id entry
  let t : Task :=
    { t with
      core := some core, index := x.index, x := BitVec.ofNat 32 c.1, y := BitVec.ofNat 32 c.2.1, z := BitVec.ofNat 32 c.2.2,
      frame := x.frame, join := x.join, spawned := x.coord.isNone, counted := x.counted, regs := k.lr.regCount,
      spad := k.lr.spad, units := room.units, vault := room.vault, tiles := room.tiles,
      planes := List.replicate k.lr.planes .empty_, planeIds := room.planes, ctn := k.lr.ctn,
      ctSlots := List.replicate k.lr.ctn none, ctIds := room.tables,
      timer := if k.lr.tlimit = 0 then none else some (k.lr.tlimit * 65536), pendingStep := some .macros, born := s.nextId,
      entryLine := if k.placed then [] else k.line }
  { t with warps := room.lanes.zipIdx.map fun p => Warp.fresh entry p.1.1 p.1.2 (firstRegs k t p.2) 0 }

/-- The boundary of a core after a placement (R205). -/
def State.moveBound (s : State) (core : Nat) : State :=
  let units := (s.tasks.filter fun t => t.core == some core).flatMap fun t => t.units
  s.setBound core (units.foldl (fun m u => max m (u + 1)) 0)

/-- A record leaves the queue and its task takes its place on the core: the first task of a kernel gets the buffered entry line
(R163), and what the satisfied conditions, the append or the push order comes before its accesses: its core acquires (R148, R153,
R226, R233). -/
def State.takeRecord (s : State) (core : Nat) (k : Kernel) (x : Cont) (room : Room) : State :=
  let t := s.newTask core k x room
  let s := (s.quitConds x).modCtx k.ctx fun c => { c with cq := c.cq.filter fun (y : Cont) => !y.same x }
  let s := { s with tasks := s.tasks ++ [t], nextId := s.nextId + 1 }
  let s := (s.moveBound core).acquire core
  s.modKernel k.id fun x => { x with lr := k.lr, placed := true, line := [] }

/-! ## The steps of placement (R157) -/

/-- A task's reads at placement: CORE-path reads of its core, which peers serve too. -/
def State.placeMover (s : State) (core : Nat) (t : Task) : Mover :=
  { asker := .kernel t.kid,
    acc := { ctx := t.ctx, priv := s.privCtx t.ctx, cluster := clusterOf core, quarter := none }, task := t.id, peers := true, core := some core }

/-- A range that the placement reads; poisoned code is IFETCH_POISON (R85). -/
def Op.placeBytes (m : Mover) (k : Access) (key va n : Nat) : Op (List Byte) :=
  Op.onFail (Op.readRange m k 0 (pageFuel n) key va n) fun t =>
    Op.stop (.trap (if k = .fetch ∧ t.cause = .dataPoison then { t with cause := .ifetchPoison } else t))

/-- The numbers of the bits set in a mask. -/
def bitsIn (n m : Nat) : List Nat := (List.range n).filter fun i => m.testBit i

/-- The macros of MACMASK (R82). -/
def Op.loadMacros (m : Mover) (e : Env) (r : LaunchRec) (key : Nat) : List Nat → Op Unit
  | [] => pure ()
  | i :: is => do
    let bs ← Op.placeBytes m .fetch (key + 4 * i) (r.macros.toNat + 384 * i) 384
    Op.modify fun s => s.modTask m.task fun t => { t with macros := t.macros ++ [(i, macroBody e bs)] }
    Op.loadMacros m e r key is

/-- The descriptors of TDMASK, checked as TDLD checks them (R316, R328). -/
def Op.loadDescs (m : Mover) (r : LaunchRec) (key : Nat) : List Nat → Op Unit
  | [] => pure ()
  | i :: is => do
    let va := r.tdtab.toNat + 64 * i
    let bs ← Op.placeBytes m .load (key + 4 * i) va 64
    if tdescOk (ofBytes bs) = false then Op.moveFail .tdescInvalid va
    Op.modify fun s => s.modTask m.task fun t => { t with td := vset t.td i (BitVec.ofNat 512 (ofBytes bs)) }
    Op.loadDescs m r key is

/-- The code tables of CTMASK (R312). -/
def Op.loadTables (m : Mover) (r : LaunchRec) (key : Nat) : List Nat → Op Unit
  | [] => pure ()
  | i :: is => do
    let va := r.cttab.toNat + 288 * i
    let bs ← Op.placeBytes m .load (key + 4 * i) va 288
    match tableOfRecord bs with
    | none => Op.moveFail .codeTableInvalid va
    | some x => Op.modify fun s => s.modTask m.task fun t => { t with ctSlots := t.ctSlots.set i (some x) }
    Op.loadTables m r key is

/-- An entry of the static copy schedule for a task index, none when it is malformed (R304). -/
def SchedEntry.parse (index v : Nat) (prev : Nat) : Option SchedEntry :=
  let u := bytesAt v
  let spc := u 56 1
  let grd := u 57 1
  let step (o : Nat) : W64 := BitVec.ofInt 64 (signedOf 32 (u o 4) * index)
  let e : SchedEntry :=
    { src := BitVec.ofNat 64 (u 0 8) + step 48, dst := BitVec.ofNat 64 (u 8 8) + step 52, sstr := BitVec.ofNat 32 (u 16 4),
      dstr := BitVec.ofNat 32 (u 20 4), rows := u 24 4, len := u 28 4, csg := BitVec.ofNat 64 (u 32 8), amt := u 40 4,
      stage := u 44 4, sspace := spc % 4, dspace := spc / 4 % 4, guarded := if grd.testBit 5 then some (grd % 32) else none }
  if spc < 16 ∧ e.sspace ≠ 3 ∧ e.dspace ≠ 3 ∧ grd < 64 ∧ u 58 6 = 0 ∧ prev ≤ e.stage
      ∧ (CmdKind.cpy2 e.src e.dst e.sstr e.dstr e.rows e.len e.sspace e.dspace).copyOk = true then some e
  else none

/-- The static copy schedule (R304). -/
def Op.loadSchedule (m : Mover) (r : LaunchRec) (index key : Nat) : Nat → Nat → Nat → Op (List SchedEntry)
  | 0, _, _ => pure []
  | n + 1, i, prev => do
    let va := r.csched.toNat + 64 * i
    let bs ← Op.placeBytes m .load (key + 4 * i) va 64
    match SchedEntry.parse index (ofBytes bs) prev with
    | none => Op.moveFail .copySchedule va
    | some e => do
      let rest ← Op.loadSchedule m r index key n (i + 1) e.stage
      return e :: rest

/-- The group slots of a warp filled from the lowest (R177). -/
def Warp.fillGroups (w : Warp) (gs : List GroupSlot) : Warp :=
  let fill (g : Vector (Option GroupSlot) 4) (q : GroupSlot × Nat) : Vector (Option GroupSlot) 4 := vset g q.2 (some q.1)
  { w with groups := gs.zipIdx.foldl fill (vfill 4 none) }

/-- The group slots of every warp (R177): a table that cannot be read fails as its read does, and a warp in more than four groups is
GROUP_SLOT. -/
def Op.loadGroups (m : Mover) (r : LaunchRec) (t : Task) (key : Nat) : Op Unit := do
  let gs ← Op.readGroups m.asker t.ctx r key r.gcnt 0
  let mine := (List.range t.warps.length).map fun i => slotsOf gs t.index i
  Op.modify fun s => s.modTask m.task fun t =>
    { t with warps := t.warps.zipIdx.map fun p => p.1.fillGroups (mine.getD p.2 ([], false)).1 }
  if mine.any (·.2) then Op.moveFail .groupSlot 0

/-- s1 to s3 of a warp set (R157). -/
def Warp.setCoords (x y z : W32) (w : Warp) : Warp :=
  { w with s := vset (vset (vset w.s 1 (x.setWidth 64)) 2 (y.setWidth 64)) 3 (z.setWidth 64) }

/-- The three words at the frame of a spawned task (R157). -/
def Op.loadFrame (m : Mover) (key : Nat) (t : Task) : Op Unit := do
  let bs ← Op.placeBytes m .load key t.frame.toNat 12
  let word (i : Nat) : W32 := BitVec.ofNat 32 (ofBytes ((bs.drop (4 * i)).take 4))
  Op.modify fun s => s.modTask m.task fun t =>
    { t with x := word 0, y := word 1, z := word 2, warps := t.warps.map (Warp.setCoords (word 0) (word 1) (word 2)) }

/-- The check of the entry (R21). -/
def Op.checkEntry (m : Mover) (core : Nat) (t : Task) : Op Unit := fun s =>
  match s.checkJTarget m.acc core t.entry.toNat with
  | (.ok _, s) => .ok ((), s)
  | (.error c, s) => Op.moveFail c t.entry.toNat 0 s

/-- The first place of a core's placements in the access order of a kernel. -/
def placeKey (core : Nat) : Nat := 100000 * (core + 1)

/-- The launch record as the distributor reads it again for a placement after the first (R144); software must not have changed it.
DESIGN CHOICE (log 142): a record that cannot be read or breaks R144 leaves the copy in use, and the grid and the warps stay. -/
def Op.rereadRecord (core : Nat) (k : Kernel) : Op Kernel := fun s =>
  if !k.placed then .ok (k, s)
  else
    match Op.fetchNum (.kernel k.id) k.ctx (placeKey core + 9000) k.lrec.toNat 256 s with
    | .ok (v, s) =>
      let r := LaunchRec.ofBits v
      if launchFieldsOk v then
        .ok ({ k with lr := { r with gx := k.lr.gx, gy := k.lr.gy, gz := k.lr.gz, warps := k.lr.warps } }, s)
      else .ok (k, s)
    | .error (.hold s) => .error (.hold s)
    | .error (.trapAt s _) => .ok (k, s)
    | .error _ => .ok (k, s)

/-- One step of a task's placement. -/
def Op.placeStep (core : Nat) (t : Task) (k : Kernel) (step : PlaceStep) : Op Unit := do
  let s ← Op.state
  let m := s.placeMover core t
  let r := k.lr
  let key := placeKey core
  match step with
  | .macros => do
    Op.modify fun s => s.modTask t.id fun t => { t with macros := [] }
    Op.loadMacros m { regs := t.regs, prof := (s.ctx t.ctx).prof, priv := s.privCtx t.ctx, inMacro := true } r key
      (bitsIn 64 r.macmask.toNat)
  | .tdescs => Op.loadDescs m r (key + 1000) (bitsIn 16 r.tdmask.toNat)
  | .ctables => Op.loadTables m r (key + 2000) (bitsIn 16 r.ctmask.toNat)
  | .schedule => do
    let es ← Op.loadSchedule m r t.index (key + 3000) r.cscnt 0 0
    Op.modify fun s => s.modTask t.id fun t => { t with sched := es, released := 0 }
  | .groups => if t.spawned then pure () else Op.loadGroups m r t (key + 5000)
  | .frame => if t.spawned then Op.loadFrame m (key + 4000) t else pure ()
  | .entry => Op.checkEntry m core t

/-- The steps from one on, in their order (R157). -/
def PlaceStep.rest : PlaceStep → List PlaceStep
  | .macros => [.macros, .tdescs, .ctables, .schedule, .groups, .frame, .entry]
  | .tdescs => [.tdescs, .ctables, .schedule, .groups, .frame, .entry]
  | .ctables => [.ctables, .schedule, .groups, .frame, .entry]
  | .schedule => [.schedule, .groups, .frame, .entry]
  | .groups => [.groups, .frame, .entry]
  | .frame => [.frame, .entry]
  | .entry => [.entry]

/-- Steps made one after another; the one that fails stays pending. -/
def Op.placeSteps (core task : Nat) : List PlaceStep → Op Unit
  | [] => Op.modify fun s => (s.modTask task fun t => { t with pendingStep := none })
  | x :: xs => do
    Op.modify fun s => s.modTask task fun t => { t with pendingStep := some x }
    let s ← Op.state
    match s.task? task with
    | none => pure ()
    | some t =>
      match s.kernel? t.kid with
      | none => pure ()
      | some k => Op.placeStep core t k x
    Op.placeSteps core task xs

/-- The placement of a task completed from its pending step on; entries of stage 0 are then released (R305). -/
def Op.finishPlacing (task : Nat) : Op Unit := do
  let s ← Op.state
  match s.task? task with
  | none => pure ()
  | some t =>
    match t.core, t.pendingStep with
    | some core, some x => do
      Op.placeSteps core task x.rest
      Op.modify fun s => s.releaseSchedule task 0 t.entry.toNat
    | _, _ => pure ()

/-- Every warp of a task that is to issue its entry is suspended there with the cause that its placement met, each with its own
record (R157): all warps at first, and after a RESUME the ones resumed. -/
def State.placeFailed (s : State) (task : Nat) (x : Trap) : State :=
  match s.task? task with
  | none => s
  | some t => t.warps.zipIdx.foldl (fun (s : State) (p : Warp × Nat) =>
    if p.1.st = .ready ∨ p.1.st = .running then s.takeFault task p.2 t.entry { x with mask := maskOf allTids } else s) s

/-- The tasks of a core with a step of placement to make: it waits for a peer, or a RESUME repeats it (R157). -/
def State.placing (s : State) (core : Nat) : Option Task :=
  (s.residents core).find? fun t => t.pendingStep.isSome && t.warps.any fun w => w.st == .ready || w.st == .running

/-- Answers to the placement of a task on a core are used up. -/
def State.dropPlaceAnswers (s : State) (core : Nat) : State :=
  { s with answers := s.answers.filter fun (a : Answer) => match a.who with
      | .kernel _ => !(decide (placeKey core ≤ a.key % flitKey) && decide (a.key % flitKey < placeKey (core + 1)))
      | _ => true }

/-- A placement carried on until it is done, waits or has failed. -/
def State.runPlacing (s : State) (core task : Nat) : State :=
  match Op.finishPlacing task s with
  | .ok (_, s) => s.dropPlaceAnswers core
  | .error (.hold s) => s
  | .error (.trapAt s x) => (s.placeFailed task x).dropPlaceAnswers core
  | .error (.trap x) => (s.placeFailed task x).dropPlaceAnswers core
  | .error _ => s

/-- The context whose tasks a core takes (R337). -/
def State.ctxOfCore (s : State) (core : Nat) : Option Nat :=
  (List.range 64).find? fun c => (s.ctx c).st != 0 && (s.ctx c).hasCluster (clusterOf core)

/-! ## A task comes back (R156, R344) -/

/-- The resources that a saved task takes on a core, none when the core has no room; an ended task needs its scratchpad alone. -/
def State.roomBack (s : State) (core : Nat) (t : Task) : Option Room :=
  let ts := s.residents core
  if 32 ≤ ts.length then none
  else
    let units := (s.tasks.filter fun (x : Task) => x.core == some core).flatMap fun x => x.units
    let n (k : Nat) : Nat := if t.ended then 0 else k
    match lanesFor ts t.regs (n t.warps.length), lowestFree 32 units t.spad, lowestFree 64 (ts.flatMap (·.tiles)) (n t.tiles.length),
          lowestFree 4 (ts.flatMap (·.planeIds)) (n t.planes.length), lowestFree 64 (ts.flatMap (·.ctIds)) (n t.ctn) with
    | some ls, some us, some cs, some ps, some ks =>
      some { lanes := ls, units := us, tiles := cs, planes := ps, tables := ks, vault := none }
    | _, _, _, _, _ => none

/-- A warp in its new lane and slot. -/
def Warp.moveTo (w : Warp) (p : Option (Nat × Nat)) : Warp :=
  match p with
  | some x => { w with lane := x.1, slot := x.2 }
  | none => w

/-- The resources that a saved task has left on its last core, when they are free there: none of them is taken, and its lanes have the
registers (R156, R344). -/
def State.roomHome (s : State) (t : Task) : Option (Nat × Room) :=
  let ts := s.residents t.last
  let ls := t.warps.map fun w => (w.lane, w.slot)
  let free (xs used : List Nat) : Bool := xs.all fun x => !used.contains x
  let lanesFree := ls.all fun l =>
    let ws := ts.flatMap fun x => (x.warps.filter fun w => w.lane == l.1).map fun w => (w.slot, 16 * x.regs)
    decide ((ws.map (·.2)).sum + 16 * t.regs ≤ 4096) && !ws.any fun x => x.1 == l.2
  if decide (t.last < 192) && (s.ctx t.ctx).hasCluster (clusterOf t.last) && decide (ts.length < 32)
      && free t.units ((s.tasks.filter fun (x : Task) => x.core == some t.last).flatMap fun x => x.units)
      && (t.ended || (lanesFree && free t.tiles (ts.flatMap (·.tiles)) && free t.planeIds (ts.flatMap (·.planeIds))
        && free t.ctIds (ts.flatMap (·.ctIds)))) then
    some (t.last, { lanes := ls, units := t.units, tiles := t.tiles, planes := t.planeIds, tables := t.ctIds, vault := none })
  else none

/-- Two queues of commands joined by their sequence numbers, each keeping its own order (R301). -/
def mergeSeq : Nat → List EngineCmd → List EngineCmd → List EngineCmd
  | 0, a, b => a ++ b
  | n + 1, a, b =>
    match a, b with
    | [], b => b
    | a, [] => a
    | x :: a', y :: b' => if x.seq ≤ y.seq then x :: mergeSeq n a' (y :: b') else y :: mergeSeq n (x :: a') b'

/-- Commands that a restore gives an engine: they join it in sequence order, behind one that it works on (R301). -/
def Engine.join (e : Engine) (cs : List EngineCmd) : Engine :=
  let keep := if e.st = 0 then 0 else 1
  { e with queue := e.queue.take keep ++ mergeSeq (e.queue.length + cs.length) (e.queue.drop keep) cs }

/-- A saved task placed on a core with the resources it takes there: its storage, its engine commands in their order, its warps, and
an acquire (R344). -/
def State.putBack (s : State) (core : Nat) (t : Task) (room : Room) : State :=
  let s := s.modTask t.id fun t =>
    { t with
      core := some core, units := room.units, tiles := room.tiles, planeIds := room.planes, ctIds := room.tables, cmds := [],
      born := s.nextId, warps := t.warps.zipIdx.map fun p => p.1.moveTo room.lanes[p.2]? }
  let s := { s with nextId := s.nextId + 1 }
  let give (x : Bool) (s : State) : State :=
    (s.modEngine core x fun e => e.join ((t.cmds.filter fun c => c.1 == x).map (·.2))).standStopped core x
  ((give true (give false s)).moveBound core).acquire core

/-- The cores of a context's partitions, lowest first (R337). -/
def State.coresOf (s : State) (ctx : Nat) : List Nat := (List.range 192).filter fun k => (s.ctx ctx).hasCluster (clusterOf k)

/-- A saved task comes back to what it has left, if that is free; so every task of a context whose partitions are as they were comes back
before any warp issues (R344). -/
def State.bringHome (s : State) (t : Task) : State :=
  match s.roomHome t with
  | some (core, r) => s.putBack core t r
  | none => s

/-- Saved tasks come back all of them, each on some core of its context, if there is a way to place them all (R344): the first in the order
of the cores. -/
def State.bringAll (s : State) : List Task → Option State
  | [] => some s
  | t :: ts => (s.coresOf t.ctx).findSome? fun core => (s.roomBack core t).bind fun r => (s.putBack core t r).bringAll ts

/-- A saved task comes back on the first core of its context that has room (R344). DESIGN CHOICE (log 33): without one it stays saved. -/
def State.bringBack (s : State) (t : Task) : State :=
  match (s.coresOf t.ctx).findSome? fun core => (s.roomBack core t).map fun r => (core, r) with
  | some (core, r) => s.putBack core t r
  | none => s

/-- The saved tasks of a context. -/
def State.savedTasks (s : State) (ctx : Nat) : List Task := s.tasks.filter fun t => t.ctx == ctx && t.core.isNone

/-- The saved tasks of a context placed (R344): where they were, or else each on some core, or, when there is no room for all of them, those
for which there is. DESIGN CHOICE (log 33). -/
def State.bringTasks (s : State) (ctx : Nat) : State :=
  let home := (s.savedTasks ctx).foldl (fun (s : State) (t : Task) => s.bringHome t) s
  match home.bringAll (home.savedTasks ctx), s.bringAll (s.savedTasks ctx) with
  | some x, _ | none, some x => x
  | none, none => (home.savedTasks ctx).foldl (fun (s : State) (t : Task) => s.bringBack t) home

/-- A saved task of a context that waits for room comes back on a core that has it (R344). -/
def State.waitingBack (s : State) (core ctx : Nat) : Option (Task × Room) :=
  (s.savedTasks ctx).findSome? fun t => (s.roomBack core t).map fun r => (t, r)

/-- A record taken by a core that has room for it: the name of its task. -/
def Op.placeRecord (core ctx : Nat) : Op (Option Nat) := do
  let s ← Op.state
  match ← Op.chooseRecord core ctx (s.byPriority ctx) with
  | none => return none
  | some (k, x, _) => do
    let k ← Op.rereadRecord core k
    let s ← Op.state
    match s.roomFor core k.lr with
    | none => return none
    | some room =>
      Op.put (s.takeRecord core k x room)
      return some s.nextId

/-- CORE_PLACEMENT (R153, R156, R157). -/
def execCorePlacement (core : Nat) (s : State) : Out :=
  s.keeping <|
  match s.ctxOfCore core with
  | none => .next s
  | some ctx =>
    if core < 192 ∧ s.mayRun ctx = true ∧ (s.ctx ctx).moving = false then
      match s.waitingBack core ctx, s.placing core with
      | some (t, r), _ => .next (s.putBack core t r)
      | none, some t => .next (s.runPlacing core t.id)
      | none, none =>
        match Op.placeRecord core ctx s with
        | .ok (none, s) => .next s
        | .ok (some task, s) => .next ((s.dropPlaceAnswers core).runPlacing core task)
        | .error (.hold s) => .next s
        | .error _ => .next s
    else .next s

end Sys2Proof.Machine
end

