-- ==== Sys2Proof/Machine/Kernels.lean ====
section
/-!
DEFINITION. Kernels (R147 to R162): the handle and the conditional word, expansion along the curve, time limits, the end of
tasks, and completion.
-/

namespace Sys2Proof.Machine

open Sys2Proof

/-! ## Ready and Expanding (R149 to R151) -/

/-- The lowest free launch handle of 1,024 (R150). -/
def State.freeHandle (s : State) : Option Nat :=
  (List.range 1024).find? fun h => !s.kernels.any fun k => k.handle == some h

/-- A Ready kernel has its handle: it expands, or is cancelled (R149). DESIGN CHOICE (log 161): every point of its grid counts as live from
here on. -/
def State.startKernel (s : State) (kid h : Nat) (go : Bool) : State :=
  s.modKernel kid fun k =>
    let n := k.lr.points
    if go then { k with handle := some h, st := 3, live := n, counted := 16 * (k.lr.warps + 1) * n }
    else { k with handle := some h, st := 9 }

/-- KERNEL_START (R149, R150): COND is read when the handle is taken. -/
def execKernelStart (kid : Nat) (s : State) : Out :=
  s.keeping <|
  match s.kernel? kid, s.freeHandle with
  | some k, some h =>
    if k.st = 2 ∧ s.mayRun k.ctx = true ∧ s.recordRoom k.ctx = true then
      if k.lr.cond = 0 then .next (s.startKernel kid h true)
      else
        match s.agentRead (.kernel kid) 0 k.ctx .load k.lr.cond.toNat 4 4 with
        | (.waits, s) => .next s
        | (.ok v, s) => .next ((s.startKernel kid h (v != 0)).dropAnswers (.kernel kid))
        | (.fail _, s) =>
          .next (((s.startKernel kid h false).dependenceRecord k.ctx kid k.lr.cond.toNat).dropAnswers (.kernel kid))
    else .next s
  | _, _ => .next s

/-- The dimensions in the sequence of ORDER (R144). -/
def orderDims (order : Nat) : List Nat :=
  match order with
  | 0 => [0, 1, 2]
  | 1 => [0, 2, 1]
  | 2 => [1, 0, 2]
  | 3 => [1, 2, 0]
  | 4 => [2, 0, 1]
  | _ => [2, 1, 0]

/-- Bits that the coordinates below an extent need. -/
def extentBits (n : Nat) : Nat := if n ≤ 1 then 0 else Nat.log2 (n - 1) + 1

/-- The dimensions to which the bits of a Morton code belong, from the lowest bit up, with the place of each bit (R154). -/
def mortonBits (bits : List (Nat × Nat)) : List (Nat × Nat) :=
  (List.range 32).flatMap fun l => (bits.filter fun b => decide (l < b.2)).map fun b => (b.1, l)

/-- The coordinate of a dimension in a Morton code. -/
def mortonCoord (bs : List (Nat × Nat)) (code dim : Nat) : Nat :=
  (bs.zipIdx.map fun p => if p.1.1 = dim ∧ code.testBit p.2 = true then 2 ^ p.1.2 else 0).sum

/-- The point at distance `t` on the Hilbert curve, built from squares of side 1 up (R154): from (0, 0) to (side - 1, 0). -/
def hilbertPoint : Nat → Nat → Nat → Nat → Nat → Nat × Nat
  | 0, _, _, x, y => (x, y)
  | n + 1, s, t, x, y =>
    let rx := t / 2 % 2
    let ry := (t + rx) % 2
    let flipped := if rx = 1 then (s - 1 - x, s - 1 - y) else (x, y)
    let r := if ry = 0 then (flipped.2, flipped.1) else (x, y)
    hilbertPoint n (2 * s) (t / 4) (r.1 + s * rx) (r.2 + s * ry)

/-- The three extents of a grid. -/
def LaunchRec.extent (r : LaunchRec) (dim : Nat) : Nat := if dim = 0 then r.gx else if dim = 1 then r.gy else r.gz

/-- The point at a place on the curve of a launch (R154), inside or outside the grid; affinity takes the Morton order. -/
def LaunchRec.curvePoint (r : LaunchRec) (code : Nat) : Nat × Nat × Nat :=
  let ds := orderDims r.order
  if r.place = 1 then
    let a := ds.getD 0 0
    let b := ds.getD 1 0
    let n := max (extentBits (r.extent a)) (extentBits (r.extent b))
    let p := hilbertPoint n 1 (code % 4 ^ n) 0 0
    let at_ (d : Nat) : Nat := if d = a then p.1 else if d = b then p.2 else code / 4 ^ n
    (at_ 0, at_ 1, at_ 2)
  else
    let bs := mortonBits (ds.map fun d => (d, extentBits (r.extent d)))
    (mortonCoord bs code 0, mortonCoord bs code 1, mortonCoord bs code 2)

/-- The point lies in the grid. -/
def LaunchRec.inGrid (r : LaunchRec) (p : Nat × Nat × Nat) : Bool :=
  decide (p.1 < r.gx) && decide (p.2.1 < r.gy) && decide (p.2.2 < r.gz)

/-- The record of a grid point (R151, R152). -/
def Kernel.gridRecord (k : Kernel) (p : Nat × Nat × Nat) : Cont :=
  { id := 0, w0 := BitVec.ofNat 64 (k.args.toNat / 64 % 2 ^ 50 + k.handle.getD 0 * 2 ^ 50), w1 := 0, w2 := 0, w3 := 0, kid := k.id,
    index := p.1 + k.lr.gx * (p.2.1 + k.lr.gy * p.2.2), coord := some p, counted := true, told := [], met := [], slot := 0 }

/-- A kernel whose last task has ended drains; the trigger add comes first if it is still owed (R147). -/
def State.lastEnded (s : State) (kid : Nat) : State :=
  match s.kernel? kid with
  | none => s
  | some k =>
    if k.live = 0 ∧ (k.st = 4 ∨ k.st = 5) then
      let s := if k.trigDone then s else s.distributorAdd k.ctx kid k.lr.trigsg.toNat k.lr.trigamt
      s.modKernel kid fun k => { k with st := 6, trigDone := true }
    else s

/-- Places on the curve that one step of expansion looks at. -/
def curveSteps : Nat := 4096

/-- Expansion along the curve while the queue has room (R151, R154). -/
def State.expand (s : State) (kid : Nat) : Nat → State
  | 0 => s
  | n + 1 =>
    match s.kernel? kid with
    | none => s
    | some k =>
      if k.st ≠ 3 then s
      else if k.lr.points ≤ k.pushed then ((s.modKernel kid fun k => { k with st := 4 }).trigger kid).lastEnded kid
      else if (s.ctx k.ctx).cqCap ≤ (s.ctx k.ctx).cq.length then s
      else
        let p := k.lr.curvePoint k.curve
        let s := s.modKernel kid fun k => { k with curve := k.curve + 1 }
        if k.lr.inGrid p then
          let s := s.modKernel kid fun k => { k with pushed := k.pushed + 1 }
          let s := s.pushCont k.ctx { k.gridRecord p with id := s.nextId }
          ({ s with nextId := s.nextId + 1 } : State).expand kid n
        else s.expand kid n

/-- KERNEL_EXPANSION (R151): it goes on as long as the continuation queue has room. -/
def execKernelExpansion (kid : Nat) (s : State) : Out :=
  s.keeping <|
  match s.kernel? kid with
  | some k => if k.st = 3 ∧ s.mayRun k.ctx = true ∧ s.recordRoom k.ctx = true then .next (s.expand kid curveSteps) else .next s
  | none => .next s

/-! ## Time limits (R159) -/

/-- TASK_TIMEOUT: the timer of a task has expired; every warp of it is suspended at its next instruction (R159, R355). -/
def execTaskTimeout (task : Nat) (s : State) : Out :=
  s.keeping <|
  match s.task? task with
  | some t =>
    if t.timer = some 0 ∧ t.core.isSome = true ∧ t.ended = false ∧ s.mayRun t.ctx = true then
      let late (w : Warp) : Warp := if w.st = .done then w else { w with pendTimeout := true }
      .next ((s.modTask task fun t => { t with timer := none, warps := t.warps.map late }).takePending task)
    else .next s
  | none => .next s

/-! ## The end of a task (R158) -/

/-- Every warp of a task is Done. -/
def Task.allDone (t : Task) : Bool := t.warps.all fun w => w.st == .done

/-- A command of a task is queued or runs, or a DRAIN of it is not complete (R158). -/
def State.commandsLeft (s : State) (t : Task) : Bool :=
  !t.cmds.isEmpty || (vlist s.cores).any fun c =>
    (c.copy.queue.any fun x => x.task == t.id) || (c.xform.queue.any fun x => x.task == t.id)
      || c.drains.any fun x => x.task == t.id

/-- A task ends: its position, lanes, tiles, planes and slots are free (R158). -/
def State.endTask (s : State) (t : Task) : State :=
  let s := s.modTask t.id fun t => { t with ended := true }
  (s.modKernel t.kid fun k => { k with live := k.live - 1 }).lastEnded t.kid

/-- The KILLED record of a task (R351). -/
def State.killedRecord (s : State) (t : Task) : FaultRec :=
  { cause := .killed, source := 5, seqv := false, macv := false, coord := false, mslot := 0, unit := 255,
    handle := t.handle 0, tmask := 0, done := 0, seq := 0, pc := 0, addr := 0, bitoff := 0, tag := s.tagOf t, extra := 0, aux := 0,
    time := s.timeNs, src := (0, 0) }

/-- A store of a task to a peer is not acknowledged. -/
def State.storesOut (s : State) (task : Nat) : Bool :=
  s.outstanding.any fun (o : Outstanding) => match o.who with
    | .store t _ => t == task
    | _ => false

/-- An ended task whose commands are complete frees its storage, and its JOIN is made, a release of what its warps have stored (R158,
R370). -/
def State.clearTask (s : State) (task : Nat) : State :=
  match s.task? task with
  | none => s
  | some t =>
    let need := (if t.owes then 1 else 0) + 1
    if t.ended && !s.commandsLeft t && !s.storesOut task && decide ((s.ctx t.ctx).rbuf.length + need ≤ 256) then
      let s := if t.owes then s.bufferRecord t.ctx (s.killedRecord t) else s
      let s := s.distributorAdd t.ctx t.kid t.join.toNat 1
      { s with tasks := s.tasks.filter fun (x : Task) => x.id != task }
    else s

/-- TASK_END (R158). -/
def execTaskEnd (task : Nat) (s : State) : Out :=
  s.keeping <|
  match s.task? task with
  | some t =>
    if s.agentsRun t.ctx && s.recordRoom t.ctx then
      let s := if !t.ended && (t.core.isSome || t.owes) && t.allDone then s.endTask t else s
      .next (s.clearTask task)
    else .next s
  | none => .next s

/-! ## Completion (R162) -/

/-- The JOIN adds that a Faulted kernel owes for records it discarded, as long as a failure can be reported (R158). -/
def State.payJoins (s : State) (kid : Nat) : Nat → State
  | 0 => s
  | n + 1 =>
    match s.kernel? kid with
    | none => s
    | some k =>
      match k.joins with
      | [] => s
      | va :: rest =>
        if s.recordRoom k.ctx then
          ((s.modKernel kid fun k => { k with joins := rest }).distributorAdd k.ctx kid va.toNat 1).payJoins kid n
        else s

/-- The status word of a kernel that is over: 1 Complete, 2 Faulted, 3 Cancelled (R162). -/
def Kernel.status (k : Kernel) : Nat := if k.st = 6 then 1 else if k.st = 8 then 2 else 3

/-- The kernel's tasks have ended and their commands and stores are complete (R147, R162), with room for the records of its last acts. -/
def State.kernelOver (s : State) (k : Kernel) : Bool :=
  (k.st == 6 || k.st == 8 || k.st == 9) && k.handle.isSome && k.live == 0 && k.joins.isEmpty
    && !(s.tasks.any fun t => t.kid == k.id) && decide ((s.ctx k.ctx).rbuf.length + 3 ≤ 256)

/-- The trigger add of a kernel that is over, if it is still owed. -/
def State.lastTrigger (s : State) (k : Kernel) : State :=
  if k.trigDone then s
  else (s.distributorAdd k.ctx k.id k.lr.trigsg.toNat k.lr.trigamt).modKernel k.id fun k => { k with trigDone := true }

/-- The status word of a kernel that is over. -/
def State.writeStatus (s : State) (k : Kernel) : State :=
  let va := k.lr.status.toNat
  let s := if k.statusDone ∨ va = 0 then s
    else
      match s.agentWrite .launchDependence k.id k.ctx va 8 k.status with
      | (none, s) => s
      | (some _, s) => s.dependenceRecord k.ctx k.id va
  s.modKernel k.id fun k => { k with statusDone := true }

/-- The last acts of a kernel (R162): the trigger add if it is owed, the status word, the completion add, and the handle. Each waits until
the peers have acknowledged those before it (R370). -/
def State.completeKernel (s : State) (k : Kernel) : State :=
  let s := s.lastTrigger k
  if s.agentsOut k.id then s
  else
    let s := s.writeStatus k
    if s.agentsOut k.id then s
    else
      let s := s.distributorAdd k.ctx k.id k.lr.donesg.toNat k.lr.doneamt
      s.modKernel k.id fun k => { k with handle := none, st := if k.st = 6 then 7 else k.st }

/-- KERNEL_COMPLETE (R147, R149, R162). -/
def execKernelComplete (kid : Nat) (s : State) : Out :=
  s.keeping <|
  match s.kernel? kid with
  | some k =>
    if s.agentsRun k.ctx then
      let s := s.payJoins kid k.joins.length
      match s.kernel? kid with
      | some k => .next (if s.kernelOver k then s.completeKernel k else s)
      | none => .next s
    else .next s
  | none => .next s

end Sys2Proof.Machine
end

