-- ==== Sys2Proof/Machine/Layout.lean ====
section
/-!
DEFINITION. The records of the save image (R345): the places of the fields of a warp, of planes, of code tables and of engine
commands, which the debug space shows too (R377). Where a field lies within its record is the model's choice (log 30).
-/

namespace Sys2Proof.Machine

open Sys2Proof

/-- The causes in the order of their codes (R361). -/
def Cause.all : List Cause :=
  [.trapSoftware, .breakpoint, .hwBreakpoint, .watchpoint, .singleStep, .illegalOpcode, .reservedField,
   .illegalSelector, .latchMisuse, .privileged, .uniformMisuse, .typeInvalid, .macroInvalid, .macroParam,
   .profile, .fpTrap, .fetchNotPresent, .fetchPermission, .fetchParity, .lineWordReserved, .branchTarget,
   .misalignedPc, .regionRecord, .regionLength, .returnTarget, .sumpConfig, .sumpOverflow, .sumpState,
   .triggerTwice, .ifetchPoison, .guardInvalid, .taskTimeout, .notPresent, .permissionRead,
   .permissionWrite, .misaligned, .privilegedPage, .compPageStore, .sgPageMisuse, .notSgPage,
   .scratchRange, .vaultRange, .debugSpace, .pageTableFormat, .dataPoison, .atomicUnsupported,
   .reductionWindow, .remoteUnreachable, .sgOverflow, .sgWaitTimeout, .barrierState, .barrierOverrun,
   .groupSlot, .wsyncMask, .wsyncExited, .ringMisuse, .sectionUnderflow, .sectionDepth, .gpWaitInSection,
   .sectionRequired, .dfqInvalid, .stageMisuse, .launchDependence, .joinMisuse, .planeNotOwned,
   .tileNotOwned, .shapeRange, .formatMismatch, .sparseMeta, .matrixReset, .drainFormat, .accRange,
   .copyInvalid, .copyFault, .xformInvalid, .xformFault, .enginePoison, .copySchedule, .osrInvalid,
   .hadamardShape, .decodeHeader, .decodeCode, .decodeLength, .decodeCheck, .decodeTableTag, .decodeScale,
   .codeTableInvalid, .bixEntry, .poolExhausted, .tdescInvalid, .launchInvalid, .queueEntry,
   .contextProfile, .linkError, .uncorrectableState, .killed]
/-- The cause of a code. -/
def Cause.ofCode (n : Nat) : Option Cause := Cause.all[n]?

/-! ## Fields -/

/-- A field of a record: its bytes, its value, the record with another value, and the values it may hold. -/
structure Field (α : Type) where
  n : Nat
  get : α → Nat
  set : α → Nat → α
  ok : Nat → Bool

/-- A field that may hold every value of its bytes. -/
def Field.any {α : Type} (n : Nat) (get : α → Nat) (set : α → Nat → α) : Field α :=
  { n := n, get := get, set := set, ok := fun _ => true }

/-- A field whose values are at most `hi`. -/
def Field.upTo {α : Type} (n hi : Nat) (get : α → Nat) (set : α → Nat → α) : Field α :=
  { n := n, get := get, set := set, ok := fun v => decide (v ≤ hi) }

/-- A field of one bit. -/
def Field.flag {α : Type} (get : α → Bool) (set : α → Bool → α) : Field α :=
  .upTo 1 1 (fun x => (get x).toNat) fun x v => set x (v == 1)

/-- A field that is never zero. -/
def Field.positive {α : Type} (n : Nat) (get : α → Nat) (set : α → Nat → α) : Field α :=
  { n := n, get := get, set := set, ok := fun v => v != 0 }

/-- Bytes without a meaning: they read as zero. -/
def Field.pad {α : Type} (n : Nat) : Field α := { n := n, get := fun _ => 0, set := fun x _ => x, ok := fun _ => true }

/-- The bytes of a record. -/
def imageOf {α : Type} (fs : List (Field α)) (x : α) : List Byte := fs.flatMap fun f => toBytes f.n (f.get x)

/-- A record with the values that bytes give its fields, and whether each is within its limits. -/
def loadOf {α : Type} : List (Field α) → List Byte → α → Bool × α
  | [], _, x => (true, x)
  | f :: fs, bs, x =>
    let v := ofBytes (bs.take f.n)
    let r := loadOf fs (bs.drop f.n) (f.set x v)
    (f.ok v && r.1, r.2)

/-- Bytes cut or filled with zeros to a length. -/
def fitBytes (n : Nat) (bs : List Byte) : List Byte := (bs ++ List.replicate (n - bs.length) 0).take n

/-- Numbers of given sizes read from bytes in order. -/
def readNums : List Nat → List Byte → List Nat
  | [], _ => []
  | n :: ns, bs => ofBytes (bs.take n) :: readNums ns (bs.drop n)

/-- Numbers written with given sizes in order. -/
def putNums (xs : List (Nat × Nat)) : List Byte := xs.flatMap fun x => toBytes x.1 x.2

/-! ## Threads (64 bytes each) -/

/-- The code of a latch's state. -/
def LatchState.code : LatchState → Nat
  | .cleared => 0
  | .valid => 1
  | .lost => 2

/-- The state of a code. -/
def LatchState.ofCode (n : Nat) : LatchState := if n = 1 then .valid else if n = 2 then .lost else .cleared

/-- The states of four latches in a byte. -/
def latchCodes (k : Vector Latch 4) : Nat := ((vlist k).zipIdx.map fun p => p.1.st.code * 4 ^ p.2).sum

/-- The four states in a byte are legal. -/
def latchCodesOk (v : Nat) : Bool := (List.range 4).all fun i => v / 4 ^ i % 4 != 3

/-- Latches with the states of a byte. -/
def setLatchCodes (k : Vector Latch 4) (v : Nat) : Vector Latch 4 :=
  (List.range 4).foldl (fun (k : Vector Latch 4) (i : Nat) =>
    vmod k i fun (l : Latch) => { l with st := .ofCode (v / 4 ^ i % 4) }) k

/-- The value of a latch replaced. -/
def setLatchVal (k : Vector Latch 4) (i v : Nat) : Vector Latch 4 :=
  vmod k i fun (l : Latch) => { l with val := BitVec.ofNat 64 v }

/-- The flags of a thread and its region: inside (the full-state flag of R345), committed, many, replayed, triggered, and waiting
at a WSYNC; the entry is the wait half of a GBAR, and the thread stands there (R181). -/
def Thread.flagBits (th : Thread) : Nat :=
  let b (x : Bool) (n : Nat) := if x then n else 0
  b th.region.inside 1 + b th.region.committed 2 + b th.region.many 4 + b th.region.replayed 8 + b th.triggered 16
    + b th.wsync.isSome 32 + b th.region.half 64 + b th.atHalf 128

/-- The flags of a thread set. -/
def Thread.setFlagBits (th : Thread) (v : Nat) : Thread :=
  { th with
    region := { th.region with
      inside := v.testBit 0, committed := v.testBit 1, many := v.testBit 2, replayed := v.testBit 3, half := v.testBit 6 }
    triggered := v.testBit 4
    wsync := if v.testBit 5 then some (th.wsync.getD (0, 0)) else none
    atHalf := v.testBit 7 }

/-- The stochastic state that a region's entry holds (R99); a thread in no region has the one that runs. -/
def Region.copied (r : Region) (seed : W32) : W32 := if r.inside then r.seed else seed

/-- The fields of a thread. -/
def threadFields : List (Field Thread) :=
  [ .any 7 (fun th => th.pc.toNat) fun th v => { th with pc := BitVec.ofNat 64 v },
    .any 7 (fun th => th.region.entry.toNat) fun th v => { th with region := { th.region with entry := BitVec.ofNat 64 v } },
    .any 1 Thread.flagBits Thread.setFlagBits,
    { n := 1, get := fun th => latchCodes th.k, set := fun th v => { th with k := setLatchCodes th.k v }, ok := latchCodesOk } ]
  ++ ((List.range 4).map fun i =>
    Field.any 8 (fun (th : Thread) => (vget th.k i .cleared).val.toNat) fun th v => { th with k := setLatchVal th.k i v })
  ++ [ .upTo 1 127 (fun th => th.p.toNat) fun th v => { th with p := BitVec.ofNat 8 v },
    .positive 4 (fun th => th.seed.toNat) fun th v => { th with seed := BitVec.ofNat 32 v },
    .positive 4 (fun th => (th.region.copied th.seed).toNat) fun th v =>
      { th with region := { th.region with seed := BitVec.ofNat 32 v } },
    .any 4 (fun th => match th.wsync with
      | some x => x.1.toNat
      | none => 0) fun th v => { th with wsync := th.wsync.map fun x => (BitVec.ofNat 32 v, x.2) },
    .upTo 1 63 (fun th => match th.wsync with
      | some x => x.2
      | none => 0) fun th v => { th with wsync := th.wsync.map fun x => (x.1, v) },
    .upTo 1 64 (fun th => th.region.count) fun th v => { th with region := { th.region with count := v } },
    .pad 1 ]

/-- The thread in its producer's place: region, wait at a WSYNC and half of a GBAR. -/
def Thread.asProducer (th : Thread) : Thread :=
  { th with region := th.prod.region, wsync := th.prod.wsync, atHalf := th.prod.atHalf, triggered := false }

/-- What a warp record holds of a producer that a sump loop keeps (R250, R345): its PC and the states of its latches. -/
def producerFields : List (Field Thread) :=
  [ .any 7 (fun th => th.prod.pc.toNat) fun th v => { th with prod := { th.prod with pc := BitVec.ofNat 64 v } },
    { n := 1, get := fun th => latchCodes th.prod.k,
      set := fun th v => { th with prod := { th.prod with k := setLatchCodes th.prod.k v } }, ok := latchCodesOk } ]

/-- The rest of a producer, 64 bytes, for which the stated size of a warp record leaves no room (log 31). -/
def producerRest : List (Field Thread) :=
  [ .any 7 (fun th => th.prod.region.entry.toNat) fun th v =>
      { th with prod := { th.prod with region := { th.prod.region with entry := BitVec.ofNat 64 v } } },
    .any 1 (fun th => th.asProducer.flagBits) fun th v =>
      let x := th.asProducer.setFlagBits v
      { th with prod := { th.prod with region := x.region, wsync := x.wsync, atHalf := x.atHalf } } ]
  ++ ((List.range 4).map fun i =>
    Field.any 8 (fun (th : Thread) => (vget th.prod.k i .cleared).val.toNat) fun th v =>
      { th with prod := { th.prod with k := setLatchVal th.prod.k i v } })
  ++ [ .positive 4 (fun th => (th.prod.region.copied th.seed).toNat) fun th v =>
         { th with prod := { th.prod with region := { th.prod.region with seed := BitVec.ofNat 32 v } } },
       .any 4 (fun th => match th.prod.wsync with
         | some x => x.1.toNat
         | none => 0) fun th v => { th with prod := { th.prod with wsync := th.prod.wsync.map fun x => (BitVec.ofNat 32 v, x.2) } },
       .upTo 1 63 (fun th => match th.prod.wsync with
         | some x => x.2
         | none => 0) fun th v => { th with prod := { th.prod with wsync := th.prod.wsync.map fun x => (x.1, v) } },
       .upTo 1 64 (fun th => th.prod.region.count) fun th v =>
         { th with prod := { th.prod with region := { th.prod.region with count := v } } },
       .pad 14 ]

/-- The tiles of a mask. -/
def tilesOf (m : Nat) : List Nat := (List.range 64).filter fun i => m.testBit i

/-- What a record of 64 bytes a thread has no room for of a region, 192 bytes (log 31): its live-in record, the tiles it has read and the
lines it has touched. -/
def regionRest (get : Thread → Region) (set : Thread → Region → Thread) : List (Field Thread) :=
  let on (n hi : Nat) (f : Region → Nat) (g : Region → Nat → Region) : Field Thread :=
    .upTo n hi (fun th => f (get th)) fun th v => set th (g (get th) v)
  [ on 16 (2 ^ 128) (fun r => r.live.g.toNat) fun r v => { r with live := { r.live with g := BitVec.ofNat 128 v } },
    on 8 (2 ^ 64) (fun r => r.live.s.toNat) fun r v => { r with live := { r.live with s := BitVec.ofNat 64 v } },
    on 1 127 (fun r => r.live.p.toNat) fun r v => { r with live := { r.live with p := BitVec.ofNat 8 v } },
    on 1 127 (fun r => r.live.q.toNat) fun r v => { r with live := { r.live with q := BitVec.ofNat 8 v } },
    on 8 (2 ^ 64) (fun r => (r.tiles.map fun i => 2 ^ (i % 64)).sum) fun r v => { r with tiles := tilesOf v },
    on 1 16 (fun r => r.lines.length) fun r v => { r with lines := List.replicate v (0, 0) } ]
  ++ ((List.range 16).map fun i =>
    on 8 (2 ^ 64) (fun r => let x := r.lines.getD i (0, 0); x.1 * 2 ^ 56 + x.2 % 2 ^ 56) fun r v =>
      { r with lines := r.lines.set i (v / 2 ^ 56, v % 2 ^ 56) })
  ++ [.pad 29]

/-- A field of a thread as a field of its warp. -/
def Field.onThread (t : Tid) (f : Field Thread) : Field Warp :=
  { n := f.n, get := fun w => f.get (w.thread t), set := fun w v => w.modThread t fun th => f.set th v, ok := f.ok }

/-! ## Warps -/

/-- The code of a warp's state. -/
def WarpState.code : WarpState → Nat
  | .ready => 0
  | .running => 1
  | .blocked => 2
  | .suspended => 3
  | .done => 4

/-- The state of a code. -/
def WarpState.ofCode (n : Nat) : WarpState :=
  match n with
  | 0 => .ready
  | 1 => .running
  | 2 => .blocked
  | 3 => .suspended
  | _ => .done

/-- The sump mode of a code (R245). -/
def SumpMode.ofCode (n : Nat) : SumpMode :=
  match n with
  | 0 => .inactive
  | 1 => .producing
  | 2 => .consuming
  | _ => .draining

/-- A group slot in 20 bytes. -/
def groupBits (g : Option GroupSlot) : Nat :=
  match g with
  | none => 0
  | some x => ofBytes (putNums [(1, 1), (1, x.num), (8, x.bar.toNat), (4, x.nmem), (4, x.rank)])

/-- The group slot of 20 bytes. -/
def groupOfBits (v : Nat) : Option GroupSlot :=
  if bitsOf v 7 0 = 0 then none
  else some { num := bitsOf v 15 8, bar := BitVec.ofNat 64 (bitsOf v 79 16), nmem := bitsOf v 111 80, rank := bitsOf v 143 112 }

/-- A macro position in 6 bytes: macro, slot, and the supplied selectors; slot 0xFF stands for none. -/
def macroBits (m : Option MacroPos) : Nat :=
  match m with
  | none => 0xFF00
  | some x => ofBytes (putNums [(1, x.num), (1, x.slot), (1, x.m0.toNat), (1, x.m1.toNat), (1, x.m2.toNat), (1, x.m3.toNat)])

/-- The macro position of 6 bytes, its body from the macros loaded. -/
def macroOfBits (macros : List (Nat × List InstrWord)) (v : Nat) : Option MacroPos :=
  if bitsOf v 15 8 = 0xFF then none
  else
    some { num := bitsOf v 7 0, slot := bitsOf v 15 8, m0 := BitVec.ofNat 8 (bitsOf v 23 16),
           m1 := BitVec.ofNat 8 (bitsOf v 31 24), m2 := BitVec.ofNat 8 (bitsOf v 39 32), m3 := BitVec.ofNat 8 (bitsOf v 47 40),
           body := match macros.find? fun m => m.1 == bitsOf v 7 0 with
             | some m => m.2
             | none => [] }

/-- A suspension in 7 bytes. -/
def suspBits (x : Option Suspension) : Nat :=
  match x with
  | none => 0
  | some x => ofBytes (putNums [(1, 1), (1, x.cause.code), (2, x.skip.toNat), (1, x.pushed.toNat + 2 * x.resumed.toNat), (2, x.ran.toNat)])

/-- The suspension of 7 bytes. -/
def suspOfBits (v : Nat) : Option Suspension :=
  if bitsOf v 7 0 = 0 then none
  else
    (Cause.ofCode (bitsOf v 15 8)).map fun c =>
      { cause := c, skip := BitVec.ofNat 16 (bitsOf v 31 16), pushed := v.testBit 32, resumed := v.testBit 33,
        ran := BitVec.ofNat 16 (bitsOf v 55 40) }

/-- SUMPST and SUMPMK (R245). -/
def Sump.status (x : Sump) : W64 :=
  BitVec.ofNat 64 (x.mode.code * 2 ^ 62 + (if x.mode = .inactive then 0 else x.head % 512) * 2 ^ 26 + x.count % 1024 * 2 ^ 16 + x.done.toNat)
def Sump.masks (x : Sump) : W64 := BitVec.ofNat 64 (x.cmask.toNat * 2 ^ 16 + x.rmask.toNat)

/-- The last word of the latched descriptor (R242): BASE, CAP, HIGH and WM1. -/
def Sump.limits (x : Sump) : Nat := x.base % 2 ^ 32 + x.cap % 1024 * 2 ^ 32 + x.high % 1024 * 2 ^ 42 + (x.width - 1) % 4 * 2 ^ 52

/-- A sump with the limits of a word; a word of zeros is that of no descriptor. -/
def Sump.setLimits (x : Sump) (v : Nat) : Sump :=
  { x with base := bitsOf v 31 0, cap := bitsOf v 41 32, high := bitsOf v 51 42, width := if v = 0 then 0 else bitsOf v 53 52 + 1 }

/-- The state of a sump as SUMPST and SUMPMK show it, and the descriptor as R242 lays it out: 48 bytes (R245, R345). -/
def sumpFields : List (Field Warp) :=
  let on (n : Nat) (ok : Nat → Bool) (get : Sump → Nat) (set : Sump → Nat → Sump) : Field Warp :=
    { n := n, get := fun w => get w.sump, set := fun w v => { w with sump := set w.sump v }, ok := ok }
  let isPc (v : Nat) : Bool := decide (v < 2 ^ 56)
  [ on 8 (fun v => bitsOf v 61 35 == 0 && decide (bitsOf v 25 16 ≤ 512)) (fun x => x.status.toNat) fun x v =>
      { x with mode := .ofCode (v / 2 ^ 62), head := bitsOf v 34 26, count := bitsOf v 25 16, done := BitVec.ofNat 16 v },
    on 8 (fun v => decide (v < 2 ^ 32)) (fun x => x.masks.toNat) fun x v =>
      { x with cmask := BitVec.ofNat 16 (v / 2 ^ 16), rmask := BitVec.ofNat 16 v },
    on 8 isPc (fun x => x.pe.toNat) fun x v => { x with pe := BitVec.ofNat 64 v },
    on 8 isPc (fun x => x.ce.toNat) fun x v => { x with ce := BitVec.ofNat 64 v },
    on 8 isPc (fun x => x.xe.toNat) fun x v => { x with xe := BitVec.ofNat 64 v },
    on 8 (fun v => decide (v < 2 ^ 54) && decide (bitsOf v 41 32 ≤ 512) && decide (bitsOf v 51 42 ≤ 512)) Sump.limits Sump.setLimits ]

/-- The threads of a mask become the exited ones. -/
def Warp.setExited (w : Warp) (m : Nat) : Warp :=
  allTids.foldl (fun (w : Warp) (t : Tid) => w.modThread t fun th => { th with exited := m.testBit t.val }) w

/-- The fields of a warp: 2,048 bytes. -/
def warpFields (macros : List (Nat × List InstrWord)) : List (Field Warp) :=
  [ .upTo 1 4 (fun w => w.st.code) fun w v => { w with st := .ofCode v },
    .upTo 1 127 (fun w => w.q.toNat) fun w v => { w with q := BitVec.ofNat 8 v },
    .upTo 4 0x7F (fun w => w.flags.toNat) fun w v => { w with flags := BitVec.ofNat 32 v },
    .any 2 (fun w => w.done.toNat) fun w v => { w with done := BitVec.ofNat 16 v },
    .any 2 (fun w => (maskOf (allTids.filter fun t => (w.thread t).exited)).toNat) Warp.setExited,
    .upTo 1 15 (fun w => w.depth) fun w v => { w with depth := v },
    .any 2 (fun w => w.held) fun w v => { w with held := v },
    .flag (fun w => w.mark) fun w b => { w with mark := b },
    .any 8 (fun w => w.gwt.toNat) fun w v => { w with gwt := BitVec.ofNat 64 v } ]
  ++ ((List.range 4).map fun i => ({
    n := 20, get := fun w => groupBits (vget w.groups i none), set := fun w v => { w with groups := vset w.groups i (groupOfBits v) },
    ok := fun v => decide (bitsOf v 7 0 ≤ 1) && decide (v < 2 ^ 144) } : Field Warp))
  ++ ((List.range 16).map fun i =>
    Field.any 8 (fun (w : Warp) => (vget w.implq i 0).toNat) fun w v => { w with implq := vset w.implq i (BitVec.ofNat 64 v) })
  ++ [ { n := 6, get := fun w => macroBits w.mac, set := fun w v => { w with mac := macroOfBits macros v },
         ok := fun v => bitsOf v 15 8 == 0xFF || match macroOfBits macros v with
           | some m => decide (m.slot < m.body.length)
           | none => false } ]
  ++ sumpFields
  ++ [ { n := 7, get := fun w => suspBits w.susp, set := fun w v => { w with susp := suspOfBits v },
         ok := fun v => bitsOf v 7 0 == 0 || (suspOfBits v).isSome },
       .flag (fun w => w.pendTimeout) fun w b => { w with pendTimeout := b },
       { n := 5, get := fun w => match w.pendReset with
           | some x => 1 + x % 2 ^ 32 * 256
           | none => 0, set := fun w v => { w with pendReset := if v % 256 = 0 then none else some (v / 256) },
         ok := fun v => decide (v % 256 ≤ 1) },
       .pad 87 ]
  ++ (allTids.flatMap fun t => producerFields.map (Field.onThread t))
  ++ ((List.range 64).map fun i =>
    Field.any 8 (fun (w : Warp) => (vget w.s i 0).toNat) fun w v => { w with s := vset w.s i (BitVec.ofNat 64 v) })
  ++ allTids.flatMap fun t => threadFields.map (Field.onThread t)

/-- The g registers of an allocation: 64 bytes for each register of a thread. -/
def registerFields (regs : Nat) : List (Field Warp) :=
  allTids.flatMap fun t => (List.range regs).map fun i =>
    Field.onThread t (.any 4 (fun th => (vget th.g i 0).toNat) fun th v => { th with g := vset th.g i (BitVec.ofNat 32 v) })

/-- What a sump loop adds: the inactive bank, 2,048 bytes. -/
def loopFields : List (Field Warp) :=
  allTids.flatMap fun t => (List.range 32).map fun i =>
    Field.onThread t (.any 4 (fun th => (vget th.bank i 0).toNat) fun th v =>
      { th with bank := vset th.bank i (BitVec.ofNat 32 v) })

/-- What a warp record has no room for of its threads' regions: 3,072 bytes (log 31). -/
def warpRest : List (Field Warp) :=
  let fs := regionRest (·.region) fun th r => { th with region := r }
  allTids.flatMap fun t => fs.map (Field.onThread t)

/-- What a warp record has no room for of the producers of a sump loop: 4,096 bytes (log 31). -/
def loopRest : List (Field Warp) :=
  let fs := producerRest ++ regionRest (·.prod.region) fun th r => { th with prod := { th.prod with region := r } }
  allTids.flatMap fun t => fs.map (Field.onThread t)

/-- A sump loop is active (R245). -/
def Warp.looping (w : Warp) : Bool := w.sump.mode != .inactive

/-- The bytes of a warp record (R345). -/
def Warp.recordSize (w : Warp) (regs : Nat) : Nat := 2048 + 64 * regs + (if w.looping then 2048 else 0)

/-- The fields of a warp record. -/
def Warp.recordFields (w : Warp) (regs : Nat) (macros : List (Nat × List InstrWord)) : List (Field Warp) :=
  warpFields macros ++ registerFields regs ++ if w.looping then loopFields else []

/-- A warp record. -/
def Warp.record (w : Warp) (regs : Nat) : List Byte := imageOf (w.recordFields regs []) w

/-- A warp as a record gives it; a value outside its limits marks it (R345, R378). -/
def Warp.load (w : Warp) (regs : Nat) (macros : List (Nat × List InstrWord)) (bs : List Byte) : Warp :=
  let a := loadOf (warpFields macros ++ registerFields regs) (bs.take (2048 + 64 * regs)) w
  let b := if a.2.looping then loadOf loopFields (bs.drop (2048 + 64 * regs)) a.2 else (true, a.2)
  let bad := !(a.1 && b.1) || decide (b.2.sump.cap < b.2.sump.count)
  { b.2 with bad := bad }

/-! ## Code tables (320 bytes) and planes -/

/-- A code-table slot: the table's record of R312, TAG in it, and zeros; a slot without a table is zeros. -/
def slotRecord (x : Option CodeTable) : List Byte :=
  fitBytes 320 (match x with
    | none => []
    | some t => t.record)

/-- The slot of a record, whatever its CHK, which reads as that of what the slot holds. -/
def slotOfRecord (bs : List Byte) : Option CodeTable :=
  if (bs.take 274).all (· == 0) then none
  else
    some { counts := (bs.take 15).map (·.toNat), order := ((bs.drop 16).take 256).map (·.toNat),
           tag := ofBytes ((bs.drop 272).take 2) }

/-- A slot's record is within its limits: zeros, or a valid table's (R312). -/
def slotOk (bs : List Byte) : Bool :=
  bs.all (· == 0) || (tableOfRecord (bs.take 288)).isSome && (bs.drop 288).all (· == 0)

/-- The element bits of a plane. -/
def Plane.bits (p : Plane) : Nat := match Fmt.ofCode p.fmt with
  | some f => f.bits
  | none => 8

/-- Codes packed, lowest first (R48). -/
def packCodes (bits : Nat) (xs : List Nat) : List Byte := toBytes ((xs.length * bits + 7) / 8) (joinElements bits xs)

/-- The state of a plane as a code (R275). -/
def PlaneState.code : PlaneState → Nat
  | .empty => 0
  | .loading => 1
  | .loaded => 2

/-- The state of a code. -/
def PlaneState.ofCode (n : Nat) : PlaneState := if n = 1 then .loading else if n = 2 then .loaded else .empty

/-- The elements that a plane stores in a column (R270). -/
def Plane.stored (p : Plane) : Nat := if p.sparse then p.k / 2 else p.k

/-- The scale words of a column (R270). -/
def Plane.scaleCount (p : Plane) : Nat :=
  if p.unit || decide (p.bits = 16) then 0 else (p.k + (if p.bs32 then 31 else 15)) / (if p.bs32 then 32 else 16)

/-- The bytes of a column's codes, and of its 2:4 positions. -/
def Plane.codeBytes (p : Plane) : Nat := (p.stored * p.bits + 7) / 8
def Plane.metaBytes (p : Plane) : Nat := if p.sparse then (p.stored * 2 + 7) / 8 else 0

/-- The bytes of a column. -/
def Plane.columnBytes (p : Plane) : Nat := p.codeBytes + p.metaBytes + 4 * p.scaleCount

/-- A column: its codes, its 2:4 positions and its scale words. -/
def Plane.column (p : Plane) (c : Nat) : List Byte :=
  fitBytes p.codeBytes (packCodes p.bits ((p.cols.getD c []).map (·.2)))
    ++ fitBytes p.metaBytes (packCodes 2 ((p.cols.getD c []).map fun x => x.1 % 4))
    ++ fitBytes (4 * p.scaleCount) ((p.scales.getD c []).flatMap fun w => toBytes 4 w.toNat)

/-- A plane as bytes: 64 bytes of state, format, K, N and flags, then its columns. -/
def Plane.image (p : Plane) : List Byte :=
  fitBytes 64 (putNums [(1, p.st.code), (1, p.fmt), (2, p.k), (2, p.n), (1, p.sparse.toNat + 2 * p.bs32.toNat + 4 * p.unit.toNat)])
    ++ (List.range p.n).flatMap p.column

/-- Bytes of a plane's record, and of what goes on after it: a full plane of 4-bit codes takes the 24 KiB of R345 without its header, and a
2:4 plane more (log 31). -/
def planeBytes : Nat := 24576
def planeRestBytes : Nat := 64 + 128 * 128

/-- A plane's record, and what it has no room for. -/
def Plane.record (p : Plane) : List Byte := fitBytes planeBytes p.image
def Plane.rest (p : Plane) : List Byte := fitBytes planeRestBytes (p.image.drop planeBytes)

/-- A column read from its bytes: the elements with their positions, and the scale words. -/
def Plane.loadColumn (p : Plane) (bs : List Byte) : List (Nat × Nat) × List W32 :=
  let codes := unpackCodes p.bits p.stored bs
  let pos := unpackCodes 2 p.stored (bs.drop p.codeBytes)
  let place (i : Nat) : Nat := if p.sparse then i / 2 * 4 + pos.getD i 0 else i
  (codes.zipIdx.map fun x => (place x.2, x.1),
   (readNums (List.replicate p.scaleCount 4) (bs.drop (p.codeBytes + p.metaBytes))).map fun v => BitVec.ofNat 32 v)

/-- A plane read from its bytes. -/
def Plane.ofBytes (bs : List Byte) : Plane :=
  match readNums [1, 1, 2, 2, 1] bs with
  | [st, fmt, k, n, flags] =>
    let p : Plane :=
      { st := .ofCode st, fmt := fmt, k := k, n := n, sparse := flags.testBit 0, bs32 := flags.testBit 1, unit := flags.testBit 2,
        cols := [], scales := [] }
    if st = 0 then .empty_
    else
      let cs := (List.range n).map fun c => p.loadColumn ((bs.drop (64 + p.columnBytes * c)).take p.columnBytes)
      { p with cols := cs.map (·.1), scales := cs.map (·.2) }
  | _ => .empty_

/-- The shape that a plane's header gives is within its limits (R270); `loading`: a load of the plane is under way. -/
def planeOk (loading : Bool) (bs : List Byte) : Bool :=
  match readNums [1, 1, 2, 2, 1] bs with
  | [st, fmt, k, n, flags] =>
    let bits := match Fmt.ofCode fmt with
      | some f => f.bits
      | none => 8
    st == 0 || ((st == 2 || (st == 1 && loading)) && decide (1 ≤ fmt) && decide (fmt ≤ 8) && decide (1 ≤ n) && decide (n ≤ 128)
      && decide (flags < 8) && decide (k * bits ≤ (if flags.testBit 0 then 2048 else 1024)))
  | _ => false

/-! ## Engine commands (576 bytes each) -/

/-- The operands of a command: their sizes and values. -/
def CmdKind.nums : CmdKind → List (Nat × Nat)
  | .cpy src dst len ss ds ring => [(1, 0), (8, src.toNat), (8, dst.toNat), (8, len), (1, ss), (1, ds), (1, ring.toNat)]
  | .cpy2 src dst sstr dstr rows len ss ds =>
    [(1, 1), (8, src.toNat), (8, dst.toNat), (4, sstr.toNat), (4, dstr.toNat), (8, rows), (8, len), (1, ss), (1, ds)]
  | .cpyt src dst pool count => [(1, 2), (8, src.toNat), (8, dst.toNat), (8, pool.toNat), (4, count)]
  | .xform form tx ty raw stride space count a b table slot mode fine src =>
    [(1, 3), (1, form), (4, tx), (4, ty), (8, raw.toNat), (4, stride.toNat), (1, space), (4, count), (64, a.toNat), (64, b.toNat),
     (320, ofBytes (slotRecord table)), (1, slot), (1, mode), (1, fine.toNat), (1, src)]

/-- The operands of a command from bytes. -/
def CmdKind.ofBytes (bs : List Byte) : Option CmdKind :=
  let w (v : Nat) : W64 := BitVec.ofNat 64 v
  let h (v : Nat) : W32 := BitVec.ofNat 32 v
  match bs.getD 0 0 with
  | 0 => match readNums [1, 8, 8, 8, 1, 1, 1] bs with
    | [_, src, dst, len, ss, ds, ring] => some (.cpy (w src) (w dst) len ss ds (ring == 1))
    | _ => none
  | 1 => match readNums [1, 8, 8, 4, 4, 8, 8, 1, 1] bs with
    | [_, src, dst, sstr, dstr, rows, len, ss, ds] => some (.cpy2 (w src) (w dst) (h sstr) (h dstr) rows len ss ds)
    | _ => none
  | 2 => match readNums [1, 8, 8, 8, 4] bs with
    | [_, src, dst, pool, count] => some (.cpyt (w src) (w dst) (w pool) count)
    | _ => none
  | 3 => match readNums [1, 1, 4, 4, 8, 4, 1, 4, 64, 64, 320, 1, 1, 1, 1] bs with
    | [_, form, tx, ty, raw, stride, space, count, a, b, table, slot, mode, fine, src] =>
      some (.xform form tx ty (w raw) (h stride) space count (BitVec.ofNat 512 a) (BitVec.ofNat 512 b)
        (slotOfRecord (toBytes 320 table)) slot mode (fine == 1) src)
    | _ => none
  | _ => none

/-- A command's record; `x`: of the transform engine. -/
def cmdRecord (x : Bool) (c : EngineCmd) : List Byte :=
  fitBytes 576 (putNums
    [(1, x.toNat), (4, c.seq), (8, c.pc), (1, c.warp), (1, c.priv.toNat), (8, c.csg.toNat), (4, c.amt),
     (1, c.guarded.getD 0xFF), (1, c.hold.toNat), (1, c.fromSched.toNat), (1, c.kept.isSome.toNat), (8, c.kept.getD 0),
     (4, c.progress), (1, c.moved.toNat + 2 * c.dropped.toNat), (1, c.was.isSome.toNat), (16, c.was.getD 0), (4, c.tag.toNat), (1, match c.stopped with
        | some x => 1 + x.1.toNat + 2 * x.2
        | none => 0)] ++ putNums c.kind.nums)

/-- The command of a record, for a task. -/
def cmdOfRecord (task ctx kid : Nat) (bs : List Byte) : Option (Bool × EngineCmd) :=
  match readNums [1, 4, 8, 1, 1, 8, 4, 1, 1, 1, 1, 8, 4, 1, 1, 16, 4, 1] bs, CmdKind.ofBytes (bs.drop 66) with
  | [x, seq, pc, warp, priv, csg, amt, guarded, hold, sched, has, kept, progress, moved, hasWas, was, tag, stopped], some kind =>
    if x ≤ 1 ∧ moved ≤ 3 ∧ (guarded < 32 ∨ guarded = 0xFF) ∧ stopped ≤ 6 then
      let c : EngineCmd :=
        { seq := seq, pc := pc, task := task, warp := warp, ctx := ctx, kid := kid, priv := priv == 1, kind := kind,
          csg := BitVec.ofNat 64 csg, amt := amt, guarded := if guarded = 0xFF then none else some guarded, hold := hold == 1,
          fromSched := sched == 1, kept := if has = 1 then some kept else none, progress := progress, moved := moved % 2 == 1,
          was := if hasWas = 1 then some was else none, wrote := false, dropped := moved / 2 == 1,
          tag := BitVec.ofNat 32 tag,
          stopped := if stopped = 0 then none else some ((stopped - 1) % 2 == 1, (stopped - 1) / 2) }
      some (x == 1, c)
    else none
  | _, _ => none

end Sys2Proof.Machine
end

