-- ==== Sys2Proof/Machine/QueueEvents.lean ====
section
/-!
DEFINITION. The queues (R136 to R141): their registers and commands, the reading and judging of heads, and their
submission in the order of R139.
-/

namespace Sys2Proof.Machine

open Sys2Proof

/-! ## Registers (R136) -/

/-- The number of a state (R136). -/
def QueueState.code : QueueState → Nat
  | .disabled => 0
  | .enabled => 1
  | .running => 2
  | .blocked => 3
  | .errored => 4
  | .suspended => 5
  | .drained => 6

/-- QCTL as it is read. -/
def Queue.ctl (q : Queue) : Nat :=
  q.st.code * 2 ^ 29 + q.dev.toNat * 2 ^ 25 + q.aff.toNat * 2 ^ 24 + q.ctx % 64 * 2 ^ 18 + q.wgt % 16 * 2 ^ 14 + q.pri % 8 * 2 ^ 11

/-- Queues that hold AFF. -/
def State.affCount (s : State) : Nat := ((vlist s.queues).filter fun q => q.aff).length

/-- The RW fields of QCTL written, only while the queue is Disabled; a ninth AFF stays 0 (R136). -/
def State.writeQctlFields (s : State) (q v : Nat) : State :=
  let x := s.queue q
  if x.st ≠ .disabled then s
  else
    let aff := v.testBit 24 && (x.aff || decide (s.affCount < 8))
    s.modQueue q fun x =>
      { x with dev := v.testBit 25, aff := aff, ctx := bitsOf v 23 18, wgt := bitsOf v 17 14, pri := bitsOf v 13 11 }

/-! ## Faults of a queue (R138) -/

/-- The record of a queue: its number, the entry's number, LREC and TAG, and no warp. -/
def State.queueRecordOf (s : State) (q : Nat) (cause : Cause) (n lrec tag : Nat) : FaultRec :=
  { cause := cause, source := 4, seqv := false, macv := false, coord := false, mslot := 0, unit := q, handle := 0, tmask := 0,
    done := 0, seq := 0, pc := 0, addr := lrec, bitoff := 0, tag := tag, extra := 0, aux := n, time := s.timeNs, src := (q, 0) }

/-- The turn of a queue is over (R139). -/
def State.endTurn (s : State) (q : Nat) : State := if s.turn = some q then { s with turn := none } else s

/-- A queue holds no head any more, in another state: its waits are withdrawn, nothing it has asked peers for is awaited, and its turn is
over. -/
def State.dropHead (s : State) (q : Nat) (f : Queue → Queue) : State :=
  ((s.forget (.queue q)).endTurn q).modQueue q fun x => f { x with head := none, age := 0, retiring := 0 }

/-- A queue becomes Errored, and its record waits for the ring of its context (R138). DESIGN CHOICE (log 108): a DRAIN note stays. -/
def State.queueError (s : State) (q : Nat) (cause : Cause) (lrec tag : Nat) : State :=
  let x := s.queue q
  let s := s.dropHead q fun x => { x with st := .errored, told := false, todo := 0 }
  s.queueRecord x.ctx (s.queueRecordOf q cause x.rdpos.toNat lrec tag)

/-- An operation whose failure makes the queue Errored. -/
def Op.orError (q : Nat) (cause : Cause) (lrec tag : Nat) (f : Op Unit) : Op Unit :=
  f.onFail fun _ => Op.modify fun s => s.queueError q cause lrec tag

/-! ## The ring -/

/-- The ring of a queue (R134, R137). -/
def Op.queueRing (q : Nat) : Op RingDesc := do
  let s ← Op.state
  let x := s.queue q
  let va := x.qring.toNat
  let v ← Op.fetchNum (.queue q) x.ctx 0 va 64
  match (if va % 64 = 0 then RingDesc.parse v else none) with
  | some d => if d.slot = 64 ∧ 4 ≤ d.logcap ∧ d.logcap ≤ 16 then return d else Op.moveFail .queueEntry va
  | none => Op.moveFail .queueEntry va

/-- A stalagmite of a queue's context, read at its home (R138, R148). -/
def Op.queueSg (q key va : Nat) : Op Nat := do
  let s ← Op.state
  Op.sgValue (s.agentMover (.queue q) (s.queue q).ctx) key va

/-- The head is retired: REL and QRDPOS grow by 1 (R138). While REL stands at a peer, the retirement `how` is under way. -/
def Op.retireHead (q how : Nat) : Op Unit := do
  Op.modify fun s => s.modQueue q fun x => { x with retiring := how }
  let d ← Op.queueRing q
  let s ← Op.state
  let _ ← Op.sgAddAt (s.agentMover (.queue q) (s.queue q).ctx) 40 d.rel 1
  Op.modify fun s => s.modQueue q fun x =>
    let x := { x with rdpos := x.rdpos + 1, head := none, age := 0, retiring := 0 }
    if x.drain = some x.rdpos.toNat then { x with st := .drained, drain := none } else x

/-- FILL overruns the ring, or is not the count of a DEV queue (R140). -/
def Queue.overrun (x : Queue) (d : RingDesc) (fill : Nat) : Bool :=
  decide (x.rdpos.toNat + 2 ^ d.logcap < fill) || (x.dev && fill != x.appends)

/-- The ring of a queue and its FILL, read while no append is under way. -/
def Op.ringFill (q : Nat) : Op (RingDesc × Nat) := do
  let s ← Op.state
  if (s.queue q).appending.isSome then Op.holdHere
  let d ← Op.queueRing q
  let fill ← Op.queueSg q 21 d.fill
  return (d, fill)

/-- The entries of the ring are as R140 asks: the device's look at FILL, which makes the queue Errored when it overruns the ring or is not
the count of a DEV queue. -/
def Op.checkFill (q : Nat) : Op (RingDesc × Nat) := do
  let r ← Op.ringFill q
  let s ← Op.state
  if (s.queue q).overrun r.1 r.2 then Op.moveFail .queueEntry 0
  return r

/-- LREC and TAG of the head that a queue holds, which its error record carries (R138). -/
def Queue.names (x : Queue) : Nat × Nat := match x.head with
  | some h => (h.lrec.toNat, h.tag.toNat)
  | none => (0, 0)

/-! ## Commands (R141) -/

/-- A record of the queue waits for the ring of a context (R358). -/
def State.queueRecorded (s : State) (q : Nat) : Bool :=
  (List.range 64).any fun c => (s.ctx c).pend.any fun r => r.source == 4 && r.src.1 == q

/-- ENABLE: from Disabled the descriptor is checked and QRDPOS set to REL (R137, R141), once no record of the queue waits (R358) and no
append is under way. DESIGN CHOICE (log 140): the distributor's count of appends starts from FILL. -/
def Op.queueEnable (q : Nat) : Op Unit := do
  let s ← Op.state
  match (s.queue q).st with
  | .disabled =>
    if s.queueRecorded q || (s.queue q).appending.isSome then Op.holdHere
    Op.onFail (do
      let d ← Op.queueRing q
      let rel ← Op.queueSg q 20 d.rel
      let fill ← Op.queueSg q 21 d.fill
      Op.modify fun s => s.modQueue q fun x =>
        { x with st := .enabled, rdpos := BitVec.ofNat 64 rel, appends := fill, drain := none, head := none, age := 0,
                 served := 0 })
      fun _ => Op.modify fun s => s.queueRecord (s.queue q).ctx (s.queueRecordOf q .queueEntry 0 0 0)
  | .drained => Op.modify fun s => s.modQueue q fun x => { x with st := .enabled }
  | _ => pure ()

/-- How SKIP retires the head: as it has begun to, or by whether the ring is overrun as it begins (R140). -/
def Op.skipHow (q : Nat) : Op Nat := do
  let s ← Op.state
  if (s.queue q).retiring ≠ 0 then return (s.queue q).retiring
  let r ← Op.ringFill q
  let s ← Op.state
  return if (s.queue q).overrun r.1 r.2 then 3 else 2

/-- SKIP: an erring head is retired unsubmitted (R141); a queue whose ring was overrun is Errored before it reads on (R140), and one that
has reached the note of a DRAIN is Drained. -/
def Op.queueSkip (q : Nat) : Op Unit := do
  let s ← Op.state
  let x := s.queue q
  if x.st ≠ .errored then return ()
  if !x.told then Op.modify fun s => s.modQueue q fun x => { x with todo := 1 }
  else
    Op.orError q .queueEntry 0 0 (do
      let how ← Op.skipHow q
      Op.retireHead q how
      Op.modify fun s => s.modQueue q fun x => if x.st = .drained then x else { x with st := .enabled }
      if how = 3 then Op.modify fun s => s.queueError q .queueEntry 0 0)

/-- The commands of R141; one not listed for the state is ignored. DESIGN CHOICE (log 160): a DRAIN that cannot read the ring or FILL makes
the queue Errored with QUEUE_ENTRY. -/
def Op.queueCommand (q cmd : Nat) : Op Unit := do
  let s ← Op.state
  let x := s.queue q
  let set (f : Queue → Queue) : Op Unit := Op.modify fun s => s.modQueue q f
  let stop (f : Queue → Queue) : Op Unit := Op.modify fun s => s.dropHead q f
  let serving := x.st == .enabled || x.st == .running || x.st == .blocked
  match cmd with
  | 1 => Op.queueEnable q
  | 2 => if x.st ≠ .disabled then stop fun x => { x with st := .disabled, drain := none }
  | 3 => if serving then stop fun x => { x with st := .suspended }
  | 4 => if x.st = .suspended then set fun x => { x with st := .enabled }
  | 5 => Op.queueSkip q
  | 6 =>
    if x.st = .errored then
      if x.told then set fun x => { x with st := .enabled } else set fun x => { x with todo := 2 }
  | 7 =>
    if serving || x.st == .suspended then
      Op.orError q .queueEntry x.names.1 x.names.2 (do
        let d ← Op.queueRing q
        let f ← Op.queueSg q 23 d.fill
        if f = x.rdpos.toNat then stop fun x => { x with st := .drained, drain := none }
        else set fun x => { x with st := .running, drain := some f })
  | _ => pure ()

/-- The commands that wait, in their order: one that waits for a peer keeps its place, and those behind a retirement wait for it. -/
def State.laterCommands (s : State) (q : Nat) : List Nat → State
  | [] => s
  | c :: cs =>
    let s := s.modQueue q fun x => { x with later := cs }
    match Op.queueCommand q c s with
    | .ok (_, s) | .error (.trapAt s _) => if (s.queue q).retiring = 0 then (s.dropAnswers (.queue q)).laterCommands q cs else s
    | .error (.hold s) => if (s.queue q).retiring = 0 then s.modQueue q fun x => { x with later := c :: cs } else s
    | .error _ => s.laterCommands q cs

/-- The commands that wait take effect unless an entry is being retired. -/
def State.goOnCommands (s : State) (q : Nat) : State :=
  if (s.queue q).retiring = 0 then s.laterCommands q (s.queue q).later else s

/-- A command reaches a queue: while an entry is being retired it takes effect after that (R141). DEDUCED (log 141): the rule says so of
SUSPEND. -/
def State.command (s : State) (q cmd : Nat) : State :=
  (if cmd = 0 then s else s.modQueue q fun x => { x with later := x.later ++ [cmd] }).goOnCommands q

/-- Work of the distributor on a queue, after which the commands that have waited for it follow. -/
def State.queueWork (s : State) (q : Nat) (f : Op Unit) : State :=
  match f s with
  | .ok (_, s) | .error (.trapAt s _) => (if (s.queue q).retiring = 0 then s.dropAnswers (.queue q) else s).goOnCommands q
  | .error (.hold s) => s
  | .error _ => s

/-- A write of QCTL: its fields, and then its command (R136, R141). -/
def State.writeQctl (s : State) (q v : Nat) : State := (s.writeQctlFields q v).command q (bitsOf v 28 26)

/-- A command of a queue as a step of its own. -/
def State.queueStep (s : State) (q cmd : Nat) : State :=
  if s.mgmt.boot = 3 ∧ q < 64 then s.command q cmd else s

/-- QUEUE_ENABLE (R141). -/
def execQueueEnable (q : Nat) (s : State) : Out := s.keeping <| .next (s.queueStep q 1)
/-- QUEUE_DISABLE (R141). -/
def execQueueDisable (q : Nat) (s : State) : Out := s.keeping <| .next (s.queueStep q 2)
/-- QUEUE_SUSPEND (R141). -/
def execQueueSuspend (q : Nat) (s : State) : Out := s.keeping <| .next (s.queueStep q 3)
/-- QUEUE_RESUME (R141). -/
def execQueueResume (q : Nat) (s : State) : Out := s.keeping <| .next (s.queueStep q 4)
/-- QUEUE_SKIP (R141). -/
def execQueueSkip (q : Nat) (s : State) : Out := s.keeping <| .next (s.queueStep q 5)
/-- QUEUE_RETRY (R141). -/
def execQueueRetry (q : Nat) (s : State) : Out := s.keeping <| .next (s.queueStep q 6)
/-- QUEUE_DRAIN (R141). -/
def execQueueDrain (q : Nat) (s : State) : Out := s.keeping <| .next (s.queueStep q 7)

/-! ## The head (R138, R140, R148, R163) -/

/-- The dependence conditions of a head that are met, each from the first look that finds it so (R148); one that cannot be read is a
failure that names LAUNCH_DEPENDENCE (R145). -/
def Op.depsMet (q ctx : Nat) (met : List Nat) : Nat → List (W64 × Nat) → Op (List Nat)
  | _, [] => pure met
  | i, (va, thr) :: r => do
    let here ← if va = 0 ∨ met.contains i = true then pure false else Op.agentWait (.queue q) (30 + i) ctx va.toNat thr
    Op.depsMet q ctx (if here then i :: met else met) (i + 1) r

/-- Every condition is unused or met. -/
def QueueHead.allMet (h : QueueHead) (met : List Nat) : Bool := h.lr.deps.zipIdx.all fun p => p.1.1 == 0 || met.contains p.2

/-- The head of a queue is judged: ready, in state Running, when it may be submitted, Blocked while it waits (R141); the time from which
it is ready counts towards its priority (R139). -/
def Op.judgeHead (q : Nat) : Op Unit := do
  let s ← Op.state
  let x := s.queue q
  match x.head with
  | none => pure ()
  | some h =>
    Op.orError q .launchDependence h.lrec.toNat h.tag.toNat (do
      let met ← Op.depsMet q x.ctx h.met 0 h.lr.deps
      let ok := h.allMet met
      Op.modify fun s => if ok then s else s.endTurn q
      Op.modify fun s => s.modQueue q fun x =>
        { x with st := if ok then .running else .blocked,
                 head := some { h with met := met, ready := if ok then some (h.ready.getD s.time) else none } })

/-- The fetch line at an entry as the distributor buffers it, read through the FETCH path (R17, R163, R191); none when it cannot
be fetched. -/
def State.entryLine (s : State) (ctx pc : Nat) : List Byte × State :=
  match s.agentAccess (s.agentWho ctx) .fetch (pc / 64 * 64) 1 64 with
  | (.ok (.phys pa), s) => (if s.poisoned pa 64 then [] else s.homeBytes pa 64, s)
  | (_, s) => ([], s)

/-- The head entry read and its launch record judged (R138). -/
def Op.readHead (q : Nat) (d : RingDesc) : Op Unit := do
  let s ← Op.state
  let x := s.queue q
  let cx := s.ctx x.ctx
  Op.orError q .queueEntry 0 0 (do
    let e ← Op.fetchNum (.queue q) x.ctx 2 (d.slotOf x.rdpos.toNat) 64
    let lrec := bytesAt e 0 8
    let args := bytesAt e 8 8
    let tag := bytesAt e 16 4
    Op.orError q .queueEntry lrec tag (do
      if bytesAt e 20 44 ≠ 0 ∨ lrec % 256 ≠ 0 then Op.moveFail .queueEntry lrec
      let v ← Op.fetchNum (.queue q) x.ctx 4 lrec 256
      Op.orError q .launchInvalid lrec tag (do
        if launchOk v cx.prof x.aff args = false then Op.moveFail .launchInvalid lrec
        let r := LaunchRec.ofBits v
        let gs ← Op.readGroups (.queue q) x.ctx r 100 r.gcnt 0
        if groupsOk gs r.warps = false then Op.moveFail .launchInvalid lrec
        let s ← Op.state
        let line := s.entryLine x.ctx r.entry.toNat
        let h : QueueHead :=
          { lrec := BitVec.ofNat 64 lrec, args := BitVec.ofNat 64 args, tag := BitVec.ofNat 32 tag, lr := r, line := line.1,
            met := [], ready := none }
        Op.put line.2
        Op.modify fun s => s.modQueue q fun x => { x with head := some h, age := 0 }
        Op.judgeHead q)))

/-- The distributor looks at a queue's ring (R138, R140, R141): it judges the head that it holds, reads the next, or waits for one. -/
def Op.lookAt (q : Nat) : Op Unit := do
  let s ← Op.state
  let x := s.queue q
  Op.orError q .queueEntry x.names.1 x.names.2 (do
    let r ← Op.checkFill q
    let n := x.rdpos.toNat
    if x.head.isSome then Op.judgeHead q
    else if r.2 ≤ n then
      let _ ← Op.agentWait (.queue q) 22 x.ctx r.1.fill (n + 1)
      Op.modify fun s => (s.endTurn q).modQueue q fun x => { x with st := .enabled }
    else
      Op.modify fun s => (s.quitWaits fun a k => a == .queue q && k == 22).modQueue q fun x => { x with st := .running }
      Op.readHead q r.1)

/-- A queue is served (R139): its context runs, and it is Enabled, Running or Blocked. -/
def State.serves (s : State) (q : Nat) : Bool :=
  let x := s.queue q
  decide (q < 64) && s.mayRun x.ctx && (x.st == .enabled || x.st == .running || x.st == .blocked)

/-- A retirement of the queue's head is under way and may go on. -/
def State.retires (s : State) (q : Nat) : Bool := decide (q < 64) && (s.queue q).retiring != 0 && s.mayRun (s.queue q).ctx

/-! ## Submission (R139, R147) -/

/-- The head of a queue is ready to submit. -/
def State.headReady (s : State) (q : Nat) : Bool :=
  s.serves q && (s.queue q).st == .running && (s.queue q).head.any fun h => h.ready.isSome

/-- A millisecond in the units of `State.time` (R350). -/
def millisecond : Nat := 10 ^ 6 * 2 ^ 20

/-- Full milliseconds for which the head of a queue has been ready (R139). -/
def State.readyFor (s : State) (q : Nat) : Nat :=
  match (s.queue q).head.bind fun h => h.ready with
  | some t => (s.time - t) / millisecond
  | none => 0

/-- The effective priority of a queue (R139). -/
def State.priority (s : State) (q : Nat) : Nat := min 7 ((s.queue q).pri + s.readyFor q)

/-- The turn of a queue goes on: its weight is not used up, and its effective priority has not changed (R139). -/
def State.turnLasts (s : State) (q : Nat) : Bool :=
  s.turn == some q && decide ((s.queue q).served ≤ (s.queue q).wgt) && s.priority q == (s.queue q).pri

/-- The queue that the distributor selects (R139): of the highest effective priority, the queue whose turn lasts, else the next in number
order. -/
def State.selected (s : State) : Option Nat :=
  let ready := (List.range 64).filter s.headReady
  let top := ready.foldl (fun m q => max m (s.priority q)) 0
  let same := ready.filter fun q => s.priority q == top
  let next := (List.range 64).findSome? fun i =>
    let n := (vget s.serving top 63 + 1 + i) % 64
    if same.contains n then some n else none
  match s.turn with
  | some q => if same.contains q && s.turnLasts q then some q else next
  | none => next

/-- A launch is counted towards the weight of the queue whose turn it is; a queue selected anew starts its count, and one whose
effective priority changes with its head ends its turn (R139). -/
def State.countTurn (s : State) (q : Nat) : State :=
  let x := s.queue q
  let again := s.turnLasts q
  let p := s.priority q
  let s := s.modQueue q fun x => { x with served := if again then x.served + 1 else 1 }
  { s with serving := vset s.serving p q, turn := if p = x.pri then some q else none }

/-- The kernel of a head that is submitted: it is Ready (R147). -/
def QueueHead.kernel (h : QueueHead) (id ctx q : Nat) : Kernel :=
  { id := id, ctx := ctx, queue := q, lrec := h.lrec, args := h.args, tag := h.tag, lr := h.lr, st := 2, handle := none,
    pushed := 0, curve := 0, spawns := 0, live := 0, counted := 0, trigDone := false, statusDone := false, line := h.line, placed := false,
    joins := [] }

/-- The head of a queue is submitted and retired (R138, R141, R147). -/
def Op.submit (q : Nat) : Op Unit := do
  let s ← Op.state
  match (s.queue q).head with
  | none => pure ()
  | some h =>
    Op.orError q .queueEntry h.lrec.toNat h.tag.toNat (do
      Op.retireHead q 1
      Op.modify fun s => { s with kernels := s.kernels ++ [h.kernel s.nextId (s.queue q).ctx q], nextId := s.nextId + 1 })

/-- The retirement of a queue's head goes on once a peer has answered. -/
def Op.goOnRetiring (q : Nat) : Op Unit := do
  let s ← Op.state
  if (s.queue q).retiring = 1 then Op.submit q else Op.queueSkip q

/-- What a queue has begun goes on: its retirement, or else the commands that wait for a peer. -/
def State.queueGoOn (s : State) (q : Nat) : State :=
  if s.retires q then s.queueWork q (Op.goOnRetiring q)
  else if s.mgmt.boot = 3 ∧ q < 64 then s.goOnCommands q
  else s

/-- A queue is served, and nothing that it has begun is still to go on. -/
def State.mayLook (s : State) (q : Nat) : Bool := s.serves q && (s.queue q).retiring == 0 && (s.queue q).later.isEmpty

/-- QUEUE_HEAD_READ (R138): a queue without a head reads the next entry; a held head is judged again; what has begun goes on. -/
def execQueueHeadRead (q : Nat) (s : State) : Out :=
  s.keeping <| .next (if s.mayLook q then s.queueWork q (Op.lookAt q) else s.queueGoOn q)

/-- The submission of a ready head begins (R138, R139): the ring is looked at (R140), and the launch counts towards its queue's weight. -/
def Op.beginSubmit (q : Nat) : Op Unit := do
  let s ← Op.state
  Op.orError q .queueEntry (s.queue q).names.1 (s.queue q).names.2 (do let _ ← Op.checkFill q)
  let s ← Op.state
  if s.headReady q then
    Op.modify fun s => s.countTurn q
    Op.submit q

/-- QUEUE_HEAD_SUBMIT (R139, R141): a Blocked head is judged again; the queue that the distributor selects submits its head. -/
def execQueueHeadSubmit (q : Nat) (s : State) : Out :=
  s.keeping <|
  if s.mayLook q = false then .next (s.queueGoOn q)
  else
    let s := if (s.queue q).st = .blocked then s.queueWork q (Op.judgeHead q) else s
    if s.headReady q && s.selected == some q then .next (s.queueWork q (Op.beginSubmit q)) else .next s

/-- QUEUE_PRIORITY_AGE (R139): the head has been ready for another full millisecond of context time (R350); a queue whose effective
priority changes in its turn ends it. -/
def execQueuePriorityAge (q : Nat) (s : State) : Out :=
  s.keeping <|
  if s.headReady q then
    let n := s.readyFor q
    let x := s.queue q
    let s := if s.turn = some q ∧ s.priority q ≠ min 7 (x.pri + x.age) then s.endTurn q else s
    .next (s.modQueue q fun x => { x with age := n })
  else .next s

end Sys2Proof.Machine
end

