-- ==== Sys2Proof/Machine/Handling.lean ====
section
/-!
DEFINITION. The handling of faults (R351, R355 to R360): RESUME and KILL, and the push of records to a context's fault ring.
-/

namespace Sys2Proof.Machine

open Sys2Proof

/-! ## RESUME (R351, R353, R359) -/

/-- Core cycles of a task's time limit (R159). -/
def State.timeLimit (s : State) (t : Task) : Option Nat :=
  match s.kernel? t.kid with
  | some k => if k.lr.tlimit = 0 then none else some (k.lr.tlimit * 65536)
  | none => none

/-- A warp whose record a debug write has left outside its limits raises UNCORRECTABLE_STATE when it is made Ready (R378): it is
Suspended, and the host is told, since the cause is of class H (R353). DESIGN CHOICE (log 94). -/
def State.stopBad (s : State) (ctx task warp : Nat) : State :=
  let s := (s.modWarp task warp fun w =>
    let x := w.susp.getD { cause := .uncorrectableState, skip := 0, ran := 0, pushed := true, resumed := false }
    { w with st := .suspended, wait := none, stall := none, susp := some { x with resumed := false } }).withdrawWaits task warp
  { s with reports := s.reports ++ [(ctx, Cause.uncorrectableState.code)] }

/-- RETURNING FROM A FAULT: a Suspended warp whose record has been taken becomes Ready with its saved state (R351, R353). It makes
an acquire on the CORE path (R359), its task's timer starts again (R159), and a pending asynchronous cause is taken at once
(R355). A state that a debug write has put outside its limits stops it again, reported to the host (R378). -/
def State.goOn (s : State) (task warp : Nat) : State :=
  match s.task? task with
  | none => s
  | some t =>
    match t.warps[warp]? with
    | none => s
    | some w =>
      if w.bad then s.stopBad t.ctx task warp
      else
        let s := s.modWarp task warp fun w => { w.continue with st := .ready }
        let s := s.modTask task fun x => { x with timer := s.timeLimit x }
        let s := match t.core with
          | some core => s.acquire core
          | none => s
        if w.pendingCause.isSome then s.takeAsync task warp else s

/-- The task of a warp handle of a context (R351). -/
def State.handleTask (s : State) (ctx h : Nat) : Option Task :=
  if 2 ^ 21 ≤ h then none else s.tasks.find? fun t => t.ctx == ctx && t.dir == h % 2 ^ 16

/-- RESUME of a warp: whether it was Suspended and not resumed yet; it goes on once its record has been taken (R351, R358). -/
def State.resumeWarp (s : State) (task warp : Nat) : Bool × State :=
  match (s.warp? task warp).bind fun w => if w.st = .suspended then w.susp else none with
  | none => (false, s)
  | some x =>
    if x.resumed then (false, s)
    else
      let s := s.modWarp task warp fun w =>
        { w with susp := w.susp.map fun (y : Suspension) => { y with resumed := true } }
      (true, if x.pushed then s.goOn task warp else s)

/-- RESUME of a handle of a context (R351). -/
def State.resumeHandle (s : State) (ctx h : Nat) : Bool × State :=
  match s.handleTask ctx h with
  | some t => if t.ended then (false, s) else s.resumeWarp t.id (h / 2 ^ 16)
  | none => (false, s)

/-! ## KILL (R351, R158, R301) -/

/-- The commands of a task in one engine are discarded (R301): without completion adds, and an engine that ran one of them, whose
destination stays undefined, or stands stopped on it becomes idle. What it has asked of a peer is still to complete (R262). -/
def State.discardIn (s : State) (task core : Nat) (x : Bool) : State :=
  let q := (s.engine core x).queue
  let gone := q.filter fun c => c.task == task
  let head := q.head?.filter fun c => c.task == task
  let first := head.isSome
  let s := if first then s.abandon core x else s
  let s := gone.foldl (fun (s : State) (c : EngineCmd) => s.engineFrame c x 3) s
  let s := match head with
    | some c => s.handOver (if x then .xform core else .copy core) (.store c.task c.warp)
    | none => s
  s.modEngine core x fun e =>
    let rest := e.queue.filter fun c => c.task != task
    if first then { e with st := 0, queue := rest, pushed := false, todo := 0 } else { e with queue := rest }

/-- The engine commands of a task are discarded, wherever they stand. -/
def State.discardCommands (s : State) (task : Nat) : State :=
  let s := (List.range 192).foldl (fun (s : State) (c : Nat) =>
    if (s.core c).copy.queue.any (fun x => x.task == task) || (s.core c).xform.queue.any fun x => x.task == task then
      (s.discardIn task c false).discardIn task c true
    else s) s
  s.modTask task fun t => { t with cmds := [] }

/-- The holds of a warp's released DRAINs, each of which goes on to its publication (R259, R290). -/
def State.drainHolds (s : State) (task warp : Nat) : Nat :=
  ((vlist s.cores).map fun c => (c.drains.filter fun (o : DrainOp) => o.task == task && o.warp == warp && o.hold).length).sum

/-- A warp that KILL ends: Done and at depth 0, with the holds that released DRAINs keep (R259, R264, R351). -/
def Warp.killed (holds : Nat) (w : Warp) : Warp :=
  let w := w.modThreads allTids fun th => { th with exited := true, wsync := none }
  { w with st := .done, depth := 0, held := holds, mac := none, wait := none, susp := none, stall := none,
           mark := w.mark && holds != 0, pendTimeout := false, pendReset := none, sump := .none }

/-- A kernel one of whose tasks KILL ends: it pushes no further grid records, and its unplaced records are discarded, each with
its JOIN add (R147, R158). -/
def State.faultKernel (s : State) (kid : Nat) : State :=
  match s.kernel? kid with
  | none => s
  | some k =>
    if k.st = 3 ∨ k.st = 4 ∨ k.st = 5 then
      let cut := (s.ctx k.ctx).cq.filter fun x => x.kid == kid
      let s := cut.foldl (fun (s : State) (x : Cont) => s.quitConds x) s
      let unpushed := if k.st = 3 then k.lr.points - k.pushed else 0
      let s := s.modCtx k.ctx fun c => { c with cq := c.cq.filter fun x => x.kid != kid }
      s.modKernel kid fun k =>
        { k with st := 8, live := k.live - cut.length - unpushed,
                 joins := k.joins ++ (cut.map Cont.join).filter fun j => j != 0 }
    else s

/-- A task is live: it has not ended, and a warp of it is not Done. -/
def Task.live (t : Task) : Bool := !t.ended && !t.allDone

/-- KILL of a task (R351): whether it was live. While the buffer has no room for its record, the task does not end (R358). DEDUCED
(log 157): a released DRAIN is no command that KILL discards. -/
def State.killTask (s : State) (task : Nat) : Bool × State :=
  match s.task? task with
  | none => (false, s)
  | some t =>
    if !t.live then (false, s)
    else
      let s := (List.range t.warps.length).foldl (fun (s : State) (i : Nat) =>
        ((s.withdrawWaits task i).dropTurns task i).modWarp task i (.killed (s.drainHolds task i))) s
      let s := s.discardCommands task
      let s := s.faultKernel t.kid
      let s := s.modTask task fun t => { t with owes := true }
      (true, if s.recordRoom t.ctx then (s.endTask t).clearTask task else s)

/-- KILL of a handle of a context (R351). -/
def State.killHandle (s : State) (ctx h : Nat) : Bool × State :=
  match s.handleTask ctx h with
  | some t => if t.warps.length ≤ h / 2 ^ 16 then (false, s) else s.killTask t.id
  | none => (false, s)

/-! ## The fault ring (R352, R356 to R358) -/

/-- The 64 bytes of a record (R352). -/
def FaultRec.bytes (r : FaultRec) : List Byte :=
  let b (x : Bool) (n : Nat) := if x then n else 0
  let cls := r.source % 8 + b r.seqv 8 + b r.macv 16 + b r.coord 32
  putNums [(1, r.cause.code), (1, cls), (1, r.mslot % 32), (1, r.unit), (4, r.handle), (2, r.tmask.toNat), (2, r.done.toNat),
    (4, r.seq), (8, r.pc), (8, r.addr), (4, r.bitoff), (4, r.tag), (8, r.extra), (8, r.aux), (8, r.time)]

/-- FRING's fields (R356). -/
def Context.fringVa (c : Context) : Nat := bitsOf c.fring.toNat 55 6 * 64
def Context.hostn (c : Context) : Bool := c.fring.getLsbD 0

/-- The function of a context's first partition (R337, R373). -/
def Context.function (c : Context) : Nat :=
  match c.parts with
  | p :: _ => 1 + p.2
  | [] => 0

/-- The place in the access order of the fault ring from which on it pushes a record of class R. -/
def ringR : Nat := 100

/-- The next record of a context to push: of a stopped source, else of class R; a push that has begun goes on (R357). The answer says
whether it is of class R. -/
def State.nextRecord (s : State) (ctx : Nat) : Option (Bool × FaultRec) :=
  let c := s.ctx ctx
  let begun := (s.outstanding.any fun o => o.who == .ring ctx && decide (ringR ≤ o.key))
    || s.answers.any fun a => a.who == .ring ctx && decide (ringR ≤ a.key)
  match c.pend, begun with
  | r :: _, false => some (false, r)
  | _, _ => c.rbuf.head?.map fun r => (true, r)

/-- The first waiting record has been pushed. -/
def Context.dropRecord (c : Context) (r : Bool) : Context := if r then { c with rbuf := c.rbuf.tail } else { c with pend := c.pend.tail }

/-- The stores of a faulting warp to peers, which the push of its record releases, are not all acknowledged (R357, R370). -/
def State.recordWaits (s : State) (r : FaultRec) : Bool :=
  decide (r.source ≤ 1) && s.outstanding.any fun o => o.who == .store r.src.1 r.src.2

/-- A record of a stopped engine names the command: of its context, warp and place in the code, with its number (R300, R360). -/
def State.isNamed (s : State) (ctx : Nat) (r : FaultRec) (c : EngineCmd) : Bool :=
  c.ctx == ctx && c.seq == r.seq && c.pc == r.pc && r.handle == match s.task? c.task with
    | some t => t.handle c.warp
    | none => 0

/-- The record of a stopped command has been taken: its engine obeys CMD now, and one that a pre-emption has moved will, on the core it
comes back to (R300, R301, R358). -/
def State.commandTaken (s : State) (ctx : Nat) (r : FaultRec) : State :=
  let x := r.source == 3
  let mine (c : EngineCmd) : Bool := s.isNamed ctx r c
  let mark (c : EngineCmd) : EngineCmd := if mine c then { c with stopped := c.stopped.map fun y => (true, y.2) } else c
  match (List.range 192).find? fun core => (s.engine core x).st == 3 && (s.engine core x).queue.head?.any mine with
  | some core =>
    let todo := (s.engine core x).todo
    (s.modEngine core x fun e => { e with pushed := true }).engineCommand core x todo
  | none =>
    let s := { s with tasks := s.tasks.map fun (t : Task) =>
      if t.ctx = ctx then { t with cmds := t.cmds.map fun c => if c.1 = x then (x, mark c.2) else c } else t }
    (List.range 192).foldl (fun (s : State) (core : Nat) =>
      if (s.engine core x).queue.any mine then s.modEngine core x fun e => { e with queue := e.queue.map mark } else s) s

/-- The source of a record of a context goes on as its record is taken (R358). -/
def State.recordTaken (s : State) (ctx : Nat) (r : FaultRec) : State :=
  match r.source with
  | 2 | 3 => s.commandTaken ctx r
  | 4 =>
    let q := r.src.1
    if (s.queue q).st = .errored then
      let todo := (s.queue q).todo
      let s := s.modQueue q fun x => { x with told := true, todo := 0 }
      s.command q (if todo = 1 then 5 else if todo = 2 then 6 else 0)
    else s.command q 0
  | 5 => s
  | _ =>
    match (s.warp? r.src.1 r.src.2).bind fun w => w.susp with
    | none => s
    | some x =>
      let s := s.modWarp r.src.1 r.src.2 fun w => { w with susp := w.susp.map fun (y : Suspension) => { y with pushed := true } }
      if x.resumed then s.goOn r.src.1 r.src.2 else s

/-- A ring that cannot take records is reported to the host once (R358). -/
def State.ringReport (s : State) (ctx : Nat) : State :=
  if (s.ctx ctx).fringTold then s
  else ({ s with reports := s.reports ++ [(ctx, Cause.ringMisuse.code)] }).modCtx ctx fun c => { c with fringTold := true }

/-- One record pushed: written to slot FILL once REL leaves room, and counted (R357). -/
def Op.pushRecord (ctx : Nat) (x : Bool × FaultRec) : Op Unit := do
  let who := Asker.ring ctx
  let r := x.2
  let key := if x.1 then ringR else 0
  let s ← Op.state
  if s.recordWaits r then Op.holdHere
  let d ← Op.agentRing who key ctx (s.ctx ctx).fringVa
  match d with
  | none => Op.agentFail .ringMisuse 0
  | some d => do
    if d.slot ≠ 64 ∨ d.base % 64 ≠ 0 then Op.agentFail .ringMisuse 0
    let fill ← Op.agentRead who (key + 2) ctx .sgRead d.fill 8 8
    let rel ← Op.agentRead who (key + 4) ctx .sgRead d.rel 8 8
    if fill + 1 ≤ rel + 2 ^ d.logcap then
      Op.agentWrite who (key + 6) ctx (d.slotOf fill) 64 (ofBytes r.bytes)
      Op.agentAdd who (key + 8) ctx d.fill 1
      Op.modify fun s =>
        let s := s.modCtx ctx fun c => c.dropRecord x.1
        let s := if (s.ctx ctx).hostn then { s with msix := s.msix ++ [((s.ctx ctx).function, 0)] } else s
        let s := s.recordTaken ctx r
        s.kernels.foldl (fun (s : State) (k : Kernel) => if k.ctx = ctx then s.trigger k.id else s) s

/-- FAULT_RECORD_PUSH (R356 to R358). -/
def execFaultRecordPush (ctx : Nat) (s : State) : Out :=
  s.keeping <|
  let c := s.ctx ctx
  if !s.mayRun ctx || c.fringTold then .next s
  else
    match s.nextRecord ctx with
    | none => .next s
    | some r =>
      if c.fringVa = 0 then .next (s.ringReport ctx)
      else .next (runAgent (.ring ctx) (Op.pushRecord ctx r) (fun _ s => s.ringReport ctx) s)

end Sys2Proof.Machine
end

