-- ==== Sys2Proof/Machine/Ring.lean ====
section
/-!
DEFINITION. The command ring of the management interface (R389, R391).
-/

namespace Sys2Proof.Machine

open Sys2Proof

/-- The host address of ring slot n (R389). -/
def State.ringSlot (s : State) (n : Nat) : Nat := s.mgmt.mcBase.toNat + 64 * (n % 2 ^ s.mgmt.mcLog)

/-- The next command of the ring, when the ring is enabled, holds one, and none is in progress (R389). -/
def State.ringCommand (s : State) : Option Command :=
  if s.mgmt.mcEn && decide (s.mgmt.mcDone.toNat < s.mgmt.mcFill.toNat) && s.mgmt.busy.isNone then
    some (BitVec.ofNat 512 (s.host.getN (s.ringSlot s.mgmt.mcDone.toNat) 64))
  else none

/-- The slot of the command that ends, and whether MCDONE counts it: a command in progress has kept them (R389). -/
def State.endingSlot (s : State) : Nat × Bool :=
  if s.mgmt.busy.isSome then (s.mgmt.busySlot, s.mgmt.busyCounts) else (s.ringSlot s.mgmt.mcDone.toNat, true)

/-- The status of a command written over it, and the change of MCDONE and the notice that follow (R389, R391). DESIGN CHOICE (log 159):
a command that was in progress when the ring was enabled anew is not counted in the new MCDONE. -/
def State.finishCommand (s : State) (tag : W32) (status cause result : Nat) : State :=
  let bytes := [BitVec.ofNat 8 status, BitVec.ofNat 8 cause, 0, 0] ++ toBytes 4 tag.toNat ++ toBytes 8 result
    ++ List.replicate 48 0
  let e := s.endingSlot
  let s := { s with host := s.host.setBytes e.1 bytes,
                    mgmt := { s.mgmt with mcDone := if e.2 then s.mgmt.mcDone + 1 else s.mgmt.mcDone, busy := none } }
  if s.mgmt.mcIrq && e.2 then { s with msix := s.msix ++ [(0, 0)] } else s

/-- The TAG of a command (R390). -/
def commandTag (c : Command) : W32 := c.extractLsb' 32 32

end Sys2Proof.Machine
end

