-- ==== Sys2Proof/Machine/Invalidate.lean ====
section
/-!
DEFINITION. TLB invalidation (R194, R195, R199): command records, their queue, and their completion.
-/

namespace Sys2Proof.Machine

open Sys2Proof

/-! ## Records (R194) -/

/-- The layout of a record holds (R194). -/
def Invalidation.ok (x : Invalidation) (flags : Nat) : Bool :=
  x.va % 65536 == 0 && decide (x.va < 2 ^ 56) && (if x.cln then x.pa % 65536 == 0 else x.pa == 0) && decide (x.ctx < 64)
    && x.scope != 3 && flags / 4 % 32 == 0 && (x.scope != 0 || x.npg != 0)

/-- The command of a record of 32 bytes, and whether the record breaks its layout; it is then carried out for all contexts
without CLN (R194). -/
def Invalidation.parse (v : Nat) (source : Option Nat) (priv : Bool) : Invalidation × Bool :=
  let flags := bitsOf v 239 232
  let x : Invalidation :=
    { va := bitsOf v 63 0, pa := bitsOf v 127 64, sga := BitVec.ofNat 64 (bitsOf v 191 128), npg := bitsOf v 223 192,
      ctx := bitsOf v 231 224, scope := flags % 4, cln := flags.testBit 7, amt := bitsOf v 255 240, from_ := source, priv := priv,
      begun := false }
  if x.ok flags then (x, false) else ({ x with scope := 2, cln := false }, true)

/-- TLBSTAT.BAD after another malformed record (R194). -/
def moreBad (n : BitVec 8) : BitVec 8 := if n = 255 then n else n + 1

/-- A command joins the queue, which has room for it. -/
def State.queueInvalidation (s : State) (x : Invalidation × Bool) : State :=
  { s with invq := s.invq ++ [x.1], tlbBad := if x.2 then moreBad s.tlbBad else s.tlbBad }

/-- Commands that the queue holds (R194). -/
def invCap : Nat := 64

/-! ## What a command covers (R195) -/

/-- An address range of a context meets what the command covers. -/
def Invalidation.meets (x : Invalidation) (ctx lo n : Nat) : Bool :=
  match x.scope with
  | 0 => ctx == x.ctx && decide (lo < x.va + x.npg * 65536) && decide (x.va < lo + n)
  | 1 => ctx == x.ctx
  | _ => true

/-- The caches without the translations and table entries that a command covers (R195). -/
def State.dropCached (s : State) (x : Invalidation) : State :=
  { s with
    tlb := s.tlb.filter fun (t : TlbEntry) => !x.meets t.ctx (t.va * 2 ^ t.log) (2 ^ t.log),
    walks := s.walks.filter fun (w : WalkEntry) =>
      let log := if w.level = 0 then 42 else 29
      !x.meets w.ctx (w.va * 2 ^ log) (2 ^ log) }

/-- A command drops what the caches hold of its scope, and the contributions made through it leave their egress port (R195). -/
def State.began (s : State) (x : Invalidation) : State := (s.dropCached x).sendPartials fun y => x.meets y.ctx y.va 1

/-- An access that used a translation the command covers is not complete: a request to a peer, but for a wait that its home has answered, a
line on its way to an instruction cache, or the writes of a released DRAIN. -/
def State.usesCovered (s : State) (x : Invalidation) : Bool :=
  (s.outstanding.any fun o => (!opWaits o.op || o.entry == 0) && x.meets o.ctx o.va 1)
    || (vlist s.cores).any fun c =>
      (c.fills.any fun f => x.meets f.ctx f.va 256)
        || c.drains.any fun d => !d.published && (d.block ++ d.entry).any fun p => x.meets d.ctx p.va p.bytes.length

/-- The lines of one L1 within a range of physical addresses are written back and dropped. -/
def State.cleanRange (s : State) (core lo hi : Nat) : State :=
  ((s.core core).l1.filter fun l => decide (lo ≤ l.pa) && decide (l.pa < hi)).foldl (fun s l => s.evict core l.pa) s

/-- CLN: every L1 writes back and drops the pages (R195). -/
def State.cleanPages (s : State) (x : Invalidation) : State :=
  if x.cln then (List.range 192).foldl (fun s c => s.cleanRange c x.pa (x.pa + x.npg * 65536)) s else s

/-! ## Completion (R195) -/

/-- The completion add: the state after it, and RESULT of a command of the management interface. DESIGN CHOICE (log 154): an add that
R122 refuses at a local home fails like one whose address fails. -/
def State.invalidationAdd (s : State) (x : Invalidation) : Nat × State :=
  let ctx := x.from_.getD x.ctx
  let here := x.from_.isSome || (decide (1 ≤ (s.ctx ctx).st) && decide ((s.ctx ctx).st ≤ 8))
  if x.sga = 0 then (0, s)
  else if !here then (1, s)
  else
    match s.agentAdd .pageTableFormat 0 ctx x.sga.toNat x.amt with
    | (none, s) => (0, s)
    | (some _, s) => (1, s.bufferRecord ctx (s.agentRecord .pageTableFormat 0 x.sga.toNat))

/-- INVALIDATION_COMPLETE (R195, R199): the oldest command completes; a freeze holds one that had not started, and a full buffer of
the records its add may need holds it (R358). -/
def execInvalidationComplete (s : State) : Out :=
  match s.invq with
  | [] => .next s
  | x :: rest =>
    let held := s.frozen && !x.begun
    let s := if held then s else s.guarded (s.began x)
    if held || s.usesCovered x || !s.recordRoom (x.from_.getD x.ctx) then .next s
    else
      let r := (s.cleanPages x).invalidationAdd x
      let s := s.guarded { r.2 with invq := rest }
      match x.from_, s.mgmt.busy with
      | none, some (tag, .tlbinv) => .next (s.finishCommand tag 0 0 r.1)
      | _, _ => .next s

/-! ## TLBINV (R194) -/

/-- The record that a unit's TLBINV names, read as an acquire on the CORE path. -/
def Op.invRecord (c : Ctx) (t : Tid) (va : Nat) : Op Nat := do
  let a ← Op.aimOne c 0 .load 32 32 t va
  match a.target.place with
  | .phys pa => do
    let s ← Op.state
    if s.poisoned pa 32 then Op.trapHere { cause := .dataPoison, mask := c.maskAt t, addr := va }
    return s.homeN pa 32
  | .remote p o => Op.remoteLoad c a (c.key t 0) p o 32
  | _ => return 0

/-- The record of a unit's TLBINV, read at its issue (R194): a write that waits for a full queue keeps it. -/
def Op.invRead (c : Ctx) (t : Tid) (va : Nat) : Op Nat := do
  let v ← Op.latched c (c.key t 1) (Op.invRecord c t va)
  Op.noteRange c t false va 32
  return v

/-- TLBINV_WRITE (R194): a record that can be read queues its command; while the queue is full the write waits, and is made
again. -/
def execTlbinvWrite (ctx : Nat) (va : W64) (s : State) : Out :=
  s.keeping <|
  if s.mgmt.boot ≠ 3 ∨ ctx ≥ 64 ∨ invCap ≤ s.invq.length then .next s
  else
    match s.agentRead (.context ctx) 0 ctx .load va.toNat 32 32 with
    | (.ok v, s) =>
      .next ((s.queueInvalidation (Invalidation.parse v (some ctx) (s.privCtx ctx))).dropAnswers (.context ctx))
    | (.waits, s) => .next s
    | (.fail _, s) => .next (s.dropAnswers (.context ctx))

end Sys2Proof.Machine
end

