-- ==== Sys2Proof/Machine/Turn.lean ====
section
/-!
DEFINITION. Whose turn the next step is, the fetch of a warp's instruction, and the instruction that a turn runs.
-/

namespace Sys2Proof.Machine

open Sys2Proof

/-! ## Where threads stop (R78, R83, R343) -/

/-- A thread runs on to its next RGN: it stands in a committed region and is not parked by a sump loop. -/
def Warp.drives (w : Warp) (t : Tid) : Bool :=
  let th := w.thread t
  !th.exited && th.region.inside && th.region.committed && !w.parked t

/-- No thread of the warp runs on, and it stands at no place where a pre-emption waits: inside a macro body, or in the middle of an
instruction. -/
def State.stopped (s : State) (task warp : Nat) (w : Warp) : Bool :=
  match w.st with
  | .done | .suspended => true
  | _ => w.mac.isNone && !s.midway task warp && !allTids.any w.drives

/-- A pre-emption stops the threads of a warp that do not run on; a Blocked warp of which some run on does not wait any more. -/
def State.halt (s : State) (task warp : Nat) : State :=
  match s.warp? task warp with
  | none => s
  | some w =>
    if w.st = .done ∨ w.st = .suspended ∨ w.mac.isSome = true ∨ s.midway task warp = true then s
    else
      let m := maskOf (allTids.filter fun t => !w.drives t)
      if w.st = .blocked ∧ (allTids.any w.drives) = true then
        (s.withdrawWaits task warp).modWarp task warp fun w => { w with st := .ready, wait := none, halted := m }
      else s.modWarp task warp fun w => { w with halted := m }

/-! ## The issue of a warp (R31 items 1 and 2, R67, R69, R73) -/

/-- A pre-emption has stopped a warp of a task. -/
def State.rests (s : State) (t : Task) (warp : Nat) (w : Warp) : Bool := (s.ctx t.ctx).moving && s.stopped t.id warp w

/-- The lane of a core runs a warp, and no pre-emption has stopped it (R78). -/
def State.laneBusy (s : State) (core lane : Nat) : Bool :=
  (s.laneWarps core lane).any fun p => p.2.2 == .running && !match s.task? p.1.task, s.warp? p.1.task p.1.warp with
    | some t, some w => s.rests t p.1.warp w
    | _, _ => false

/-- The warp of a task may run: its context runs, its task is placed whole, no pre-emption has stopped it, and its trace buffer has
room (R386). -/
def State.mayTurn (s : State) (t : Task) (warp : Nat) (w : Warp) : Bool :=
  s.mayRun t.ctx && t.pendingStep.isNone && !s.rests t warp w && !s.traceFull t.id warp

/-- The slot of the ready warp that an idle lane selects: the next in round-robin order after the one that last ran (R73). -/
def State.laneNext (s : State) (core lane : Nat) : Option Nat :=
  let slots := (s.tasks.filter fun t => t.core = some core && !t.ended).flatMap fun t =>
    (t.warps.zipIdx.filter fun p => p.1.lane == lane && p.1.st == .ready && s.mayTurn t p.2 p.1).map fun p => p.1.slot
  let last := (vget (s.core core).lanes lane .reset).last
  [1, 2, 3, 4].findSome? fun k => if slots.contains ((last + k) % 4) then some ((last + k) % 4) else none

/-- The warp may issue: it may run, and it is the one that its lane runs or, of an idle lane, the one that the lane selects. -/
def State.canIssue (s : State) (t : Task) (core warp : Nat) (w : Warp) : Bool :=
  s.mayTurn t warp w &&
    (w.st == .running || (w.st == .ready && !s.laneBusy core w.lane && s.laneNext core w.lane == some w.slot))

/-- What a warp finds when it turns to issue: an instruction to run in a state, or the state in which its turn ends. -/
inductive Turned where
  | run (i : Instr) (s : State)
  | rest (s : State)

/-- The outcome of a turn of an agent other than the management interface. -/
def State.keepingTurn (s : State) : Turned → Turned
  | .run i s' => .run i (s.guarded s')
  | .rest s' => .rest (s.guarded s')

/-- An issue is that of an instruction that was held, tried again. -/
def State.triesAgain (s : State) (r : WarpRef) (w : Warp) (pc : W64) : Bool :=
  pc == w.lastPc && maskOf w.activeSet == w.lastMask &&
    (s.midway r.task r.warp || w.wait.isSome || match w.stall with
      | none | some .sumpSwitch | some .replay => false
      | some _ => true)

/-- The trace of an issue (R384): an ISSUE frame where the PC or the active mask is not that of straight running. DESIGN CHOICE (log 119):
an instruction that was held and is tried again issues no second time. -/
def State.traceIssue (s : State) (core : Nat) (r : WarpRef) (w : Warp) (pc : W64) : State :=
  let mask := maskOf w.activeSet
  let s := match s.tracer r.task r.warp with
    | none => s
    | some c =>
      if s.triesAgain r w pc then s else
      let d := (s.core c).dbg
      let since := if d.trcpos.toNat % 16 = 0 then 0 else d.sinceFrame
      let s := if w.mac.isSome || (pc == nextPc w.lastPc && mask == w.lastMask) then s
        else s.traceFrame r.task r.warp 2 (toBytes 8 pc.toNat ++ toBytes 2 mask.toNat ++ toBytes 4 since)
      s.modCore core fun k => { k with dbg := { k.dbg with sinceFrame := k.dbg.sinceFrame + 1 } }
  s.modWarp r.task r.warp fun w => { w with lastPc := pc, lastMask := mask }

/-- The threads of the active set that stand in no region: their slot must hold an RGN (R67, R242). -/
def Warp.unentered (w : Warp) : List Tid := w.activeSet.filter fun t => !(w.thread t).region.inside

/-- The instruction word of a warp's next slot: of its macro body, or fetched at its PC; the entry slot of a kernel's first task
comes from the launch buffer (R163). -/
def State.nextWord (s : State) (t : Task) (core : Nat) (w : Warp) (pc : W64) : Fetched × State :=
  match w.mac with
  | some m => (.word (m.body.getD m.slot 0), s)
  | none =>
    s.fetch { ctx := t.ctx, priv := s.privCtx t.ctx, cluster := clusterOf core, quarter := some (core, w.lane / 8) } core
      pc.toNat (if pc = t.entry && !w.unentered.isEmpty then t.entryLine else [])

/-- The fetch of the warp's slot is over: a fetch stall ends. -/
def Warp.fetched (w : Warp) : Warp := match w.stall with
  | some (.fetch _) => { w with stall := none, stalled := 0 }
  | _ => w

/-- OP of RGN (R40). -/
def isRgn (w : InstrWord) : Bool := w.toNat % 1024 == 2

/-- A selected warp fetches and decodes (R20, R31, R67, R85, R177, R355). DESIGN CHOICE (log 132): REGION_RECORD of threads that stand
in no region comes before ILLEGAL_OPCODE of their slot. -/
def State.turnWarp (s : State) (t : Task) (core : Nat) (r : WarpRef) (w : Warp) : Turned :=
  let due := w.pendingCause.isSome && !s.midway r.task r.warp
  if due && !w.inCommitted then .rest (s.takeAsync r.task r.warp)
  else
    match w.lowestPc with
    | none => .rest s
    | some pc =>
      match s.nextWord t core w pc with
      | (.miss, s) => .rest (s.modWarp r.task r.warp fun w => { w with stall := some (.fetch (codeLine pc.toNat)) })
      | (.fault c, s) =>
        .rest (s.takeFault r.task r.warp pc { cause := c, mask := maskOf w.activeSet, addr := pc.toNat })
      | (.word x, s) =>
        let s := s.modWarp r.task r.warp .fetched
        if due && isRgn x then .rest (s.takeAsync r.task r.warp)
        else if !w.unentered.isEmpty && !isRgn x then
          .rest (s.takeFault r.task r.warp pc { cause := .regionRecord, mask := maskOf w.unentered, addr := pc.toNat })
        else
          let s := s.traceIssue core r w pc
          .run (decodeWord x) { s with issuer := some r }

/-- The turn of the warp of a core with a warp id. -/
def State.coreTurn (s : State) (core wid : Nat) : Turned :=
  s.keepingTurn <|
  match s.warpAt core wid with
  | none => .rest s
  | some r =>
    match s.task? r.task, s.warp? r.task r.warp with
    | some t, some w =>
      if s.canIssue t core r.warp w then
        let s := if w.st = .ready then s.select core w.lane r w.slot else s
        let s := if (s.ctx t.ctx).moving then s.halt r.task r.warp else s
        match s.warp? r.task r.warp with
        | some w => s.turnWarp t core r w
        | none => .rest s
      else .rest s
    | _, _ => .rest s

/-- The turn of the management ring: the command to run, or the state after one of an unknown code (R391). -/
def State.ringTurn (s : State) : Turned :=
  match s.ringCommand with
  | none => .rest s
  | some c =>
    match Decode.command c with
    | some i => .run i { s with issuer := none }
    | none => .rest (s.finishCommand (commandTag c) (if s.mgmt.boot = 3 then 2 else 1) 0 0)

/-! ## Whose turn it is -/

/-- A warp does not wait for something that has not come. -/
def State.unstalled (s : State) (t : Task) (core warp : Nat) (w : Warp) : Bool :=
  match w.stall with
  | none => true
  | some (.fetch line) => !(s.core core).fillBusy t.ctx line || (s.core core).icache.any fun l => l.ctx == t.ctx && l.va == line
  | some .remote => !s.outstanding.any fun o =>
      (o.who == .warp t.id warp && !(opWaits o.op && o.entry != 0)) || o.who == .store t.id warp
  | some .replay | some .sumpSwitch => true
  | some _ => false

/-- A warp that can issue: its core and warp id. `any`: also one whose stall is only seen by trying. -/
def State.pickWarp (s : State) (any : Bool) : Option (Nat × Nat) :=
  s.tasks.findSome? fun t =>
    match t.core with
    | none => none
    | some core =>
      if t.ended then none
      else t.warps.zipIdx.findSome? fun p =>
        if s.canIssue t core p.2 p.1 && (any || s.unstalled t core p.2 p.1) then some (core, p.1.id) else none

/-- A core with an outstanding instruction-cache fill. -/
def State.pickFill (s : State) : Option Nat := ((vlist s.cores).zipIdx.find? fun p => !p.1.fills.isEmpty).map (·.2)

/-- The turn that the agenda names; with an empty agenda, of a warp that can issue, else of the management ring, else of a
fill that returns. -/
def State.nextTurn (s : State) : Option Turn × State :=
  match s.agenda with
  | t :: rest => (some t, { s with agenda := rest })
  | [] =>
    (match s.pickWarp false with
      | some (c, w) => some (.issue c w)
      | none =>
        if s.ringCommand.isSome then some .ring
        else
          match s.pickFill with
          | some c => some (.event (.icacheFill c 0))
          | none => (s.pickWarp true).map fun p => .issue p.1 p.2, s)

end Sys2Proof.Machine
end

