-- ==== Sys2Proof/Machine/DeviceEvents.lean ====
section
/-!
DEFINITION. Steps of the device that no instruction makes: fills of instruction caches (R224), switches on stalls and by time
(R73), adds that arrive at a home (R120), waits (R123 to R127), recalls of ownership (R210), the issue of an unassigned opcode
(R41), errors in the state of a context (R339), and the cycle counters (R126, R159, R350, R387).
-/

namespace Sys2Proof.Machine

open Sys2Proof

/-! ## Instruction-cache fills (R224) -/

/-- ICACHE_FILL: the `n`-th outstanding fill of a core returns. A line of poisoned memory is not allocated. -/
def execIcacheFill (core n : Nat) (s : State) : Out :=
  s.keeping <|
  if s.coreRuns core = false then .next s
  else
    match (s.core core).fills[n]? with
    | none => .next s
    | some f =>
      let bad := s.poisoned f.pa 256
      let l : ILine := { ctx := f.ctx, va := f.va, pa := f.pa, bytes := s.codeBytes f.pa }
      .next (s.modCore core fun c =>
        let c := { c with fills := c.fills.eraseIdx n }
        if bad then c else c.putILine l)

/-! ## Switches (R73) -/

/-- The context of a task; context 0 stands for none. -/
def State.ctxOf (s : State) (task : Nat) : Nat := match s.task? task with
  | some t => t.ctx
  | none => 0

/-- A fixed-length file with a function of each place applied to its element. -/
def vmapIdx {α β : Type} {n : Nat} (v : Vector α n) (f : Nat → α → β) : Vector β n :=
  ⟨⟨v.toArray.toList.zipIdx.map fun p => f p.2 p.1⟩, by simp⟩

/-- The stalls that are memory or fetch stalls. -/
def Stall.ofMemory : Stall → Bool
  | .fetch _ | .remote | .memory => true
  | _ => false

/-- STALL_SWITCH: a memory or fetch stall that has lasted more than 64 cycles is a switch point of a running warp that is not
pinned. -/
def execStallSwitch (w : WarpId) (s : State) : Out :=
  s.keeping <|
  match s.warpAt w.core w.warp with
  | none => .next s
  | some r =>
    match s.warp? r.task r.warp with
    | none => .next s
    | some x =>
      if x.st = .running ∧ x.mac.isNone = true ∧ (x.stall.map Stall.ofMemory) = some true ∧ 64 < x.stalled ∧ s.mayRun (s.ctxOf r.task) = true then
        .next (s.freeSwitch r.task r.warp)
      else .next s

/-- WARP_QUANTUM: a warp that has run 512 cycles since its lane selected it has a switch taken at its next RGN. -/
def execWarpQuantum (w : WarpId) (s : State) : Out :=
  s.keeping <|
  match s.warpAt w.core w.warp with
  | none => .next s
  | some r => .next (s.modWarp r.task r.warp fun x =>
      if x.st = .running ∧ 512 ≤ x.since then { x with quantum := true } else x)

/-! ## Adds that arrive (R120, R122) -/

/-- STALAGMITE_ADD_APPLY: an add arrives at the home of a stalagmite of local memory; it is applied, which wakes the waiters that
the new value satisfies, or refused. -/
def execStalagmiteAddApply (pa : Nat) (amt : W64) (s : State) : Out :=
  s.keeping <|
  if s.mgmt.boot = 3 ∧ pa % 8 = 0 ∧ pa < hbmEnd then .next (s.sgAddAt pa amt.toNat).2 else .next s

/-! ## Waits (R123 to R127) -/

/-- The wakes of a warp's entries reach it (R127): the entries are free, and the wait goes on for the other stalagmites. -/
def State.wakesReach (s : State) (r : WarpRef) : State :=
  let due (z : WaiterEntry) : Bool := z.who == Waiter.warp r.task r.warp && z.woken
  let met (i : WaitItem) : Bool := s.waiters.any fun z => due z && i.place == .phys z.pa
  let s := { s with waiters := s.waiters.filter fun (z : WaiterEntry) => !due z }
  s.modWarp r.task r.warp fun x =>
    { x with wait := x.wait.map fun y => { y with items := y.items.filter fun i => !met i } }

/-- WAKE_DELIVERY: a wake reaches the lane, the warp's entries are free, and the waiting warp becomes Ready, unless its record is
outside its limits (R378); a freeze does not hold the wake (R127). Before the last stalagmite of the wait is satisfied, the wakes of the
others free their entries. -/
def execWakeDelivery (w : WarpId) (s : State) : Out :=
  s.keeping <|
  match s.warpAt w.core w.warp with
  | none => .next s
  | some r =>
    match s.warp? r.task r.warp with
    | none => .next s
    | some x =>
      if x.st ≠ .blocked then .next s
      else if (x.wait.map fun (y : Wait) => y.woken) = some true then
        let s := { s with waiters := s.waiters.filter fun (z : WaiterEntry) => z.who != Waiter.warp r.task r.warp }
        .next (if x.bad then s.stopBad (s.ctxOf r.task) r.task r.warp
          else s.modWarp r.task r.warp fun x => { x with st := .ready })
      else .next (s.wakesReach r)

/-- A local stalagmite of a wait has reached its target. -/
def State.itemMet (s : State) (i : WaitItem) : Bool :=
  match i.place with
  | .phys pa => decide (i.target ≤ s.homeN pa 8)
  | _ => false

/-- The waits of a warp for which the table of a peer was full are presented again there (R124). -/
def State.presentAgain (s : State) (task warp : Nat) : State :=
  (s.outstanding.filter fun o => o.who == .warp task warp && opWaits o.op && o.entry == 2).foldl (fun (s : State) (o : Outstanding) =>
    match s.request o.who o.key o.ctx o.va o.peer o.op with
    | some s => { s with outstanding := s.outstanding.filter fun (x : Outstanding) => x.tag != o.tag }
    | none => s) s

/-- The items of a wait that are presented again (R124): those refused at a peer, and those of this device when some were refused. -/
def State.itemsAgain (s : State) (r : WarpRef) (y : Wait) : List WaitItem :=
  y.items.filter fun i => match i.place with
    | .remote peer off => s.outstanding.any fun o =>
        o.who == .warp r.task r.warp && o.entry == 2 && o.peer == peer && o.op == .sgWait off i.target
    | _ => !y.entered && !s.itemMet i

/-- The presented items' addresses walked again (R198): whether each still leads to its stalagmite, and the TLBs. -/
def State.walkAgain (s : State) (who : Who) (is : List WaitItem) : Bool × State :=
  is.foldl (fun (acc : Bool × State) i =>
    match acc.2.translate who .sgRead i.va 8 with
    | (.ok t, s) => (acc.1 && t.place == i.place, s)
    | (.error _, s) => (false, s)) (true, s)

/-- A warp of a core as the maker of an access (R192). -/
def State.warpWho (s : State) (r : WarpRef) (core : Nat) (x : Warp) : Who :=
  { ctx := s.ctxOf r.task, priv := s.privCtx (s.ctxOf r.task), cluster := clusterOf core, quarter := some (core, x.lane / 8) }

/-- WAIT_REPRESENT (R124): a wait that a slice refused an entry is presented again; a stalagmite that has reached its target
meanwhile satisfies it. A wait whose address now leads elsewhere, or nowhere, is made again from its start (R198). -/
def execWaitRepresent (w : WarpId) (s : State) : Out :=
  s.keeping <|
  match s.warpAt w.core w.warp with
  | none => .next s
  | some r =>
    match s.warp? r.task r.warp with
    | none => .next s
    | some x =>
      match x.wait with
      | none => .next s
      | some y =>
        if x.st ≠ .blocked ∨ y.woken = true ∨ s.mgmt.boot ≠ 3 then .next s
        else
          let g := s.walkAgain (s.warpWho r w.core x) (s.itemsAgain r y)
          if g.1 = false then
            .next ((g.2.withdrawWaits r.task r.warp).modWarp r.task r.warp fun x => { x with st := .ready, wait := none })
          else
          let s := g.2.presentAgain r.task r.warp
          let p := if y.entered then (true, s) else s.present r.task r.warp (y.items.filter fun i => !s.itemMet i)
          let all := p.2.allWoken r.task r.warp
          .next (p.2.modWarp r.task r.warp fun (x : Warp) =>
            { x with wait := x.wait.map fun (y : Wait) => { y with entered := p.1, woken := p.1 && all } })

/-- A participant's condition is still unmet: its stalagmite's wait goes on, and the value is below the target at its home here, or in what
the peer has answered last. -/
def State.partUnmet (s : State) (r : WarpRef) (y : Wait) (x : Nat × Place × Nat × Nat) : Bool :=
  match x.2.1 with
  | .phys pa => (y.items.any fun i => i.place == .phys pa) && decide (s.homeN pa 8 < x.2.2.1)
  | .remote peer off => s.outstanding.any fun o => o.who == .warp r.task r.warp && o.peer == peer &&
      (match o.op with
        | .sgWait a _ => a == off && decide (o.seen < x.2.2.1)
        | _ => false)
  | _ => false

/-- Some participant whose condition is unmet has reached its own timeout (R126). -/
def State.late (s : State) (r : WarpRef) (y : Wait) : Bool :=
  y.parts.any fun p => s.partUnmet r y p && p.2.2.2 != 0 && decide (p.2.2.2 ≤ y.elapsed)

/-- The threads whose condition is still unmet (R126). -/
def State.unmetMask (s : State) (r : WarpRef) (y : Wait) : BitVec 16 :=
  (y.parts.filter fun p => s.partUnmet r y p).foldl (fun (m : BitVec 16) p => m ||| BitVec.ofNat 16 p.1) 0

/-- The items at peers of which some participant waits for less than the entry's target, by an old value (R123, R126). -/
def State.unsure (s : State) (r : WarpRef) (y : Wait) : List WaitItem :=
  y.items.filter fun i => (match i.place with
      | .remote _ _ => true
      | _ => false) && y.parts.any fun p => p.2.1 == i.place && decide (p.2.2.1 < i.target) && s.partUnmet r y p

/-- The key of the read of an item's value. -/
def valueKey (i : WaitItem) : Nat := 7000 + i.tid

/-- The value of an item asked for at its peer, once. -/
def State.askValue (s : State) (r : WarpRef) (i : WaitItem) : State :=
  let who : Asker := .warp r.task r.warp
  match i.place with
  | .remote peer off =>
    if s.outstanding.any fun o => o.who == who && o.key == valueKey i then s
    else match s.request who (valueKey i) (s.ctxOf r.task) i.va peer (.load off 8) with
      | some s => s
      | none => { s with answers := s.answers ++ [{ who := who, key := valueKey i, ok := false, val := 0, peer := peer, op := none }] }
  | _ => s

/-- An item's value has been answered, or could not be asked for. -/
def State.valueKnown (s : State) (r : WarpRef) (i : WaitItem) : Bool :=
  s.answers.any fun a => a.who == .warp r.task r.warp && a.key == valueKey i

/-- The answered values stand with the waits, and are used up. -/
def State.learn (s : State) (r : WarpRef) (is : List WaitItem) : State :=
  let who : Asker := .warp r.task r.warp
  let seen (o : Outstanding) : Outstanding :=
    match is.find? fun i => match i.place with
      | .remote peer off => o.who == who && o.peer == peer && o.op == .sgWait off i.target
      | _ => false with
    | some i => match s.answers.find? fun a => a.who == who && a.key == valueKey i && a.ok with
      | some a => { o with seen := max o.seen (a.val % 2 ^ 64) }
      | none => o
    | none => o
  { s with
    outstanding := s.outstanding.map seen,
    answers := s.answers.filter fun (a : Answer) => !(a.who == who && is.any fun i => a.key == valueKey i) }

/-- SG_WAIT_TIMEOUT (R126): some participant whose condition is unmet has reached its own timeout; the fault names every
participant still unmet. A wake that has reached the lane wins. Of a stalagmite at a peer that some participant awaits with less than the
entry's target the value is asked for first. DESIGN CHOICE (log 139). -/
def execSgWaitTimeout (w : WarpId) (s : State) : Out :=
  s.keeping <|
  match s.warpAt w.core w.warp with
  | none => .next s
  | some r =>
    match s.warp? r.task r.warp with
    | none => .next s
    | some x =>
      match x.wait with
      | none => .next s
      | some y =>
        let is := s.unsure r y
        if x.st ≠ .blocked ∨ y.woken = true ∨ s.mayRun (s.ctxOf r.task) = false ∨ s.late r y = false then .next s
        else if is.all (s.valueKnown r) = false then .next ((is.filter fun i => !s.valueKnown r i).foldl (fun s i => s.askValue r i) s)
        else
          let s := s.learn r is
          if s.late r y = true then
            .next (s.takeFault r.task r.warp ((x.lowestPc).getD 0) { cause := .sgWaitTimeout, mask := s.unmetMask r y })
          else .next s

/-! ## Ownership (R210, R212) -/

/-- OWNERSHIP_RECALL: another core registers a word that a core owns; the owner's written bytes are merged at the home and its
copy becomes Invalid. -/
def execOwnershipRecall (core pa : Nat) (s : State) : Out :=
  s.keeping <|
  if s.mgmt.boot = 3 ∧ s.ownerOf pa = some core then .next (s.release pa false) else .next s

/-! ## Unassigned opcodes (R41) -/

/-- UNASSIGNED_OPCODE: the slot about to issue holds no instruction of R40; nothing changes but the fault that is taken. -/
def execUnassignedOpcode (_w : InstrWord) (s : State) : Out :=
  s.keeping <|
  match s.issuer.bind fun r => (s.warp? r.task r.warp).map fun w => (r, w) with
  | none => .fault .noIssuer
  | some (r, w) =>
    faultOut s r.task r.warp ((w.lowestPc).getD 0) { cause := .illegalOpcode, mask := maskOf w.activeSet }

/-! ## Errors in the state of a context (R339) -/

/-- A queue is in a state in which SUSPEND stops it (R141). -/
def Queue.serving (x : Queue) : Bool := x.st == .enabled || x.st == .running || x.st == .blocked

/-- The queues of a context that serve stop, as SUSPEND stops them (R141). -/
def State.stopQueues (s : State) (ctx : Nat) : State :=
  (List.range 64).foldl (fun (s : State) (q : Nat) =>
    if (s.queue q).ctx = ctx ∧ (s.queue q).serving = true then s.dropHead q fun x => { x with st := .suspended } else s) s

/-- The context becomes faulted: its queues and tasks stop, and the host is told. -/
def State.faultContext (s : State) (ctx : Nat) : State :=
  let s := s.modCtx ctx fun c => { c with st := 8, moving := false }
  let s := { s.stopQueues ctx with reports := s.reports ++ [(ctx, Cause.uncorrectableState.code)] }
  (s.tasks.filter fun t => t.ctx == ctx).foldl (fun (s : State) (t : Task) =>
    (List.range t.warps.length).foldl (fun (s : State) (i : Nat) => s.withdrawWaits t.id i) s) s

/-- CONTEXT_STATE_ERROR: an uncorrectable error in the state of a context in states 2 to 5. -/
def execContextStateError (ctx : Nat) (s : State) : Out :=
  s.keeping <|
  if s.mgmt.boot = 3 ∧ ctx < 64 ∧ 2 ≤ (s.ctx ctx).st ∧ (s.ctx ctx).st ≤ 5 then .next (s.faultContext ctx) else .next s

/-! ## The cycle counters (R73, R126, R159, R291, R350, R387) -/

/-- The largest value of a profiling counter (R387). -/
def counterTop : Nat := 2 ^ 48 - 1

/-- The line of a warp's next slot stands in the instruction cache, or the slot needs none (R83, R163, R224). -/
def State.lineHere (s : State) (core : Nat) (t : Task) (w : Warp) : Bool :=
  w.mac.isSome || match w.lowestPc with
    | some pc => (pc == t.entry && !t.entryLine.isEmpty && !w.unentered.isEmpty)
        || (s.core core).icache.any fun l => l.ctx == t.ctx && l.va == codeLine pc.toNat
    | none => false

/-- What a stall waited for has come free: the port, the plane, the tile, the code table, the encoder or the command queue (R194, R275,
R277, R280, R315, R324). -/
def State.freed (s : State) (core : Nat) (t : Task) (i : Nat) (w : Warp) : Bool :=
  let k := s.core core
  let own := k.ops.find? fun o => o.task == t.id && o.warp == i && o.pending
  let before := match own with
    | some o => k.earlier o.n
    | none => k.ops
  match w.stall, own with
  | some .matrixPort, _ => decide (k.portLoad (w.lane / 8) < 4)
  | some .planeBusy, some o => o.kind == 4 && o.weights.isSome
  | some .tileInterlock, some o => [o.tile, o.atile].all fun n => match n with
    | some n => !before.any fun x => x.names t.id n
    | none => true
  | some .decode, _ => !before.any fun x => x.kind == 7 && x.task == t.id
  | some .encode, _ => !before.any fun x => x.kind == 5 || x.kind == 6
  | some .tlbQueue, _ => decide (s.invq.length < invCap)
  | _, _ => false

/-- The warp's lane could issue its next instruction in this cycle (R387). DESIGN CHOICE (log 156): an instruction that has not yet been
tried counts as one that could issue once its line is in the cache. -/
def State.eligibleWarp (s : State) (core : Nat) (t : Task) (i : Nat) (w : Warp) : Bool :=
  (w.st == .ready || w.st == .running) && s.mayTurn t i w && w.lowestPc.isSome
    && (match w.stall with
      | none => s.lineHere core t w
      | some .replay | some .sumpSwitch => false
      | some _ => s.unstalled t core i w || s.freed core t i w)

/-- An operation waits for its decoder (R279): for an earlier load of its code table, or in the cycles by which an attempt at its
decode exceeds the fetch of its raw bytes. The attempts of R322, three at most, follow one another (R336). DESIGN CHOICE (log 156). -/
def State.decoderWaits (s : State) (core : Nat) (o : MatOp) : Bool :=
  o.coded && o.pending && (o.kind == 0 || o.kind == 2) && (s.tableWaits core o || match o.began with
    | none => false
    | some b =>
      let t := (s.core core).cycles - b
      let per := max o.rawCycles o.symbolCycles
      decide (t < 3 * per) && decide (o.rawCycles ≤ t % per))

/-- A warp waits for the decoder of its coded operand. -/
def State.decoding (s : State) (t : Task) (i : Nat) : Bool :=
  match t.core with
  | none => false
  | some core => (s.core core).ops.any fun (o : MatOp) => o.task == t.id && o.warp == i && s.decoderWaits core o

/-- The reason that keeps a warp from issuing (R387). DESIGN CHOICE (log 32): whatever no other reason names counts as
DEPENDENCY. -/
def State.stallReason (s : State) (t : Task) (i : Nat) (w : Warp) : Nat :=
  if (s.frozen ∧ s.debugSlot ≠ some t.ctx) ∨ s.traceFull t.id i = true then 15
  else if (s.ctx t.ctx).st ≠ 3 ∨ (s.ctx t.ctx).moving = true then 13
  else
    match w.wait, w.stall with
    | some x, _ => x.why
    | none, some (.fetch _) => 0
    | none, some .memory => if s.decoding t i then 8 else 2
    | none, some .remote | none, some .tlbQueue => 2
    | none, some .matrixPort => 5
    | none, some .planeBusy => 6
    | none, some .tileInterlock => 7
    | none, some .decode => 8
    | none, some .encode => 9
    | none, some .sumpSwitch => 11
    | none, some .replay => 12
    | none, none =>
      if w.st = .ready ∨ w.st = .running then
        if w.lowestPc = none then 4 else if t.core.any fun k => !s.lineHere k t w then 0 else 1
      else 1

/-- The resident warps of a lane. -/
def State.laneResidents (s : State) (core lane : Nat) : List (Task × Nat × Warp) :=
  (s.tasks.filter fun t => t.core = some core && !t.ended).flatMap fun t =>
    (t.warps.zipIdx.filter fun p => p.1.lane == lane && p.1.st != .done).map fun p => (t, p.2, p.1)

/-- The warp that a stall cycle is charged to: the one placed earliest, and of several the one of the lowest slot. -/
def oldestOf (ws : List (Task × Nat × Warp)) : Option (Task × Nat × Warp) :=
  ws.foldl (fun m x => match m with
    | none => some x
    | some y =>
      if x.1.born < y.1.born ∨ (x.1.born = y.1.born ∧ x.2.2.slot < y.2.2.slot) then some x else some y) none

/-- One cycle of a lane (R387). -/
def State.laneCycle (s : State) (core lane : Nat) : State :=
  let ws := s.laneResidents core lane
  let e := (ws.filter fun x => s.eligibleWarp core x.1 x.2.1 x.2.2).length
  let s' := s.modCore core fun c =>
    { c with lanes := vmod c.lanes lane fun (l : Lane) => { l with h := vmod l.h (min e 4) fun n => min (n + 1) counterTop } }
  if e ≠ 0 then s'
  else
    match oldestOf ws with
    | none => s'
    | some (t, i, w) =>
      let r := s.stallReason t i w
      s'.modWarp t.id i fun (w : Warp) => { w with stalls := vmod w.stalls r fun n => min (n + 1) counterTop }

/-- The counts of a core that a freeze stops: core cycles, and the cycles without an advance of its matrix engine (R291, R350). -/
def Core.cycle (c : Core) : Core :=
  let works := (c.ops.any fun (o : MatOp) => o.kind == 0 || o.kind == 2) || !c.drains.isEmpty
  { c with cycles := c.cycles + 1, idle := if works then c.idle + 1 else 0 }

/-- The counts of a warp: cycles since its selection, those of the memory or fetch stall in which it stands, and the time of its wait
(R73, R126). -/
def Warp.cycle (w : Warp) : Warp :=
  match w.st with
  | .running => { w with since := w.since + 1, stalled := if (w.stall.map Stall.ofMemory) = some true then w.stalled + 1 else 0 }
  | .blocked => { w with wait := w.wait.map fun (x : Wait) => { x with elapsed := x.elapsed + 1 } }
  | _ => w

/-- The counts of a task: its timer, and those of its warps (R159). -/
def Task.cycle (t : Task) : Task := { t with timer := t.timer.map fun n => n - 1, warps := t.warps.map .cycle }

/-- The model's units of time in one core cycle at a clock level (R12, R350). -/
def cycleTime (level : Nat) : Nat := 2 ^ 20 * 1000 / (1000 + 100 * level)

/-- PROFILE_CYCLE: one core cycle passes on every core. -/
def execProfileCycle (s : State) : Out :=
  s.keeping <|
  if s.mgmt.boot ≠ 3 then .next s
  else
    let s := (List.range 192).foldl (fun (s : State) (core : Nat) => if s.coreRuns core then s.beginFetch core else s) s
    let s := (List.range 192).foldl (fun (s : State) (core : Nat) =>
      (List.range 32).foldl (fun (s : State) (lane : Nat) => s.laneCycle core lane) s) s
    let runs (core : Nat) : Bool := s.coreRuns core
    .next { s with
      cores := vmapIdx s.cores fun core (c : Core) => if runs core then c.cycle else c,
      tasks := s.tasks.map fun (t : Task) => match t.core with
        | some core => if runs core && !t.ended then t.cycle else t
        | none => t,
      time := s.time + cycleTime s.mgmt.clkLvl }

end Sys2Proof.Machine
end

