-- ==== Sys2Proof/Machine/Preempt.lean ====
section
/-!
DEFINITION. Pre-emption and restore (R78, R234, R255, R292, R301, R343, R344): where threads stop, what is kept of them, how a task
leaves its core and how it comes back.
-/

namespace Sys2Proof.Machine

open Sys2Proof

/-! ## The stop (R343) -/

/-- Every warp of a context as far as it has stopped. -/
def State.haltAll (s : State) (ctx : Nat) : State :=
  (s.tasks.filter fun t => t.ctx == ctx).foldl (fun (s : State) (t : Task) =>
    (List.range t.warps.length).foldl (fun (s : State) (i : Nat) => s.halt t.id i) s) s

/-- The queues of a context act as if SUSPEND had been written, after a submission that is under way (R141, R343). -/
def State.preemptQueues (s : State) (ctx : Nat) : State :=
  let due (q : Nat) : Bool :=
    (s.queue q).ctx == ctx && (s.queue q).serving && (s.queue q).retiring == 0 && (s.queue q).later.isEmpty
  let s := { s with queues := vmapAll s.queues fun (q : Queue) =>
    if q.ctx = ctx ∧ (q.retiring ≠ 0 ∨ q.later ≠ []) then { q with later := q.later ++ [3] } else q }
  ((List.range 64).filter due).foldl (fun (s : State) (q : Nat) => s.dropHead q fun x => { x with st := .suspended }) s

/-- No queue of a context retires an entry, and its commands have taken effect. -/
def State.queuesQuiet (s : State) (ctx : Nat) : Bool := (vlist s.queues).all fun q =>
  q.ctx != ctx || (q.retiring == 0 && (q.later.isEmpty || q.st == .disabled))

/-- PREEMPT begins (R343): the queues are suspended, and every warp is brought to a stop. -/
def State.beginPreempt (s : State) (ctx : Nat) : State :=
  let s := s.preemptQueues ctx
  (s.modCtx ctx fun c => { c with moving := true }).haltAll ctx

/-! ## What has to finish first (R234, R292, R301, R323) -/

/-- An add that is under way at a peer. -/
def opAdds : HomeOp → Bool
  | .sgAdd _ _ => true
  | _ => false

/-- An engine makes an add of a command of the task: the completion add of one that has moved its payload, or any whose peer has not
answered or whose answer has not been used (R301, R302, R308). -/
def State.adding (s : State) (core : Nat) (x : Bool) (task : Nat) : Bool :=
  let e := s.engine core x
  match e.queue with
  | c :: _ => c.task == task && ((c.moved && e.st == 1)
      || (s.outstanding.any fun o => o.who == engineAsker core x && opAdds o.op)
      || s.answers.any fun a => a.who == engineAsker core x && (a.op.map opAdds) == some true)
  | [] => false

/-- A resident task can leave its core. -/
def State.canLeave (s : State) (t : Task) : Bool :=
  match t.core with
  | none => true
  | some core =>
    let k := s.core core
    (t.warps.zipIdx.all fun p => s.stopped t.id p.2 p.1)
      && !(k.ops.any fun (o : MatOp) => o.task == t.id && (o.kind == 0 || o.kind == 2))
      && !(k.drains.any fun (d : DrainOp) => d.task == t.id)
      && !s.adding core false t.id && !s.adding core true t.id && !s.storesOut t.id

/-- The release of a warp reports a store to a peer that failed (R234, R368). -/
def State.reportFailed (s : State) (task warp : Nat) : State :=
  match s.warp? task warp with
  | none => s
  | some w =>
    match w.st, w.failed with
    | .done, _ | .suspended, _ | _, [] => s
    | _, (va, reason) :: _ =>
      let s := s.modWarp task warp fun w => { w with failed := [], halted := 0 }
      s.takeFault task warp ((w.lowestPc).getD 0) (unreachable (maskOf w.activeSet) va reason)

/-! ## What is kept (R78, R79, R99, R255) -/

/-- A thread kept in full although its warp is not suspended: it stands in no region, or a sump loop parks it. -/
def Warp.keptFull (w : Warp) (t : Tid) : Bool := !(w.thread t).region.inside || w.parked t

/-- A thread kept by the record of its region: its region entry and the registers that the record marks live. -/
def Thread.keepLive (th : Thread) (looping : Bool) : Thread :=
  let r := th.region
  { (({ th with seed := r.seed } : Thread).beginRegion r.entry r.live r.half) with
    pc := r.entry,
    g := vmapIdx th.g fun i (x : W32) => if r.live.g.getLsbD i then x else 0,
    bank := if looping then th.bank else vfill 32 0,
    p := th.p &&& r.live.p,
    wsync := none, atHalf := r.half }

/-- The s registers and q predicates that a warp keeps. -/
def Warp.keptS (w : Warp) (ts : List Tid) : W64 × BitVec 8 :=
  if ts.any w.keptFull then (~~~0, ~~~0)
  else ts.foldl (fun (m : W64 × BitVec 8) t => (m.1 ||| (w.thread t).region.live.s, m.2 ||| (w.thread t).region.live.q)) (0, 0)

/-- The counters that a restore starts at zero (R387). -/
def Warp.uncounted (w : Warp) : Warp :=
  { w with issued := 0, stalls := vfill 16 0, since := 0, quantum := false, halted := 0, touched := [], lastPc := 0, lastMask := 0 }

/-- A warp as a pre-emption keeps it: a Suspended one in full, another by its threads. -/
def Warp.keep (w : Warp) : Warp :=
  match w.st with
  | .done | .suspended => w.uncounted
  | _ =>
    let w := { w with halted := 0 }
    let ts := allTids.filter fun t => !(w.thread t).exited
    let m := w.keptS ts
    let looping := w.sump.mode != .inactive
    let kept := ts.filter fun t => !w.keptFull t
    { (w.modThreads kept fun th => th.keepLive looping).uncounted with
      st := .ready, s := vmapIdx w.s fun i (x : W64) => if m.1.getLsbD i then x else 0, q := w.q &&& m.2,
      done := 0, wait := none, stall := none, failed := [] }

/-! ## A task leaves its core (R301, R308, R343) -/

/-- The commands of a task leave an engine; of one in progress the destination is undefined until it has run again (R301), and one that
stopped the engine stays stopped until its record is taken and CMD names what becomes of it (R300, R358). -/
def State.takeCommands (s : State) (core task : Nat) (x : Bool) : List (Bool × EngineCmd) × State :=
  let e := s.engine core x
  let q := e.queue
  let first := match q with
    | c :: _ => c.task == task
    | [] => false
  let mine := (q.filter fun c => c.task == task).zipIdx.map fun p =>
    (x, if first && e.st == 3 && p.2 == 0 then { p.1 with stopped := some (e.pushed, e.todo) } else p.1.again x)
  let s := if first then (s.abandon core x).forget (if x then .xform core else .copy core) else s
  (mine, s.modEngine core x fun e =>
    let rest := e.queue.filter fun c => c.task != task
    if first then { e with st := 0, queue := rest, pushed := false, todo := 0 } else { e with queue := rest })

/-- A task is saved and its core is free of it. -/
def State.saveTask (s : State) (t : Task) : State :=
  match t.core with
  | none => s
  | some core =>
    let s := (List.range t.warps.length).foldl (fun (s : State) (i : Nat) => (s.withdrawWaits t.id i).dropTurns t.id i) s
    let a := s.takeCommands core t.id false
    let b := a.2.takeCommands core t.id true
    b.2.modTask t.id fun t => { t with core := none, last := core, cmds := t.cmds ++ a.1 ++ b.1, warps := t.warps.map .keep }

/-- The tasks of a context that its cores hold. -/
def State.residentTasks (s : State) (ctx : Nat) : List Task := s.tasks.filter fun t => t.ctx == ctx && t.core.isSome

/-- No cached translation or table entry of the context is left (R199). -/
def State.forgetTranslations (s : State) (ctx : Nat) : State :=
  { s with
    tlb := s.tlb.filter fun (t : TlbEntry) => t.ctx != ctx
    walks := s.walks.filter fun (w : WalkEntry) => w.ctx != ctx }

/-- The tasks of a context leave their cores, and its translations are forgotten (R199, R343). -/
def State.leaveCores (s : State) (ctx : Nat) : State :=
  let s := (s.residentTasks ctx).foldl (fun (s : State) (t : Task) =>
    (List.range t.warps.length).foldl (fun (s : State) (i : Nat) => s.reportFailed t.id i) s) s
  let s := (s.residentTasks ctx).foldl (fun (s : State) (t : Task) => s.saveTask t) s
  s.forgetTranslations ctx

/-! ## The restore (R344) -/

/-- RESTORE (R344): every saved task is placed, and then the queues of the context resume as
RESUME of R141 states. -/
def State.resumeContext (s : State) (ctx : Nat) : State :=
  let s := (s.forgetTranslations ctx).modCtx ctx fun c => { c with st := 3, image := none }
  let s := s.bringTasks ctx
  { s with queues := vmapAll s.queues fun (q : Queue) => if q.ctx = ctx ∧ q.st = .suspended then { q with st := .enabled } else q }

end Sys2Proof.Machine
end

