-- ==== Sys2Proof/Machine/DebugSpace.lean ====
section
/-!
DEFINITION. The debug space (R377, R378): what an address of it names, its checks, and loads and stores of its five kinds of
objects and of memory at its home; the debug and trace registers of a core (R379, R383).
-/

namespace Sys2Proof.Machine

open Sys2Proof

/-! ## Trace registers (R383) -/

/-- Length of the trace buffer in bytes. -/
def DebugRegs.traceLen (d : DebugRegs) : Nat := (d.trclen.extractLsb' 0 16).toNat * 512

/-- The trace buffer lies inside a vault extent held by the debug partition, and is not empty (R383). -/
def State.traceFits (s : State) (d : DebugRegs) : Bool :=
  decide (d.traceLen ≠ 0) && s.tasks.any fun t => s.debugSlot == some t.ctx && match t.vault with
    | some (id, off, len) =>
      let lo := id * 2 ^ 24 + off
      decide (lo ≤ d.traceBuf) && decide (d.traceBuf + d.traceLen ≤ lo + len * 65536)
    | none => false

/-- The bits of TRCCFG that a write changes. -/
def trccfgMask : W64 := 0xBF1FFFFF3FFFFE00

/-- EN of TRCCFG cleared. -/
def DebugRegs.traceOff (d : DebugRegs) : DebugRegs := { d with trccfg := d.trccfg &&& 0x7FFFFFFFFFFFFFFF }

/-- A write of TRCCFG; `go`: the byte that holds EN is written (R383). A buffer that does not fit turns the trace off. -/
def State.writeTrccfg (s : State) (core : Nat) (v : W64) (go : Bool) : State :=
  let s := s.modCore core fun c => { c with dbg := { c.dbg with trccfg := v &&& trccfgMask } }
  let d := (s.core core).dbg
  if !d.traceOn then s
  else if !s.traceFits d then s.modCore core fun c => { c with dbg := c.dbg.traceOff }
  else if !go then s
  else
    let s := s.modCore core fun c => { c with dbg := { c.dbg with trcpos := 0, sinceFrame := 0, late := [] } }
    match s.tasks.find? fun t => t.ctx == d.traceCtx && t.dir == d.traceHandle % 2 ^ 16 && t.core == some core && !t.ended with
    | none => s
    | some t =>
      let i := d.traceHandle / 2 ^ 16
      match t.warps[i]? with
      | some w => s.putFrame core w.id 1 (s.syncBody t i w)
      | none => s

/-- A write of TRCLEN: a buffer that no longer fits turns the trace off. -/
def State.writeTrclen (s : State) (core : Nat) (v : W64) : State :=
  let s := s.modCore core fun c => { c with dbg := { c.dbg with trclen := v &&& 0xFFFF } }
  if s.traceFits (s.core core).dbg then s else s.modCore core fun c => { c with dbg := c.dbg.traceOff }

/-! ## Resuming and killing by DRES (R379) -/

/-- The Suspended warp of a core and warp id. -/
def State.suspendedAt (s : State) (core wid : Nat) : Option WarpRef :=
  (s.warpAt core wid).filter fun r => match s.warp? r.task r.warp with
    | some w => w.st == .suspended
    | none => false

/-- DRES with KILL = 0: as RESUME. -/
def State.dresResume (s : State) (core wid : Nat) : State :=
  match s.suspendedAt core wid with
  | some r => (s.resumeWarp r.task r.warp).2
  | none => s

/-- DRES with KILL = 1: as KILL; a task of a frozen context ends at the thaw (R381). -/
def State.dresKill (s : State) (core wid : Nat) : State :=
  match s.suspendedAt core wid with
  | some r =>
    match s.task? r.task with
    | some t =>
      if s.frozen && s.debugSlot != some t.ctx then { s with doomed := s.doomed ++ [r.task] } else (s.killTask r.task).2
    | none => s
  | none => s

/-! ## The registers of a core (R379, R383) -/

/-- The register at an offset; none where there is none. DRES reads as zero. -/
def DebugRegs.get (d : DebugRegs) (off : Nat) : Option W64 :=
  if off < 0x40 then some (vget d.hbp (off / 8) 0)
  else if off < 0x80 then some (if off % 16 = 0 then vget d.wpa ((off - 0x40) / 16) 0 else vget d.wpl ((off - 0x40) / 16) 0)
  else if off = 0x80 then some d.step0
  else if off = 0x88 then some d.step1
  else if off = 0x90 then some d.trccfg
  else if off = 0x98 then some d.trclen
  else if off = 0xA0 then some d.trcpos
  else if off = 0xC0 then some 0
  else none

/-- HBP and WPA without their reserved bit. -/
def matchMask : W64 := 0xBFFFFFFFFFFFFFFF

/-- A write of the register at an offset; `go`: the byte that starts an action is among those written. -/
def State.writeDebugReg (s : State) (core off : Nat) (v : W64) (go : Bool) : State :=
  let set (f : DebugRegs → DebugRegs) : State := s.modCore core fun c => { c with dbg := f c.dbg }
  if off < 0x40 then set fun d => { d with hbp := vset d.hbp (off / 8) (v &&& matchMask) }
  else if off < 0x80 then
    if off % 16 = 0 then set fun d => { d with wpa := vset d.wpa ((off - 0x40) / 16) (v &&& matchMask) }
    else set fun d => { d with wpl := vset d.wpl ((off - 0x40) / 16) (v &&& 0x3FFFFFFFF) }
  else if off = 0x80 then set fun d => { d with step0 := v }
  else if off = 0x88 then set fun d => { d with step1 := v }
  else if off = 0x90 then s.writeTrccfg core v go
  else if off = 0x98 then s.writeTrclen core v
  else if off = 0xC0 ∧ go = true then
    if v.getLsbD 8 then s.dresKill core (v.extractLsb' 0 7).toNat else s.dresResume core (v.extractLsb' 0 7).toNat
  else s

/-! ## Addresses of the debug space (R377) -/

/-- What an address of the debug space names: its region, core, object of the core and offset; for memory the offset is a
physical address. -/
structure DebugAt where
  region : Nat
  core : Nat
  idx : Nat
  off : Nat
  deriving DecidableEq, Repr

/-- The object at an address; none for a reserved region, reserved bits and absent cores. -/
def debugAt (a : Nat) : Option DebugAt :=
  let core := bitsOf a 51 44
  let obj (ok : Bool) (idx off : Nat) : Option DebugAt :=
    if ok && decide (core ≤ 191) then some { region := a / 2 ^ 52, core := core, idx := idx, off := off } else none
  match a / 2 ^ 52 with
  | 0 => obj (bitsOf a 43 12 == 0) 0 (bitsOf a 11 0)
  | 1 => obj true (bitsOf a 43 37) (bitsOf a 36 0)
  | 2 => obj (bitsOf a 37 13 == 0) (bitsOf a 43 38) (bitsOf a 12 0)
  | 3 => obj (bitsOf a 41 15 == 0) (bitsOf a 43 42) (bitsOf a 14 0)
  | 4 => obj (bitsOf a 37 9 == 0) (bitsOf a 43 38) (bitsOf a 8 0)
  | 5 => some { region := 5, core := 0, idx := 0, off := bitsOf a 51 0 }
  | _ => none

/-- The task that holds an object of a core, and the object's number in the task. -/
def State.debugOwner (s : State) (d : DebugAt) : Option (Task × Nat) :=
  if d.region = 1 then
    (s.warpAt d.core d.idx).bind fun r => (s.task? r.task).map fun t => (t, r.warp)
  else
    s.tasks.findSome? fun t =>
      let ids := if d.region = 2 then t.tiles else if d.region = 3 then t.planeIds else t.ctIds
      if t.core == some d.core && !t.ended then (ids.findIdx? fun i => i == d.idx).map fun n => (t, n) else none

/-- Bytes of an object. -/
def State.debugSize (s : State) (d : DebugAt) : Nat :=
  match d.region with
  | 1 => match s.debugOwner d with
    | some (t, i) => match t.warps[i]? with
      | some w => w.recordSize t.regs
      | none => 0
    | none => 0
  | 2 => 8192
  | 3 => planeBytes
  | _ => 320

/-- Every warp of the owning task is Suspended, or the device is frozen (R378). -/
def State.debugOpen (s : State) (d : DebugAt) : Bool :=
  s.frozen || match s.debugOwner d with
    | some (t, _) => t.warps.all fun w => w.st == .suspended
    | none => false

/-- EXTRA of the DEBUG_SPACE that an access of `n` bytes raises; none when it raises none (R378). -/
def State.debugFault (s : State) (d : DebugAt) (n : Nat) : Option Nat :=
  match d.region with
  | 0 => if (List.range n).all fun i => ((s.core d.core).dbg.get ((d.off + i) / 8 * 8)).isSome then none else some 0
  | 5 => if isRemote d.off || decide (d.off + n ≤ hbmEnd) then none else some 0
  | _ =>
    if s.debugSize d < d.off + n then some 0
    else if s.debugOpen d then none else some 1

/-! ## Objects (R345, R377) -/

/-- The bytes of an object; none when no task holds it. -/
def State.debugBytes (s : State) (d : DebugAt) : Option (List Byte) :=
  (s.debugOwner d).map fun p =>
    match d.region with
    | 1 => match p.1.warps[p.2]? with
      | some w => w.record p.1.regs
      | none => []
    | 2 => p.1.tileMem.bytes (8192 * p.2) 8192
    | 3 => (p.1.planes.getD p.2 .empty_).record
    | _ => slotRecord (p.1.ctSlots.getD p.2 none)

/-- The bytes of an object replaced; a plane takes no shape outside its limits (log 31). -/
def State.putDebugBytes (s : State) (d : DebugAt) (bs : List Byte) : State :=
  match s.debugOwner d with
  | none => s
  | some (t, i) =>
    match d.region with
    | 1 => s.modWarp t.id i fun w => w.load t.regs t.macros bs
    | 2 => s.modTask t.id fun t => { t with tileMem := t.tileMem.setBytes (8192 * i) bs }
    | 3 => s.modTask t.id fun t =>
      { t with planes := t.planes.modify i fun (p : Plane) =>
        if planeOk (p.st == .loading) bs then .ofBytes (bs ++ p.rest) else p }
    | _ => s.modTask t.id fun t => { t with ctSlots := t.ctSlots.set i (slotOfRecord bs) }

/-- Bytes with some of them replaced. -/
def splice (bs : List Byte) (off : Nat) (new : List Byte) : List Byte :=
  bs.take off ++ new ++ bs.drop (off + new.length)

/-- A value that the spec leaves open, of `n` bytes. -/
def Op.openValue (n : Nat) : Op Nat := fun s =>
  .ok ((Config.freeValue s.freeCtr).toNat % 2 ^ (8 * n), { s with freeCtr := s.freeCtr + 1 })

/-- A load of the debug space after its checks. -/
def Op.debugLoad (c : Ctx) (t : Tid) (d : DebugAt) (ea n : Nat) : Op Nat := do
  let s ← Op.state
  match d.region with
  | 0 => return ((((s.core d.core).dbg.get (d.off / 8 * 8)).getD 0).toNat >>> (8 * (d.off % 8))) % 2 ^ (8 * n)
  | 5 =>
    if isRemote d.off then
      let v ← Op.ask c.asker (c.key t 0) c.ctx ea (c.maskAt t) (bitsOf d.off 50 45) (.load (d.off % 2 ^ 45) n)
      if 2 ^ (8 * n) ≤ v then
        Op.trapHere { cause := .dataPoison, mask := c.maskAt t, addr := ea }
      return v
    else if s.poisoned d.off n then
      Op.trapHere { cause := .dataPoison, mask := c.maskAt t, addr := ea }
    else do
      let r := s.throughLoad c.core d.off n
      Op.put r.2
      return r.1
  | _ =>
    match s.debugBytes d with
    | some bs => return ofBytes ((bs.drop d.off).take n)
    | none => Op.openValue n

/-- A store of the debug space after its checks; one to memory is written through at its home and wakes the waiters that the new
value satisfies (R378). -/
def Op.debugStore (c : Ctx) (d : DebugAt) (ea n v : Nat) : Op Unit := Op.modify fun s =>
  match d.region with
  | 0 =>
    let reg := d.off / 8 * 8
    let old := toBytes 8 (((s.core d.core).dbg.get reg).getD 0).toNat
    let new := ofBytes (splice old (d.off % 8) (toBytes n v))
    let act := if reg = 0xC0 then 0 else 7
    s.writeDebugReg d.core reg (BitVec.ofNat 64 new) (decide (d.off % 8 ≤ act) && decide (act < d.off % 8 + n))
  | 5 =>
    if isRemote d.off then s.postStore c.task c.warp c.ctx ea (bitsOf d.off 50 45) (.store (d.off % 2 ^ 45) n v)
    else (s.throughStore c.core d.off (toBytes n v)).wakeAt (d.off / 8 * 8)
  | _ =>
    match s.debugBytes d with
    | some bs => s.putDebugBytes d (splice bs d.off (toBytes n v))
    | none => s

/-- The checks of an access of the debug space for every unit, before any performs (R203, R215, R378); `never`: the form is not
admitted there. -/
def Op.debugAim (c : Ctx) (n : Nat) (never : Bool) (eas : List (Tid × Nat)) : Op (List (Tid × Nat × DebugAt)) := do
  let s ← Op.state
  let judge (ea : Nat) : Except (Cause × Nat) DebugAt :=
    if never || s.debugSlot != some c.ctx then .error (.debugSpace, 0)
    else
      match debugAt ea with
      | none => .error (.debugSpace, 0)
      | some d =>
        match s.debugFault d n with
        | some x => .error (.debugSpace, x)
        | none => if ea % n = 0 then .ok d else .error (.misaligned, 0)
  let bad := eas.filterMap fun x => match judge x.2 with
    | .error e => some (x.1, x.2, e.1, e.2)
    | .ok _ => none
  match bad with
  | (_, ea, cause, extra) :: _ =>
    Op.stop (.trap
      { cause := cause, addr := ea, extra := extra,
        mask := (bad.filter fun r => r.2.2.1 == cause).foldl (fun m r => m ||| c.maskAt r.1) 0 })
  | [] =>
    return eas.filterMap fun x => match judge x.2 with
      | .ok d => some (x.1, x.2, d)
      | .error _ => none

/-! ## Events -/

/-- DRES_RESUME (R379). -/
def execDresResume (w : WarpId) (s : State) : Out :=
  s.keeping <| .next (s.dresResume w.core w.warp)

/-- DRES_KILL (R379). -/
def execDresKill (w : WarpId) (s : State) : Out :=
  s.keeping <| .next (s.dresKill w.core w.warp)

/-- TRACE_ENABLE (R383), of a running device (R392). -/
def execTraceEnable (core : Nat) (v : W64) (s : State) : Out :=
  s.keeping <| .next (if s.mgmt.boot = 3 then s.writeTrccfg core v true else s)

end Sys2Proof.Machine
end

