-- ==== Sys2Proof/Machine/SysRegs.lean ====
section
/-!
DEFINITION. The system registers (R341): their values, and what a write of each does, field by field (R6).
-/

namespace Sys2Proof.Machine

open Sys2Proof

/-! ## Freeze and thaw (R376, R381, R382) -/

/-- The warps that a thaw would let run with a record outside its limits (R378), with their contexts. -/
def State.badWarps (s : State) : List (Nat × WarpRef) :=
  (s.tasks.filter fun t => t.core.isSome && !t.ended).flatMap fun t =>
    (t.warps.zipIdx.filter fun p => p.1.bad && (p.1.st == .ready || p.1.st == .running)).map fun p => (t.ctx, { task := t.id, warp := p.2 })

/-- The end of a freeze: every agent goes on from where it stopped, the Karst ports return to the state they left, the tasks killed
meanwhile end, and a warp left with a record outside its limits stops (R367, R378, R381, R382; log 94). -/
def State.thaw (s : State) : State :=
  if !s.frozen then s
  else
    let s := s.traceAll 8
    let gone := s.doomed
    let s := { s with
      frozen := false, doomed := [],
      ports := vmapAll s.ports fun (p : Port) => if p.st = 4 then (({ p with st := p.was }).control).pump else p }
    let s := gone.foldl (fun (s : State) (t : Nat) => (s.killTask t).2) s.lateFrames
    s.badWarps.foldl (fun (s : State) (x : Nat × WarpRef) => s.stopBad x.1 x.2.task x.2.warp) s

/-- A write of FREEZE by the debug partition. -/
def State.freezeNow (s : State) : State := if s.debugSlot.isSome then s.freeze else s

/-- DBGCTL (R376). -/
def State.dbgctl (s : State) : W64 :=
  BitVec.ofNat 64 (s.att % 64 * 2 ^ 10 + s.atten.toNat * 2 ^ 9 + s.frozen.toNat)

/-- A write of DBGCTL: the attachment, and then FREEZE and THAW. -/
def State.writeDbgctl (s : State) (v : W64) : State :=
  let s := { s with att := (v.extractLsb' 10 6).toNat, atten := v.getLsbD 9 }
  let s := if v.getLsbD 1 then s.freezeNow else s
  if v.getLsbD 2 then s.thaw else s

/-- DBGCTL_FREEZE (R376, R381). -/
def execDbgctlFreeze (s : State) : Out :=
  s.keeping <| .next s.freezeNow

/-- DBGCTL_THAW (R382). -/
def execDbgctlThaw (s : State) : Out :=
  s.keeping <| .next s.thaw

/-! ## Values of a context's registers -/

/-- CTXSTAT (R340). -/
def State.ctxstat (s : State) (ctx : Nat) : W64 :=
  let c := s.ctx ctx
  BitVec.ofNat 64 (ctx % 64 * 2 ^ 40 + c.ncl * 2 ^ 32 + c.st % 16 * 2 ^ 28 + c.priv.toNat * 2 ^ 27 + c.shadow.toNat * 2 ^ 26
    + 3 * 2 ^ 8 + c.prof)

/-- TLBSTAT (R194). -/
def State.tlbstat (s : State) : W64 := BitVec.ofNat 64 (s.tlbBad.toNat * 2 ^ 8 + (invCap - s.invq.length))

/-- Warps of a context that hold a mark (R256). -/
def State.holding (s : State) (ctx : Nat) : Nat :=
  ((s.tasks.filter fun t => t.ctx == ctx).map fun t => (t.warps.filter fun w => w.mark).length).sum

/-- GPSTAT (R256). -/
def State.gpstat (s : State) (ctx : Nat) : W64 :=
  let c := s.ctx ctx
  BitVec.ofNat 64 (c.dfqCount * 2 ^ 33 + s.holding ctx % 2 ^ 16 * 2 ^ 17 + c.req.toNat * 2 + c.run.toNat)

/-- PARTMAP (R341). -/
def Context.partmap (c : Context) : W64 :=
  BitVec.ofNat 64 (((List.range 48).map fun i => if c.hasCluster i then 2 ^ i else 0).sum)

/-- A register of a context, or of the device, that no warp owns. -/
def State.sysValue (s : State) (ctx number index : Nat) : W64 :=
  let c := s.ctx ctx
  match number with
  | 0x01 => s.ctxstat ctx
  | 0x03 => c.fpte.setWidth 64
  | 0x04 => c.ptroot0
  | 0x05 => c.ptroot1
  | 0x07 => s.tlbstat
  | 0x10 => (s.queue index).qring
  | 0x11 => BitVec.ofNat 64 (s.queue index).ctl
  | 0x12 => (s.queue index).rdpos
  | 0x18 => c.gpbase
  | 0x19 => c.dfqcfg
  | 0x1A => s.gpstat ctx
  | 0x28 => s.engineReg index false
  | 0x29 => s.engineReg index true
  | 0x30 => c.fring
  | 0x31 => c.cqcfg
  | 0x32 => if c.shadow then 1 else 0
  | 0x33 => c.partmap
  | 0x34 => vget s.rwin index 0
  | 0x35 => vget s.rwrng index 0
  | 0x40 => s.dbgctl
  | _ => 0

/-- TVAULT (R202). -/
def Task.tvault (t : Task) : W64 :=
  match t.vault with
  | some (id, off, len) => BitVec.ofNat 64 (len * 2 ^ 32 + id * 2 ^ 24 + off)
  | none => 0

/-- A register as a warp reads it. -/
def State.sysRead (s : State) (t : Task) (w : Warp) (number index : Nat) : W64 :=
  match number with
  | 0x02 => (w.flags &&& 0x7F).setWidth 64
  | 0x20 => w.sump.status
  | 0x21 => w.sump.masks
  | 0x22 => t.tvault
  | _ => s.sysValue t.ctx number index

/-! ## Writes -/

/-- The bits of an address register: 55:6. -/
def lineMask : W64 := 0x00FFFFFFFFFFFFC0

/-- GPBASE and DFQCFG take a write only while the engine is Idle and its queue is empty (R256). -/
def Context.graceIdle (c : Context) : Bool := !c.req && !c.run && c.dfqCount == 0

/-- FRING written: its descriptor is examined again (R356, R358). -/
def State.writeFring (s : State) (ctx : Nat) (v : W64) : State :=
  s.modCtx ctx fun c => { c with fring := v &&& (lineMask ||| 1), fringTold := false }

/-- SHCFG written, only while the context holds no task (R341). -/
def State.writeShcfg (s : State) (ctx : Nat) (v : W64) : State :=
  if s.tasks.any fun t => t.ctx == ctx then s else s.modCtx ctx fun c => { c with shadow := v.getLsbD 0 }

/-- A write of a register that no warp owns, field by field (R6); of QCTL with its command (R141). -/
def State.sysStore (s : State) (ctx number index : Nat) (v : W64) : State :=
  match number with
  | 0x03 => s.modCtx ctx fun c => { c with fpte := v.setWidth 32 &&& 0x7F }
  | 0x04 => s.modCtx ctx fun c => { c with ptroot0 := v &&& 0x000FFFFFFFFF0000 }
  | 0x05 => s.modCtx ctx fun c => { c with ptroot1 := v &&& 0x000FFFFFFFFF0000 }
  | 0x07 => { s with tlbBad := s.tlbBad &&& ~~~(v.extractLsb' 8 8) }
  | 0x10 => s.modQueue index fun q => { q with qring := v }
  | 0x11 => s.writeQctl index v.toNat
  | 0x18 => s.modCtx ctx fun c => if c.graceIdle then { c with gpbase := v &&& lineMask } else c
  | 0x19 => s.modCtx ctx fun c => if c.graceIdle then { c with dfqcfg := v &&& (lineMask ||| 0x1F) } else c
  | 0x28 => s.engineCommand index false (v.extractLsb' 26 2).toNat
  | 0x29 => s.engineCommand index true (v.extractLsb' 26 2).toNat
  | 0x30 => s.writeFring ctx v
  | 0x31 => s.modCtx ctx fun c =>
    if c.st = 1 ∨ c.st = 2 then { c with cqcfg := v &&& (lineMask ||| 0x1F) } else c
  | 0x32 => s.writeShcfg ctx v
  | 0x40 => s.writeDbgctl v
  | _ => s

/-! ## Which accesses are admitted (R341) -/

/-- Registers marked priv. -/
def sysPriv (number : Nat) : Bool := [0x04, 0x05, 0x06, 0x07, 0x34, 0x35, 0x40].contains number

/-- Registers that only the management interface writes. -/
def sysManaged (number : Nat) : Bool := number == 0x34 || number == 0x35

/-- The index is in its range, and a core belongs to the context's partitions. -/
def State.sysIndexOk (s : State) (ctx number index : Nat) : Bool :=
  match number with
  | 0x10 | 0x11 | 0x12 | 0x34 | 0x35 => decide (index < 64)
  | 0x28 | 0x29 => decide (index < 192) && (s.ctx ctx).hasCluster (clusterOf index)
  | _ => index == 0

/-- A queue register that an unprivileged warp may not read (R136). -/
def State.sysHidden (s : State) (ctx number index : Nat) : Bool :=
  number == 0x10 || ((number == 0x11 || number == 0x12) && (s.queue index).ctx != ctx)

/-- The fault of an SRRD, in the order of R341. -/
def State.srrdFault (s : State) (c : Ctx) (number index sub : Nat) : Option Cause :=
  if sysPriv number && !c.priv then some .privileged
  else if !s.sysIndexOk c.ctx number index || (sub == 1 && number != 0x02) then some .reservedField
  else if !c.priv && s.sysHidden c.ctx number index then some .privileged
  else none

/-- The fault of an SRWR, in the order of R341. -/
def State.srwrFault (s : State) (c : Ctx) (number index : Nat) : Option Cause :=
  if number == 0x40 && s.debugSlot != some c.ctx then some .privileged
  else if !s.sysIndexOk c.ctx number index || sysManaged number then some .reservedField
  else none

/-- The number of the register that a word names. -/
def sysNumber (k : EWord) : Nat := (k.imm.extractLsb' 0 16).toNat

/-- The index of the register that a unit names (R347). -/
def sysIndex (c : Ctx) (w : Warp) (k : EWord) (t : Tid) : Nat :=
  if k.h.b = 0xC8 then (k.imm.extractLsb' 16 8).toNat else (read32 c w t k.h.b).toNat % 256

/-- FRING_WRITE (R358). -/
def execFringWrite (ctx : Nat) (v : W64) (s : State) : Out :=
  s.keeping <| .next (if s.mgmt.boot = 3 then s.writeFring ctx v else s)

end Sys2Proof.Machine
end

