-- ==== Sys2Proof/Machine/SaveImage.lean ====
section
/-!
DEFINITION. The save image (R345): a context written as bytes, and read from bytes within the limits of its fields. The places of
the fields in the header, the register section, the directory entry and the kernel section are the model's choice (logs 30, 31).
-/

namespace Sys2Proof.Machine

open Sys2Proof

/-! ## Reading bytes -/

/-- A reader of bytes: a value and the bytes that are left, or none where they run out or break a limit. -/
abbrev Rd (α : Type) := StateT (List Byte) Option α

/-- The next `n` bytes. -/
def Rd.bytes (n : Nat) : Rd (List Byte) := fun bs =>
  let x := bs.take n
  if x.length = n then some (x, bs.drop n) else none

/-- The next number of `n` bytes. -/
def Rd.num (n : Nat) : Rd Nat := do return ofBytes (← Rd.bytes n)

/-- The next 64-bit word. -/
def Rd.w64 : Rd W64 := do return BitVec.ofNat 64 (← Rd.num 8)

/-- The next 32-bit word. -/
def Rd.w32 : Rd W32 := do return BitVec.ofNat 32 (← Rd.num 4)

/-- The next byte as a flag: 0 or 1. -/
def Rd.flag : Rd Bool := do
  let v ← Rd.num 1
  if v ≤ 1 then return v == 1 else failure

/-- A number that is at most `hi`. -/
def Rd.upTo (n hi : Nat) : Rd Nat := do
  let v ← Rd.num n
  if v ≤ hi then return v else failure

/-- A value that may be absent. -/
def Rd.opt {α : Type} (f : Rd α) : Rd (Option α) := do
  let b ← Rd.flag
  if b then return some (← f) else return none

/-- `n` values. -/
def Rd.times {α : Type} (f : Rd α) : Nat → Rd (List α)
  | 0 => pure []
  | n + 1 => do
    let x ← f
    let xs ← Rd.times f n
    return x :: xs

/-- A list with its length before it. -/
def Rd.many {α : Type} (f : Rd α) : Rd (List α) := do Rd.times f (← Rd.num 4)

/-- A list written with its length before it. -/
def putMany {α : Type} (xs : List α) (f : α → List Byte) : List Byte := toBytes 4 xs.length ++ xs.flatMap f

/-- A value that may be absent, written. -/
def putOpt {α : Type} (x : Option α) (f : α → List Byte) : List Byte := match x with
  | none => [0]
  | some y => 1 :: f y

/-- A flag written. -/
def putFlag (b : Bool) : List Byte := [if b then 1 else 0]

/-! ## Kernels (R144, R147) -/

/-- A launch record written. -/
def LaunchRec.image (r : LaunchRec) : List Byte :=
  putNums [(8, r.entry.toNat), (8, r.rtab.toNat), (8, r.macros.toNat), (8, r.macmask.toNat), (8, r.tdtab.toNat),
    (2, r.tdmask.toNat), (2, r.ctmask.toNat), (1, r.prof), (1, r.warps), (1, r.regs), (1, r.spad), (8, r.cttab.toNat),
    (1, r.tiles), (1, r.planes), (1, r.place), (1, r.order), (1, r.prio), (4, r.cscnt), (2, r.vault), (8, r.gtab.toNat),
    (4, r.gcnt), (1, r.ctn), (8, r.tlimit), (8, r.csched.toNat), (8, r.gx), (8, r.gy), (8, r.gz), (8, r.cblk),
    (8, r.affbase.toNat), (8, r.cond.toNat), (8, r.trigsg.toNat), (8, r.donesg.toNat), (8, r.trigamt), (8, r.doneamt),
    (8, r.status.toNat)]
  ++ putMany r.deps fun d => toBytes 8 d.1.toNat ++ toBytes 8 d.2

/-- A launch record read. -/
def Rd.launch : Rd LaunchRec := do
  let entry ← Rd.w64
  let rtab ← Rd.w64
  let macros ← Rd.w64
  let macmask ← Rd.w64
  let tdtab ← Rd.w64
  let tdmask ← Rd.num 2
  let ctmask ← Rd.num 2
  let prof ← Rd.num 1
  let warps ← Rd.num 1
  let regs ← Rd.num 1
  let spad ← Rd.num 1
  let cttab ← Rd.w64
  let tiles ← Rd.num 1
  let planes ← Rd.num 1
  let place ← Rd.num 1
  let order ← Rd.num 1
  let prio ← Rd.num 1
  let cscnt ← Rd.num 4
  let vault ← Rd.num 2
  let gtab ← Rd.w64
  let gcnt ← Rd.num 4
  let ctn ← Rd.num 1
  let tlimit ← Rd.num 8
  let csched ← Rd.w64
  let gx ← Rd.num 8
  let gy ← Rd.num 8
  let gz ← Rd.num 8
  let cblk ← Rd.num 8
  let affbase ← Rd.w64
  let cond ← Rd.w64
  let trigsg ← Rd.w64
  let donesg ← Rd.w64
  let trigamt ← Rd.num 8
  let doneamt ← Rd.num 8
  let status ← Rd.w64
  let deps ← Rd.many (do
    let a ← Rd.w64
    let n ← Rd.num 8
    return (a, n))
  return {
    entry := entry, rtab := rtab, macros := macros, macmask := macmask, tdtab := tdtab,
    tdmask := BitVec.ofNat 16 tdmask, ctmask := BitVec.ofNat 16 ctmask, prof := prof, warps := warps, regs := regs,
    spad := spad, cttab := cttab, tiles := tiles, planes := planes, place := place, order := order, prio := prio,
    cscnt := cscnt, vault := vault, gtab := gtab, gcnt := gcnt, ctn := ctn, tlimit := tlimit, csched := csched, gx := gx,
    gy := gy, gz := gz, cblk := cblk, affbase := affbase, deps := deps, cond := cond, trigsg := trigsg, donesg := donesg,
    trigamt := trigamt, doneamt := doneamt, status := status }

/-- A kernel written. -/
def Kernel.image (k : Kernel) : List Byte :=
  putNums [(8, k.id), (1, k.queue), (8, k.lrec.toNat), (8, k.args.toNat), (4, k.tag.toNat), (1, k.st)]
  ++ putOpt k.handle (toBytes 4) ++ putNums [(8, k.pushed), (8, k.curve), (8, k.spawns), (8, k.live), (8, k.counted)]
  ++ putFlag k.trigDone ++ putFlag k.statusDone ++ putFlag k.placed ++ putMany k.joins (fun j => toBytes 8 j.toNat) ++ k.lr.image

/-- A kernel read, for a context. -/
def Rd.kernel (ctx : Nat) : Rd Kernel := do
  let id ← Rd.num 8
  let queue ← Rd.upTo 1 63
  let lrec ← Rd.w64
  let args ← Rd.w64
  let tag ← Rd.w32
  let st ← Rd.upTo 1 9
  let handle ← Rd.opt (Rd.num 4)
  let pushed ← Rd.num 8
  let curve ← Rd.num 8
  let spawns ← Rd.num 8
  let live ← Rd.num 8
  let counted ← Rd.num 8
  let trigDone ← Rd.flag
  let statusDone ← Rd.flag
  let placed ← Rd.flag
  let joins ← Rd.many Rd.w64
  let lr ← Rd.launch
  return {
    id := id, ctx := ctx, queue := queue, lrec := lrec, args := args, tag := tag, lr := lr, st := st, handle := handle,
    pushed := pushed, curve := curve, spawns := spawns, live := live, counted := counted, trigDone := trigDone, statusDone := statusDone, line := [],
    placed := placed, joins := joins }

/-! ## Continuation records and fault records (R152, R352) -/

/-- A continuation record written, with what the distributor keeps of it. -/
def Cont.image (r : Cont) : List Byte :=
  putNums [(8, r.w0.toNat), (8, r.w1.toNat), (8, r.w2.toNat), (8, r.w3.toNat), (8, r.kid), (4, r.index)]
  ++ putOpt r.coord (fun c => toBytes 8 c.1 ++ toBytes 8 c.2.1 ++ toBytes 8 c.2.2) ++ putFlag r.counted
  ++ putMany r.told (toBytes 1) ++ putMany r.met (toBytes 1) ++ toBytes 4 r.slot

/-- A continuation record read; it gets its name as the image is taken, and its conditions that are not met are judged again (R153). -/
def Rd.cont : Rd Cont := do
  let w0 ← Rd.w64
  let w1 ← Rd.w64
  let w2 ← Rd.w64
  let w3 ← Rd.w64
  let kid ← Rd.num 8
  let index ← Rd.num 4
  let coord ← Rd.opt (do
    let x ← Rd.num 8
    let y ← Rd.num 8
    let z ← Rd.num 8
    return (x, y, z))
  let counted ← Rd.flag
  let told ← Rd.many (Rd.num 1)
  let met ← Rd.many (Rd.num 1)
  let slot ← Rd.num 4
  return {
    id := 0, w0 := w0, w1 := w1, w2 := w2, w3 := w3, kid := kid, index := index, coord := coord, counted := counted, told := told,
    met := met, slot := slot }

/-- A fault record read from the 64 bytes of R352; a cause that does not exist breaks its limits. -/
def Rd.fault : Rd FaultRec := do
  let cause ← Rd.num 1
  let cls ← Rd.upTo 1 63
  let mslot ← Rd.num 1
  let unit ← Rd.num 1
  let handle ← Rd.num 4
  let tmask ← Rd.num 2
  let done ← Rd.num 2
  let seq ← Rd.num 4
  let pc ← Rd.num 8
  let addr ← Rd.num 8
  let bitoff ← Rd.num 4
  let tag ← Rd.num 4
  let extra ← Rd.num 8
  let aux ← Rd.num 8
  let time ← Rd.num 8
  match Cause.ofCode cause with
  | none => failure
  | some c => return {
      cause := c, source := cls % 8, seqv := cls.testBit 3, macv := cls.testBit 4, coord := cls.testBit 5, mslot := mslot,
      unit := unit, handle := handle, tmask := BitVec.ofNat 16 tmask, done := BitVec.ofNat 16 done, seq := seq, pc := pc,
      addr := addr, bitoff := bitoff, tag := tag, extra := extra, aux := aux, time := time, src := (192, 0) }

/-! ## Tasks -/

/-- The code of a step of placement. -/
def PlaceStep.code : PlaceStep → Nat
  | .macros => 0
  | .tdescs => 1
  | .ctables => 2
  | .schedule => 3
  | .groups => 4
  | .frame => 5
  | .entry => 6

/-- The step of a code. -/
def PlaceStep.ofCode (n : Nat) : Option PlaceStep :=
  [PlaceStep.macros, .tdescs, .ctables, .schedule, .groups, .frame, .entry][n]?

/-- The code of a guard. -/
def Guard.code : Guard → Nat
  | .unresolved => 0
  | .isTrue => 1
  | .isFalse => 2

/-- The guard of a code. -/
def Guard.ofCode (n : Nat) : Guard := if n = 1 then .isTrue else if n = 2 then .isFalse else .unresolved

/-- An entry of the copy schedule written. -/
def SchedEntry.image (e : SchedEntry) : List Byte :=
  putNums [(8, e.src.toNat), (8, e.dst.toNat), (4, e.sstr.toNat), (4, e.dstr.toNat), (4, e.rows), (4, e.len), (8, e.csg.toNat),
    (4, e.amt), (4, e.stage), (1, e.sspace), (1, e.dspace)] ++ putOpt e.guarded (toBytes 1)

/-- An entry of the copy schedule read. -/
def Rd.sched : Rd SchedEntry := do
  let src ← Rd.w64
  let dst ← Rd.w64
  let sstr ← Rd.w32
  let dstr ← Rd.w32
  let rows ← Rd.num 4
  let len ← Rd.num 4
  let csg ← Rd.w64
  let amt ← Rd.num 4
  let stage ← Rd.num 4
  let sspace ← Rd.upTo 1 2
  let dspace ← Rd.upTo 1 2
  let guarded ← Rd.opt (Rd.upTo 1 31)
  return {
    src := src, dst := dst, sstr := sstr, dstr := dstr, rows := rows, len := len, csg := csg, amt := amt, stage := stage,
    sspace := sspace, dspace := dspace, guarded := guarded }

/-- The directory entry of a task, 64 bytes: launch handle, task index, kernel state, JOIN, stage counter, time left, and the offset
of its record; then its slot in the directory, its counts and its last core (R345). -/
def Task.dirEntry (s : State) (t : Task) (off : Nat) : List Byte :=
  let k := s.kernel? t.kid
  let h := match k.bind fun (k : Kernel) => k.handle with
    | some h => h + 1
    | none => 0
  fitBytes 64 (putNums
    [(4, h), (4, t.index), (1, match k with
        | some k => k.st
        | none => 0), (8, t.join.toNat), (4, t.stage), (8, match t.timer with
        | some n => n + 1
        | none => 0), (8, off), (2, t.dir), (8, t.kid), (4, t.regs), (1, t.warps.length), (1, t.spad), (1, t.tiles.length),
        (1, t.planes.length), (1, t.ctn), (1, t.last)])

/-- What a task record holds beside what R345 lists (log 31): where the task stands in its grid and its placement, its schedule and
macros, what it has left on its last core, and what the records of its planes, its warps' regions and sump loops have no room for. -/
def Task.more (t : Task) : List Byte :=
  putNums [(4, t.x.toNat), (4, t.y.toNat), (4, t.z.toNat), (8, t.frame.toNat), (8, t.entry.toNat)]
  ++ putFlag t.spawned ++ putFlag t.counted ++ putFlag t.ended ++ putFlag t.owes
  ++ putOpt t.pendingStep (fun p => toBytes 1 p.code)
  ++ putOpt t.vault (fun v => toBytes 1 v.1 ++ toBytes 4 v.2.1 ++ toBytes 2 v.2.2)
  ++ toBytes 2 t.released
  ++ putMany t.sched SchedEntry.image
  ++ putMany t.macros (fun m => toBytes 1 m.1 ++ putMany m.2 fun w => toBytes 12 w.toNat)
  ++ (t.warps.flatMap fun w => toBytes 1 (w.lane % 32 * 4 + w.slot % 4))
  ++ putMany t.units (toBytes 1) ++ putMany t.tiles (toBytes 1) ++ putMany t.planeIds (toBytes 1) ++ putMany t.ctIds (toBytes 1)
  ++ t.planes.flatMap Plane.rest
  ++ t.warps.flatMap (imageOf warpRest)
  ++ (t.warps.filter Warp.looping).flatMap (imageOf loopRest)

/-- Bytes filled with zeros to a multiple of 64. -/
def pad64 (bs : List Byte) : List Byte := bs ++ List.replicate ((64 - bs.length % 64) % 64) 0

/-- A task record (R345): scratchpad, tiles, planes, code-table slots, descriptors, guards and engine commands; then the records of
its warps, each aligned to 64 bytes, and what the model adds. -/
def Task.image (t : Task) : List Byte :=
  pad64 (
    Memory.bytes t.scratch 0 (t.spad * 8192) ++ Memory.bytes t.tileMem 0 (t.tiles.length * 8192)
    ++ t.planes.flatMap Plane.record
    ++ t.ctSlots.flatMap slotRecord
    ++ (vlist t.td).flatMap (fun d => toBytes 64 d.toNat)
    ++ (vlist t.gd).map (fun g => BitVec.ofNat 8 g.code)
    ++ putMany t.cmds (fun c => cmdRecord c.1 c.2))
  ++ (t.warps.flatMap fun w => w.record t.regs) ++ pad64 t.more

/-- The planes of their records and the rests; a shape outside its limits breaks them. -/
def planesOf (main rest : List (List Byte)) : Option (List Plane) :=
  if main.all (planeOk false) then some ((main.zip rest).map fun p => Plane.ofBytes (p.1 ++ p.2)) else none

/-- A code-table slot read. -/
def Rd.slot : Rd (Option CodeTable) := do
  let bs ← Rd.bytes 320
  if slotOk bs then return slotOfRecord bs else failure

/-- A tensor descriptor read: none loaded, or a valid one (R316, R328). -/
def Rd.tdesc : Rd Nat := do
  let v ← Rd.num 64
  if v = 0 ∨ tdescOk v = true then return v else failure

/-- A warp read, before the macros are known; a field outside its limits breaks them. The record tells by its sump mode whether a loop's
part follows. -/
def Rd.warp (regs : Nat) : Rd (List Byte × Bool) := do
  let first ← Rd.bytes (2048 + 64 * regs)
  let w := (Warp.fresh 0 0 0 (vfill 64 0) 0).load regs [] (first ++ List.replicate 2048 0)
  let more ← if w.looping then Rd.bytes 2048 else pure []
  return (first ++ more, w.looping)

/-- A warp of its record, what the model adds to that, and its macros; a field outside its limits breaks them. -/
def warpOf (regs : Nat) (macros : List (Nat × List InstrWord)) (place : Nat) (rest loop bs : List Byte) : Option Warp :=
  let w := (Warp.fresh 0 (place / 4) (place % 4) (vfill 64 0) 0).load regs macros bs
  let y := loadOf warpRest rest w
  let x := if w.looping then loadOf loopRest loop y.2 else (true, y.2)
  if w.bad || !y.1 || !x.1 || w.st == .running || w.st == .blocked then none else some x.2

/-- The fields of a directory entry. -/
structure DirEntry where
  index : Nat
  join : W64
  stage : Nat
  timer : Nat
  off : Nat
  dir : Nat
  kid : Nat
  regs : Nat
  warps : Nat
  spad : Nat
  tiles : Nat
  planes : Nat
  ctn : Nat
  last : Nat
  deriving DecidableEq, Repr

/-- A directory entry read. -/
def Rd.dirEntry : Rd DirEntry := do
  let bs ← Rd.bytes 64
  match readNums [4, 4, 1, 8, 4, 8, 8, 2, 8, 4, 1, 1, 1, 1, 1, 1] bs with
  | [_, index, _, join, stage, timer, off, dir, kid, regs, warps, spad, tiles, planes, ctn, last] =>
    if regs ≤ 128 ∧ 1 ≤ warps ∧ warps ≤ 32 ∧ spad ≤ 32 ∧ tiles ≤ 64 ∧ planes ≤ 4 ∧ ctn ≤ 16 ∧ last ≤ 192 then
      return { index := index, join := BitVec.ofNat 64 join, stage := stage, timer := timer, off := off, dir := dir, kid := kid,
               regs := regs, warps := warps, spad := spad, tiles := tiles, planes := planes, ctn := ctn, last := last }
    else failure
  | _ => failure

/-- The bytes up to the next multiple of 64 are left out; `start`: how many there were at the record's beginning. -/
def Rd.align (start : Nat) : Rd Unit := fun bs => some ((), bs.drop ((64 - (start - bs.length) % 64) % 64))

/-- A task record read for a directory entry. -/
def Rd.task (ctx id : Nat) (d : DirEntry) : Rd Task := do
  let start := (← get).length
  let scratch ← Rd.bytes (d.spad * 8192)
  let tileMem ← Rd.bytes (d.tiles * 8192)
  let main ← Rd.times (Rd.bytes planeBytes) d.planes
  let slots ← Rd.times Rd.slot d.ctn
  let td ← Rd.times Rd.tdesc 16
  let gd ← Rd.times (Rd.upTo 1 2) 32
  let cmds ← Rd.many (do
    match cmdOfRecord id ctx d.kid (← Rd.bytes 576) with
    | some c => return c
    | none => failure)
  Rd.align start
  let records ← Rd.times (Rd.warp d.regs) d.warps
  let x ← Rd.w32
  let y ← Rd.w32
  let z ← Rd.w32
  let frame ← Rd.w64
  let entry ← Rd.w64
  let spawned ← Rd.flag
  let counted ← Rd.flag
  let ended ← Rd.flag
  let owes ← Rd.flag
  let step ← Rd.opt (Rd.num 1)
  let vault ← Rd.opt (do
    let v ← Rd.upTo 1 47
    let o ← Rd.num 4
    let n ← Rd.num 2
    return (v, o, n))
  let released ← Rd.num 2
  let sched ← Rd.many Rd.sched
  let macros ← Rd.many (do
    let n ← Rd.upTo 1 63
    let body ← Rd.many (do return BitVec.ofNat 96 (← Rd.num 12))
    return (n, body))
  let places ← Rd.times (Rd.upTo 1 127) d.warps
  let units ← Rd.many (Rd.upTo 1 31)
  let tiles ← Rd.many (Rd.upTo 1 63)
  let planeIds ← Rd.many (Rd.upTo 1 3)
  let ctIds ← Rd.many (Rd.upTo 1 63)
  let rest ← Rd.times (Rd.bytes planeRestBytes) d.planes
  let regions ← Rd.times (Rd.bytes 3072) d.warps
  let loops ← Rd.times (Rd.bytes 4096) (records.filter fun r => r.2).length
  if units.length ≠ d.spad ∨ tiles.length ≠ d.tiles ∨ (ended = false ∧ (planeIds.length ≠ d.planes ∨ ctIds.length ≠ d.ctn)) then failure
  let nth (i : Nat) : List Byte := loops.getD ((records.take i).filter fun r => r.2).length []
  match planesOf main rest, (records.zip places).zipIdx.mapM fun p => warpOf d.regs macros p.1.2 (regions.getD p.2 []) (nth p.2) p.1.1.1 with
  | some planes, some warps =>
    let t := Task.fresh id ctx d.dir d.kid entry
    return { t with
      index := d.index, x := x, y := y, z := z, frame := frame, join := d.join, entryLine := [], spawned := spawned,
      counted := counted, regs := d.regs, warps := warps, spad := d.spad, scratch := Memory.setBytes [] 0 scratch, units := units,
      vault := vault, tileMem := Memory.setBytes [] 0 tileMem, tiles := tiles,
      planes := planes, planeIds := planeIds, ctn := d.ctn, ctSlots := slots, ctIds := ctIds,
      td := td.zipIdx.foldl (fun (v : Vector (BitVec 512) 16) (p : Nat × Nat) => vset v p.2 (BitVec.ofNat 512 p.1)) t.td,
      gd := gd.zipIdx.foldl (fun (v : Vector Guard 32) (p : Nat × Nat) => vset v p.2 (Guard.ofCode p.1)) t.gd,
      stage := d.stage, sched := sched, released := released, macros := macros,
      timer := if d.timer = 0 then none else some (d.timer - 1), pendingStep := step.bind PlaceStep.ofCode, ended := ended,
      owes := owes, cmds := cmds, last := d.last }
  | _, _ => failure

/-! ## The registers of a context (R341, R345) -/

/-- The registers of the section that have one place, in their order. -/
def savedRegs : List Nat := [0x01, 0x03, 0x04, 0x05, 0x07, 0x18, 0x19, 0x1A, 0x30, 0x31, 0x32, 0x33, 0x40]

/-- A context with the registers of a section that it holds, and whether each is within its limits: DFQN, REQ and RUN stand in GPSTAT
(R256). The registers of the device, and those that the host gives a context otherwise, are not taken from an image. -/
def Context.loadRegs (c : Context) (regs : List Byte) : Bool × Context :=
  let v (i : Nat) : W64 := BitVec.ofNat 64 (ofBytes ((regs.drop (8 * i)).take 8))
  let freed := (v 15).toNat
  let logcap := bitsOf (v 9).toNat 4 0
  let within (i : Nat) (mask : W64) : Bool := v i &&& ~~~mask == 0
  (within 1 0x7F && within 2 0x000FFFFFFFFF0000 && within 3 0x000FFFFFFFFF0000 && within 5 0x00FFFFFFFFFFFFC0
      && within 6 0x00FFFFFFFFFFFFDF && within 8 0x00FFFFFFFFFFFFC1 && within 9 0x00FFFFFFFFFFFFDF && within 10 1
      && decide (8 ≤ logcap) && decide (logcap ≤ 20),
    { c with
      fpte := (v 1).setWidth 32, ptroot0 := v 2, ptroot1 := v 3, gpbase := v 5, dfqcfg := v 6, fring := v 8, cqcfg := v 9,
      shadow := v 10 == 1, gpreq := v 13, gpdone := v 14, dfqFreed := freed, dfqPushed := freed + (v 7).toNat / 2 ^ 33,
      req := (v 7).getLsbD 1, run := (v 7).getLsbD 0 })

/-- A number of a queue relative to its read position, in 17 bits. -/
def Queue.ahead (q : Queue) (n : Nat) : Nat := (n + (2 ^ 17 - q.rdpos.toNat % 2 ^ 17)) % 2 ^ 17

/-- What the bits that QCTL reserves hold of a queue in an image: whether DRAIN has left a note and the note, whether the record of an
Errored head has been taken and the command that waits for that, and the append count (R140, R141, R358). -/
def Queue.notes (q : Queue) : Nat :=
  q.drain.isSome.toNat + 2 * q.told.toNat + 4 * (q.todo % 4) + 16 * q.ahead (q.drain.getD q.rdpos.toNat) + 2 ^ 21 * q.ahead q.appends

/-- The registers of a queue of a context, 24 bytes: QRING, QCTL, QRDPOS. -/
def Queue.image (q : Queue) : List Byte :=
  putNums [(8, q.qring.toNat), (8, q.ctl + q.notes % 2 ^ 11 + q.notes / 2 ^ 11 * 2 ^ 32), (8, q.rdpos.toNat)]

/-- The state of a queue of a code (R136). -/
def QueueState.ofCode (n : Nat) : Option QueueState :=
  [QueueState.disabled, .enabled, .running, .blocked, .errored, .suspended, .drained][n]?

/-- The registers of a queue read over one: its configuration, state, read position and notes. -/
def Queue.load (q : Queue) (ctx : Nat) (bs : List Byte) : Option Queue :=
  match readNums [8, 8, 8] bs with
  | [ring, ctl, pos] =>
    let notes := ctl % 2 ^ 11 + ctl / 2 ^ 32 * 2 ^ 11
    (QueueState.ofCode (bitsOf ctl 31 29)).map fun st =>
      { q with
        qring := BitVec.ofNat 64 ring, st := st, dev := ctl.testBit 25, aff := ctl.testBit 24, ctx := ctx,
        wgt := bitsOf ctl 17 14, pri := bitsOf ctl 13 11, rdpos := BitVec.ofNat 64 pos,
        drain := if notes.testBit 0 then some (pos + bitsOf notes 20 4) else none, told := notes.testBit 1,
        todo := bitsOf notes 3 2 % 3, appends := pos + bitsOf notes 37 21 }
  | _ => none

/-- The register section, 4 KiB, which the 8-byte forms of all its registers would overrun (logs 30, 31): the registers of one place, the
engine's copies of GPREQ and GPDONE and its count of freed entries; the window slots, RWRNG by its upper 48 bits; CECTL and XECTL of each
core by SEQ, since its engines are idle; and the 64 queues, those of another context left zero. -/
def State.registerSection (s : State) (ctx : Nat) : List Byte :=
  let c := s.ctx ctx
  (savedRegs.flatMap fun n => toBytes 8 (s.sysValue ctx n 0).toNat) ++ putNums [(8, c.gpreq.toNat), (8, c.gpdone.toNat), (8, c.dfqFreed)]
  ++ ((List.range 64).flatMap fun i => toBytes 8 (s.sysValue ctx 0x34 i).toNat ++ toBytes 6 ((s.sysValue ctx 0x35 i).toNat / 2 ^ 16))
  ++ ((List.range 192).flatMap fun core =>
    let seq (n : Nat) : List Byte := toBytes 4 ((s.sysValue ctx n core).toNat / 2 ^ 32)
    if c.hasCluster (clusterOf core) then seq 0x28 ++ seq 0x29 else List.replicate 8 0)
  ++ (List.range 64).flatMap fun i =>
    let q := s.queue i
    if q.ctx = ctx then q.image else List.replicate 24 0

/-! ## The image (R345) -/

/-- MAGIC of the header. -/
def imageMagic : Nat := 0x4B584349

/-- Records waiting for the ring, and continuation records (R152, R358). -/
def Context.tail (c : Context) : List Byte :=
  putMany c.pend FaultRec.bytes ++ putMany c.rbuf FaultRec.bytes ++ putMany c.cq Cont.image

/-- The save image of a context: header, registers, directory, kernels, records, and the tasks. -/
def State.saveImage (s : State) (ctx : Nat) : List Byte :=
  let c := s.ctx ctx
  let ts := s.tasks.filter fun t => t.ctx == ctx
  let regs := s.registerSection ctx
  let kernels := pad64 (putMany (s.kernels.filter fun (k : Kernel) => k.ctx == ctx) Kernel.image)
  let tail := pad64 c.tail
  let bodies := ts.map Task.image
  let dirAt := 256 + regs.length
  let kernelsAt := dirAt + 64 * ts.length
  let tailAt := kernelsAt + kernels.length
  let bodyAt := tailAt + tail.length
  let offs := (List.range ts.length).map fun i => bodyAt + ((bodies.take i).map List.length).sum
  let dir := (ts.zip offs).flatMap fun p => p.1.dirEntry s p.2
  let total := bodyAt + (bodies.map List.length).sum
  let head := fitBytes 256 (putNums [(4, imageMagic), (4, 1), (1, ctx), (1, c.prof), (1, 3), (1, c.priv.toNat), (4, ts.length),
    (8, 256), (8, dirAt), (8, kernelsAt), (8, tailAt), (8, bodyAt), (8, total), (8, s.timeNs)])
  head ++ regs ++ dir ++ kernels ++ tail ++ bodies.flatten

/-- What an image holds. -/
structure Image where
  prof : Nat
  priv : Bool
  /-- the context's time when it was saved (R350) -/
  time : Nat
  regs : List Byte
  kernels : List Kernel
  tasks : List Task
  pend : List FaultRec
  rbuf : List FaultRec
  cq : List Cont
  deriving DecidableEq, Repr

/-- The header of an image: CTXPROF, PRIV, task count, the offsets and the length. -/
def imageHead (bs : List Byte) : Option (Nat × Nat × List Nat) :=
  match readNums [4, 4, 1, 1, 1, 1, 4, 8, 8, 8, 8, 8, 8, 8] bs with
  | [magic, version, _, prof, _, priv, n, regs, dir, kernels, tail, body, total, time] =>
    if magic = imageMagic ∧ version = 1 ∧ priv ≤ 1 then some (prof, priv, [n, regs, dir, kernels, tail, body, total, time])
    else none
  | _ => none

/-- The length of an image by its header. -/
def imageLength (bs : List Byte) : Option Nat := (imageHead bs).bind fun h => h.2.2[6]?

/-- The tasks of a directory. -/
def readTasks (ctx id : Nat) (bs : List Byte) : List DirEntry → Option (List Task)
  | [] => some []
  | d :: ds => do
    let t ← Rd.task ctx id d (bs.drop d.off)
    let ts ← readTasks ctx (id + 1) bs ds
    return t.1 :: ts

/-- An image read for a context slot, its tasks named from `id` up; none when a field lies outside its limits. -/
def readImage (ctx id : Nat) (bs : List Byte) : Option Image := do
  let h ← imageHead bs
  match h.2.2 with
  | [n, regs, dir, kernels, tail, _, total, time] => do
    if bs.length < total ∨ total / 64 < n ∨ h.1 = 0 ∨ 3 < h.1 then failure
    let rs := (bs.drop regs).take 4096
    if rs.length ≠ 4096 ∨ (Context.reset.loadRegs rs).1 = false then failure
    let ds ← Rd.times Rd.dirEntry n (bs.drop dir)
    let ks ← Rd.many (Rd.kernel ctx) (bs.drop kernels)
    let ts ← readTasks ctx id bs ds.1
    let pend ← Rd.many Rd.fault (bs.drop tail)
    let rbuf ← Rd.many Rd.fault pend.2
    let cq ← Rd.many Rd.cont rbuf.2
    return { prof := h.1, priv := h.2.1 == 1, time := time, regs := rs, kernels := ks.1, tasks := ts, pend := pend.1, rbuf := rbuf.1,
             cq := cq.1 }
  | _ => failure

/-! ## An image becomes a context -/

/-- A waiting record of a warp finds its warp again by its handle (R351). -/
def FaultRec.rebind (ts : List Task) (r : FaultRec) : FaultRec :=
  if r.source ≤ 1 then
    match ts.find? fun t => t.dir == r.handle % 2 ^ 16 with
    | some t => { r with src := (t.id, r.handle / 2 ^ 16) }
    | none => r
  else if r.source = 4 then { r with src := (r.unit, 0) }
  else r

/-- The place of a queue in the register section. -/
def queueBytes (regs : List Byte) (i : Nat) : List Byte := (regs.drop (2560 + 24 * i)).take 24

/-- An image gives a queue its registers: the context owns it, or no context uses it and the image has it in use. -/
def State.takesQueue (s : State) (ctx : Nat) (regs : List Byte) (i : Nat) : Bool :=
  let q := s.queue i
  let bs := queueBytes regs i
  !bs.all (· == 0) && (q.ctx == ctx || (q.st == .disabled && bitsOf (ofBytes (bs.drop 8)) 31 29 != 0))

/-- A queue with the registers that an image gives it; a ninth AFF stays 0 (R136). -/
def State.loadQueue (s : State) (ctx : Nat) (regs : List Byte) (i : Nat) : State :=
  match (s.queue i).load ctx (queueBytes regs i) with
  | some q => s.modQueue i fun _ => { q with aff := q.aff && decide (s.affCount < 8) }
  | none => s

/-- The queues with the registers that an image gives those of a context. -/
def State.loadQueues (s : State) (ctx : Nat) (regs : List Byte) : State :=
  let mine := (List.range 64).filter (s.takesQueue ctx regs)
  let s := mine.foldl (fun (s : State) (i : Nat) => s.modQueue i fun q => { q with aff := false }) s
  mine.foldl (fun (s : State) (i : Nat) => s.loadQueue ctx regs i) s

/-- The name of a kernel of an image on this device: a restored one keeps the name it has here, another gets one from a name up, in their
order. -/
def State.kernelName (s : State) (ctx : Nat) (ks : List Kernel) (base kid : Nat) (live : Bool) : Nat :=
  if live && s.kernels.any fun k => k.id == kid && k.ctx == ctx then kid
  else
    match ks.findIdx? fun k => k.id == kid with
    | some i => base + i
    | none => kid

/-- A task of an image as a task of this device: a restored one keeps its name and the marks that the grace engine has judged meanwhile
(R261, R339). -/
def Task.adopt (t : Task) (old : Option Task) (kid : Nat) : Task :=
  let id := match old with
    | some o => o.id
    | none => t.id
  let marked (w : Warp) (i : Nat) : Warp := match old.bind fun o => o.warps[i]? with
    | some o => { w with mark := o.mark && (w.depth != 0 || w.held != 0) }
    | none => w
  { t with
    id := id, kid := kid, cmds := t.cmds.map fun c => (c.1, { c.2 with kid := kid, task := id }),
    warps := t.warps.zipIdx.map fun p => marked p.1 p.2 }

/-- A context slot takes the tasks, kernels, queues and registers of an image. The tasks and kernels that it held are replaced; when
`live`, the grace engine's state and the records that wait for the ring are the device's own, since both work on while the context is
saved (R339, R358). -/
def State.takeImage (s : State) (ctx : Nat) (x : Image) (live : Bool) : State :=
  let base := s.nextId + x.tasks.length
  let name (k : Nat) : Nat := s.kernelName ctx x.kernels base k live
  let old (t : Task) : Option Task := if live then s.tasks.find? fun o => o.ctx == ctx && o.dir == t.dir else none
  let ts := x.tasks.map fun (t : Task) => t.adopt (old t) (name t.kid)
  let ks := x.kernels.map fun (k : Kernel) => { k with id := name k.id }
  let s := { s with
    tasks := (s.tasks.filter fun (t : Task) => t.ctx != ctx) ++ ts,
    kernels := (s.kernels.filter fun (k : Kernel) => k.ctx != ctx) ++ ks,
    nextId := base + x.kernels.length + x.cq.length }
  let s := s.loadQueues ctx x.regs
  s.modCtx ctx fun c =>
    let r := (c.loadRegs x.regs).2
    let r := if live then
        { r with gpreq := c.gpreq, gpdone := c.gpdone, dfqPushed := c.dfqPushed, dfqFreed := c.dfqFreed, req := c.req, run := c.run }
      else { r with pend := x.pend.map (FaultRec.rebind ts), rbuf := x.rbuf }
    { r with
      prof := x.prof,
      cq := x.cq.zipIdx.map fun (p : Cont × Nat) =>
        { p.1 with kid := name p.1.kid, id := base + x.kernels.length + p.2 } }

/-! ## Images in memory -/

/-- A range of local memory (R394). -/
def localRange (pa n : Nat) : Bool := decide (pa + n ≤ hbmEnd)

/-- The bytes of an image in memory, by the length that its header gives. -/
def State.imageAt (s : State) (pa area : Nat) : List Byte :=
  s.homeBytes pa (min area ((imageLength (s.homeBytes pa 256)).getD 256))

/-- The bytes of the image that a saved context has in memory (R345). -/
def State.imageBytes (s : State) (ctx : Nat) : List Byte :=
  match (s.ctx ctx).image with
  | some (pa, area) => s.imageAt pa area
  | none => s.saveImage ctx

/-- A command that acts on warps or tasks of a context acts on their saved state where the context is saved to memory: on the image,
which is read and written again (R351). -/
def State.onSaved {α : Type} (s : State) (ctx : Nat) (f : State → α × State) : α × State :=
  match (s.ctx ctx).st, (s.ctx ctx).image with
  | 5, some (pa, area) =>
    match readImage ctx s.nextId (s.imageAt pa area) with
    | none => f s
    | some x =>
      let r := f (s.takeImage ctx x true)
      (r.1, r.2.homeWrite pa ((r.2.saveImage ctx).take area))
  | _, _ => f s

/-! ## The swap without shadow storage (R343) -/

/-- Where PREEMPT writes an image of `n` bytes: storage that the host has assigned, at an address that no rule states. -/
def imagePlace (ctx n : Nat) : Nat := Config.imageArea ctx % ((hbmEnd - n) / 64 + 1) * 64

/-- The swap of a context whose tasks have all stopped: to shadow storage, or, without it, to memory directly (R343). -/
def State.swapOut (s : State) (ctx : Nat) : State :=
  let s := s.leaveCores ctx
  if (s.ctx ctx).shadow then s.modCtx ctx fun c => { c with st := 4, moving := false, image := none }
  else
    let s := s.modCtx ctx fun c => { c with st := 5, moving := false }
    let bs := s.saveImage ctx
    let pa := imagePlace ctx bs.length
    (s.homeWrite pa bs).modCtx ctx fun c => { c with image := some (pa, hbmEnd - pa) }

/-! ## The contents of vault extents (R202, R346) -/

/-- The extents of the tasks of a list, in their order: their vault addresses and lengths in bytes. -/
def extentsOf (ts : List Task) : List (Nat × Nat) :=
  ts.filterMap fun t => t.vault.map fun v => (v.1 * 2 ^ 24 + v.2.1, v.2.2 * 65536)

/-- What the vault extents of a context hold, which follows the image of a context that migrates (R346). DESIGN CHOICE (log 146). -/
def State.extentBytes (s : State) (ctx : Nat) : List Byte :=
  (extentsOf (s.tasks.filter fun t => t.ctx == ctx)).flatMap fun e => s.vault.bytes e.1 e.2

/-- The extents of a migrated context recreated with the contents that a memory address on holds (R202, R346). -/
def State.fillExtents (s : State) (pa : Nat) (ts : List Task) : State :=
  ((extentsOf ts).foldl (fun (a : Nat × State) (e : Nat × Nat) =>
    (a.1 + e.2, { a.2 with vault := a.2.vault.setBytes e.1 (a.2.homeBytes a.1 e.2) })) (pa, s)).2

end Sys2Proof.Machine
end

