-- ==== Sys2Proof/Machine/Command.lean ====
section
/-!
DEFINITION. What every command of the management ring shares (R389 to R391), and the registers of BAR 0 (R397).
-/

namespace Sys2Proof.Machine

open Sys2Proof

/-! ## Commands -/

/-- The field of `n` bytes at byte `o` of a command. -/
def field (c : Command) (o n : Nat) : Nat := bytesAt c.toNat o n

/-- Byte 8 of a command: the slot, peer or port that it names. -/
def namedSlot (c : Command) : Nat := field c 8 1

/-- The bytes that a command does not use are zero; `used`: first byte and length of its operands (R390). -/
def unusedZero (c : Command) (used : List (Nat × Nat)) : Bool :=
  (List.range 64).all fun i =>
    i == 0 || (decide (4 ≤ i) && decide (i < 8)) || (used.any fun u => decide (u.1 ≤ i) && decide (i < u.1 + u.2)) || field c i 1 == 0

/-- How the work of a command ends (R391): with a result; invalid, without effect; refused with a cause; an area too small; not yet, with
what completes it; or held, so that the command is taken again. -/
inductive Ended where
  | done (s : State) (result : Nat)
  | invalid
  | refused (c : Cause) (s : State)
  | small (needed : Nat)
  | begun (s : State) (b : Busy)
  | held (s : State)

/-- The end of a command: its status, or what it waits for. No work of a command changes the management registers but for these. -/
def Ended.out (s : State) (tag : W32) : Ended → Out
  | .done s' r => .next ({ s' with mgmt := s.mgmt }.finishCommand tag 0 0 r)
  | .invalid => .next (s.finishCommand tag 2 0 0)
  | .refused c s' => .next ({ s' with mgmt := s.mgmt }.finishCommand tag 3 c.code 0)
  | .small n => .next (s.finishCommand tag 4 0 n)
  | .begun s' b => .next { s' with mgmt :=
      { s.mgmt with busy := some (tag, b), busySlot := s.ringSlot s.mgmt.mcDone.toNat, busyCounts := true } }
  | .held s' => .next { s' with mgmt := s.mgmt }

/-- A COMMAND OF THE RING (R389, R391): the one whose turn it is. Before the device is Running it has no effect, and bytes that it
does not use must be zero. -/
def runCommand (used : List (Nat × Nat)) (f : State → Ended) (c : Command) (s : State) : Out :=
  if s.ringCommand ≠ some c then .next s
  else if s.mgmt.boot ≠ 3 then .next (s.finishCommand (commandTag c) 1 0 0)
  else if unusedZero c used = false then .next (s.finishCommand (commandTag c) 2 0 0)
  else (f s).out s (commandTag c)

/-- A freeze holds a command that is aimed at a frozen context (R381). -/
def State.freezeHolds (s : State) (ctx : Nat) : Bool := s.frozen && s.debugSlot != some ctx

/-! ## The registers of BAR 0 (R397) -/

/-- PWRCAP clamped. -/
def clampCap (n : Nat) : Nat := if n < 1000 then 1000 else if 3000 < n then 3000 else n

/-- MCCFG written (R389, R397): EN stays 0 with a LOGCAP outside 4 to 12; enabling sets MCFILL and MCDONE to 0. -/
def Mgmt.writeCfg (m : Mgmt) (v : W64) : Mgmt :=
  let log := (v.extractLsb' 0 4).toNat
  let m := { m with mcIrq := v.getLsbD 16, mcLog := log }
  if v.getLsbD 8 && decide (4 ≤ log) && decide (log ≤ 12) then { m with mcEn := true, mcFill := 0, mcDone := 0, busyCounts := false }
  else { m with mcEn := false }

/-- MCFILL written (R389): it only grows, and by no more than the ring holds. -/
def Mgmt.writeFill (m : Mgmt) (v : W64) : Mgmt :=
  if v.toNat < m.mcFill.toNat ∨ m.mcDone.toNat + 2 ^ m.mcLog < v.toNat then m else { m with mcFill := v }

/-- BOOTGO written (R392): in Boot, the image is copied from host memory and its verification starts. -/
def State.writeBootgo (s : State) (a : W64) : State :=
  if s.mgmt.boot ≠ 1 then s
  else
    let len := min (s.host.getN (a.toNat + 12) 4) (2 ^ 24)
    let image := Memory.setBytes [] 0 (s.host.bytes a.toNat (512 + len))
    { s with mgmt := { s.mgmt with boot := 2, bootAddr := a, image := image } }

/-- A register of BAR 0 written, field by field (R6, R397). -/
def State.writeBar (s : State) (off : Nat) (v : W64) : State :=
  match off with
  | 0x000 => { s with mgmt := { s.mgmt with therm := s.mgmt.therm && !v.getLsbD 4 } }
  | 0x008 => s.writeBootgo v
  | 0x010 =>
    { s with mgmt := { s.mgmt with clkMax := (v.extractLsb' 16 4).toNat, pwrCap := clampCap (v.extractLsb' 0 16).toNat } }
  | 0x028 => { s with mgmt := { s.mgmt with mcBase := v &&& ~~~0x3F } }
  | 0x030 => { s with mgmt := s.mgmt.writeCfg v }
  | 0x038 => { s with mgmt := s.mgmt.writeFill v }
  | _ => s

/-- A register of BAR 0 read (R397); BOOTGO is write-only and reads as zero. -/
def State.readBar (s : State) (off : Nat) : W64 :=
  let m := s.mgmt
  match off with
  | 0x000 => BitVec.ofNat 64 (m.svn.toNat * 2 ^ 8 + m.err * 2 ^ 5 + m.therm.toNat * 2 ^ 4 + m.boot)
  | 0x010 => BitVec.ofNat 64 (m.clkMax * 2 ^ 16 + m.pwrCap)
  | 0x018 => BitVec.ofNat 64 (m.clkLvl * 2 ^ 32 + m.temp * 2 ^ 16 + m.draw)
  | 0x020 => Config.deviceId
  | 0x028 => m.mcBase
  | 0x030 => BitVec.ofNat 64 (m.mcIrq.toNat * 2 ^ 16 + m.mcEn.toNat * 2 ^ 8 + m.mcLog)
  | 0x038 => m.mcFill
  | 0x040 => m.mcDone
  | _ => 0

/-- Registers that belong to one warp or task (R341, R390). -/
def sysOwned (number : Nat) : Bool := [0x02, 0x20, 0x21, 0x22].contains number

/-- The registers of R341. -/
def sysListed (number : Nat) : Bool :=
  [0x01, 0x02, 0x03, 0x04, 0x05, 0x06, 0x07, 0x10, 0x11, 0x12, 0x18, 0x19, 0x1A, 0x20, 0x21, 0x22, 0x28, 0x29, 0x30, 0x31, 0x32, 0x33,
   0x34, 0x35, 0x40].contains number

/-- REGISTER_WRITE (R6): a write of a register of BAR 0 by the host, of a system register of a context, or of a debug register of a
core. -/
def execRegisterWrite (r : RegTarget) (v : W64) (s : State) : Out :=
  match r with
  | .bar off => .next (s.writeBar off v)
  | .system ctx number index =>
    if s.mgmt.boot = 3 ∧ ctx < 64 ∧ sysListed number = true ∧ sysOwned number = false ∧ sysManaged number = false
        ∧ s.sysIndexOk ctx number index = true ∧ (number ≠ 0x40 ∨ s.debugSlot = some ctx) then
      s.keeping <| .next (s.sysStore ctx number index v)
    else .next s
  | .debug core off => if s.mgmt.boot = 3 ∧ core < 192 ∧ off % 8 = 0 then s.keeping <| .next (s.writeDebugReg core off v true) else .next s

/-- BOOTGO (R392). -/
def execBootgo (a : W64) (s : State) : Out := .next (s.writeBootgo a)

/-- MCCFG_ENABLE (R389). -/
def execMccfgEnable (v : W64) (s : State) : Out := .next { s with mgmt := s.mgmt.writeCfg v }

/-- MCFILL (R389). -/
def execMcfill (v : W64) (s : State) : Out := .next { s with mgmt := s.mgmt.writeFill v }

end Sys2Proof.Machine
end

