-- ==== Sys2Proof/Machine/ContextCommands.lean ====
section
/-!
DEFINITION. The commands that create, move and end contexts, and those that act on a context for the host (R337 to R346, R351, R390).
-/

namespace Sys2Proof.Machine

open Sys2Proof

/-! ## CREATE, ASSIGN, NEGOTIATE, START (R339, R342, R390) -/

/-- The bits of a page-table root (R341). -/
def rootMask : Nat := 0x000FFFFFFFFF0000

/-- A table address of a command has no bits but those of a root. -/
def rootOk (v : Nat) : Bool := v &&& rootMask == v

/-- CREATE: a free slot, with every register of it cleared, becomes a context in negotiation. -/
def State.create (c : Command) (s : State) : Ended :=
  let n := namedSlot c
  let priv := field c 9 1
  let r0 := field c 16 8
  let r1 := field c 24 8
  if 64 ≤ n ∨ 1 < priv ∨ rootOk r0 = false ∨ rootOk r1 = false ∨ (s.ctx n).st ≠ 0 then .invalid
  else
    .done (s.modCtx n fun _ =>
      { Context.reset with st := 1, priv := priv == 1, ptroot0 := BitVec.ofNat 64 r0, ptroot1 := BitVec.ofNat 64 r1 }) 0

/-- CREATE (R339). -/
def execCreate (c : Command) (s : State) : Out := runCommand [(8, 2), (16, 16)] (State.create c) c s

/-- The clusters of a context with the partition each belongs to, lowest first, after a partition has been given the clusters of a
mask: it gives up those the mask does not name. -/
def Context.assigned (c : Context) (part mask : Nat) : List (Nat × Nat) :=
  (List.range 48).filterMap fun i =>
    if mask.testBit i then some (i, part)
    else c.parts.find? fun p => p.1 == i && p.2 != part

/-- A context other than `n` holds the cluster. -/
def State.heldElsewhere (s : State) (n cluster : Nat) : Bool :=
  (List.range 64).any fun i => i != n && (s.ctx i).hasCluster cluster

/-- ASSIGN: in states 1 and 2 a partition of a context gets clusters that no other context holds. DESIGN CHOICE (log 34): the mask is
the whole of the partition, and a partition number that another context uses is no cluster, port or slot and so is not refused. -/
def State.assign (c : Command) (s : State) : Ended :=
  let n := namedSlot c
  let part := field c 9 1
  let mask := field c 16 8
  if 64 ≤ n ∨ 48 ≤ part ∨ 2 ^ 48 ≤ mask ∨ ((s.ctx n).st ≠ 1 ∧ (s.ctx n).st ≠ 2)
      ∨ ((List.range 48).any fun i => mask.testBit i && s.heldElsewhere n i) = true then .invalid
  else .done (s.modCtx n fun x => { x with parts := x.assigned part mask }) 0

/-- ASSIGN (R390). -/
def execAssign (c : Command) (s : State) : Out := runCommand [(8, 2), (16, 8)] (State.assign c) c s

/-- NEGOTIATE: a profile from 1 to DEVPROF makes the context ready; another is refused. -/
def State.negotiate (c : Command) (s : State) : Ended :=
  let n := namedSlot c
  let p := field c 9 1
  if 64 ≤ n ∨ (s.ctx n).st ≠ 1 then .invalid
  else if p = 0 ∨ 3 < p then .refused .contextProfile s
  else .done (s.modCtx n fun x => { x with prof := p, st := 2 }) p

/-- NEGOTIATE (R339). -/
def execNegotiate (c : Command) (s : State) : Out := runCommand [(8, 2)] (State.negotiate c) c s

/-- CQCFG keeps its limits (R342). -/
def Context.cqOk (x : Context) : Bool := let n := bitsOf x.cqcfg.toNat 4 0; decide (8 ≤ n) && decide (n ≤ 20)

/-- START: a ready context runs; one whose CQCFG breaks its limits stays, reported by the status (log 35). -/
def State.start (c : Command) (s : State) : Ended :=
  let n := namedSlot c
  if 64 ≤ n ∨ (s.ctx n).st ≠ 2 ∨ (s.ctx n).cqOk = false then .invalid
  else .done (s.modCtx n fun x => { x with st := 3 }) 0

/-- START (R339). -/
def execStart (c : Command) (s : State) : Out := runCommand [(8, 1)] (State.start c) c s

/-! ## PREEMPT (R343) -/

/-- PREEMPT: the swap of a running context begins. -/
def State.preempt (c : Command) (s : State) : Ended :=
  let n := namedSlot c
  if 64 ≤ n ∨ (s.ctx n).st ≠ 3 then .invalid
  else if s.freezeHolds n then .held s
  else .begun (s.beginPreempt n) (.preempt n)

/-- PREEMPT (R343). -/
def execPreempt (c : Command) (s : State) : Out := runCommand [(8, 1)] (State.preempt c) c s

/-- PREEMPT_COMPLETE: every task of the context has come to a stop and its work has drained; the swap ends. A context that an error has
made faulted meanwhile ends the command as a refusal (log 36). -/
def execPreemptComplete (ctx : Nat) (s : State) : Out :=
  match s.mgmt.busy with
  | some (tag, .preempt n) =>
    if n ≠ ctx ∨ s.mgmt.boot ≠ 3 then .next s
    else if (s.ctx ctx).st ≠ 3 then .next (s.finishCommand tag 3 Cause.uncorrectableState.code 0)
    else if s.freezeHolds ctx then .next s
    else
      let h := s.haltAll ctx
      if h.queuesQuiet ctx && (h.residentTasks ctx).all fun t => h.canLeave t then .next ((s.guarded (h.swapOut ctx)).finishCommand tag 0 0 0)
      else s.keeping (.next h)
  | _ => .next s

/-! ## SAVE and RESTORE (R344, R345) -/

/-- SAVE: the image of a context in shadow storage is to be written to an area of local memory. -/
def State.save (c : Command) (s : State) : Ended :=
  let n := namedSlot c
  let pa := field c 16 8
  let len := field c 24 8
  let need := (s.saveImage n).length
  if 64 ≤ n ∨ (s.ctx n).st ≠ 4 ∨ pa % 64 ≠ 0 ∨ localRange pa len = false then .invalid
  else if len < need then .small need
  else .begun (s.modCtx n fun x => { x with image := some (pa, len), moving := true }) (.save n)

/-- SAVE (R345). -/
def execSave (c : Command) (s : State) : Out := runCommand [(8, 1), (16, 16)] (State.save c) c s

/-- SAVE_COMPLETE: the image is written, and the context is in memory. -/
def execSaveComplete (ctx : Nat) (s : State) : Out :=
  match s.mgmt.busy, (s.ctx ctx).image with
  | some (tag, .save n), some (pa, _) =>
    if n ≠ ctx ∨ s.mgmt.boot ≠ 3 then .next s
    else if (s.ctx ctx).st ≠ 4 then .next (s.finishCommand tag 3 Cause.uncorrectableState.code 0)
    else
      let x := s.modCtx ctx fun x => { x with st := 5, moving := false }
      let bs := x.saveImage ctx
      .next ((s.guarded (x.homeWrite pa bs)).finishCommand tag 0 0 bs.length)
  | _, _ => .next s

/-- The context of an image in memory, read back over the context; none when the image breaks a limit. -/
def State.readBack (s : State) (ctx : Nat) : Option State :=
  match (s.ctx ctx).st, (s.ctx ctx).image with
  | 5, some (pa, area) => (readImage ctx s.nextId (s.imageAt pa area)).map fun x => s.takeImage ctx x true
  | _, _ => some s

/-- RESTORE: a suspended context runs again; an image with a field outside its limits makes it faulted. -/
def State.restore (c : Command) (s : State) : Ended :=
  let n := namedSlot c
  if 64 ≤ n ∨ ((s.ctx n).st ≠ 4 ∧ (s.ctx n).st ≠ 5) then .invalid
  else if s.freezeHolds n then .held s
  else
    match s.readBack n with
    | none => .refused .uncorrectableState (s.faultContext n)
    | some s => .done (s.resumeContext n) 0

/-- RESTORE (R344). -/
def execRestore (c : Command) (s : State) : Out := runCommand [(8, 1)] (State.restore c) c s

/-! ## TEARDOWN (R339) -/

/-- What is done for a context outside its warps is no longer awaited. -/
def State.forgetContext (s : State) (ctx : Nat) : State :=
  let mine (a : Asker) : Bool := match a with
    | .context c | .ring c => c % 64 == ctx
    | .queue q => (s.queue q).ctx == ctx
    | .kernel k => s.kernels.any fun (x : Kernel) => x.id == k && x.ctx == ctx
    | .warp t _ | .store t _ => s.tasks.any fun (x : Task) => x.id == t && x.ctx == ctx
    | _ => false
  let s := s.quitWaits fun a _ => mine a
  { s with
    outstanding := s.outstanding.map fun (o : Outstanding) =>
      if mine o.who || (o.who.isAgent && o.ctx == ctx) then { o with who := .post } else o,
    answers := s.answers.filter fun (a : Answer) => !mine a.who }

/-- What a core holds of a context: drains, instruction-cache lines and fills. -/
def Core.dropContext (c : Core) (ctx : Nat) : Core :=
  { c with
    drains := c.drains.filter fun (d : DrainOp) => d.ctx != ctx,
    icache := c.icache.filter fun (l : ILine) => l.ctx != ctx,
    fills := c.fills.filter fun (f : IFill) => f.ctx != ctx }

/-- A torn-down context: its tasks, kernels, commands and records are gone, no completion add is made, and no translation of the slot
is kept. -/
def State.tearDown (s : State) (ctx : Nat) : State :=
  let s := (s.tasks.filter fun t => t.ctx == ctx).foldl (fun (s : State) (t : Task) =>
    ((List.range t.warps.length).foldl (fun (s : State) (i : Nat) => (s.withdrawWaits t.id i).dropTurns t.id i) s).discardCommands t.id) s
  let s := s.forgetContext ctx
  let s := { s with
    tasks := s.tasks.filter fun (t : Task) => t.ctx != ctx,
    kernels := s.kernels.filter fun (k : Kernel) => k.ctx != ctx,
    tlb := s.tlb.filter fun (e : TlbEntry) => e.ctx != ctx,
    walks := s.walks.filter fun (e : WalkEntry) => e.ctx != ctx,
    invq := s.invq.map fun (x : Invalidation) => if x.from_ = some ctx then { x with sga := 0 } else x,
    cores := vmapAll s.cores fun (c : Core) => c.dropContext ctx,
    queues := vmapAll s.queues fun (q : Queue) =>
      if q.ctx = ctx then { q with st := .disabled, head := none, drain := none, age := 0, retiring := 0, later := [], appending := none }
      else q }
  s.modCtx ctx fun x =>
    { x with st := 9, moving := false, image := none, cq := [], pend := [], rbuf := [], req := false, run := false }

/-- TEARDOWN: any context is torn down. -/
def State.teardown (c : Command) (s : State) : Ended :=
  let n := namedSlot c
  if 64 ≤ n ∨ (s.ctx n).st = 0 then .invalid else .done (s.tearDown n) 0

/-- TEARDOWN (R339). -/
def execTeardown (c : Command) (s : State) : Out := runCommand [(8, 1)] (State.teardown c) c s

/-- TEARDOWN_RELEASE: the clusters and queues of a torn-down context are released, and its slot is free. -/
def execTeardownRelease (ctx : Nat) (s : State) : Out :=
  s.keeping <|
  if 64 ≤ ctx ∨ (s.ctx ctx).st ≠ 9 ∨ s.mgmt.boot ≠ 3 then .next s
  else
    let s := { s with queues := vmapAll s.queues fun (q : Queue) => if q.ctx = ctx then .reset else q }
    .next (s.modCtx ctx fun _ => .reset)

/-! ## Migration (R346) -/

/-- The offset on a peer of a fabric-remote address that names it (R187). -/
def remoteOffset (peer pa : Nat) : Option Nat :=
  if pa / 2 ^ 51 = 1 ∧ bitsOf pa 50 45 = peer then some (bitsOf pa 44 0) else none

/-- An image, and what the vault extents hold, sent to a peer in pieces of 64 bytes (R346); the destination judges what has arrived (log
37). -/
def State.postImage (s : State) (ctx peer off : Nat) (bs : List Byte) : State :=
  (List.range ((bs.length + 63) / 64)).foldl (fun (s : State) (i : Nat) =>
    (s.request .post 0 ctx 0 peer (.store (off + 64 * i) 64 (ofBytes ((bs.drop (64 * i)).take 64)))).getD s) s

/-- MIGRATE-OUT: the image of a saved context is streamed to a peer that some port of its route mask reaches (log 37). -/
def State.migrateOut (c : Command) (s : State) : Ended :=
  let n := namedSlot c
  let peer := field c 9 1
  let pa := field c 16 8
  if 64 ≤ n ∨ 64 ≤ peer ∨ (s.ctx n).st ≠ 5 ∨ pa % 64 ≠ 0 then .invalid
  else
    match remoteOffset peer pa, s.routeTo peer with
    | some off, some _ =>
      let s' := s.postImage n peer off (s.imageBytes n ++ s.extentBytes n)
      .begun (s'.modCtx n fun x => { x with st := 6, moving := true }) (.migrate n peer)
    | _, _ => .invalid

/-- MIGRATE-OUT (R346). -/
def execMigrateOut (c : Command) (s : State) : Out := runCommand [(8, 2), (16, 8)] (State.migrateOut c) c s

/-- The answer of the destination (R339, R390): acceptance releases the context here; a refusal leaves it saved, and its cause goes to
the host. -/
def State.answerMigration (s : State) (ctx cause : Nat) : State :=
  match s.mgmt.busy with
  | some (tag, .migrate n _) =>
    if n ≠ ctx ∨ (s.ctx ctx).st ≠ 6 then s
    else if cause = 0 then (s.guarded (s.tearDown ctx)).finishCommand tag 0 0 0
    else (s.guarded (s.modCtx ctx fun x => { x with st := 5, moving := false })).finishCommand tag 3 cause 0
  | _ => s

/-- MIGRATION_ANSWER (R346): `cause` 0 accepts. -/
def execMigrationAnswer (ctx cause : Nat) (s : State) : Out := .next (if s.mgmt.boot = 3 then s.answerMigration ctx cause else s)

/-- An extent of a task overlaps one that another task of the device holds. -/
def State.extentTaken (s : State) (t : Task) : Bool :=
  match t.vault with
  | none => false
  | some (id, off, n) => s.tasks.any fun (x : Task) => match x.vault with
    | some (i, o, m) => i == id && decide (o < off + 65536 * n) && decide (off < o + 65536 * m)
    | none => false

/-- The image at an address of local memory, judged in the order of R346. -/
def State.judgeImage (s : State) (ctx pa : Nat) : Except Cause Image :=
  let head := s.homeBytes pa 256
  if 3 < (head.getD 9 0).toNat then .error .contextProfile
  else
    match imageLength head with
    | none => .error .uncorrectableState
    | some n =>
      if localRange pa n = false then .error .uncorrectableState
      else
        match readImage ctx s.nextId (s.homeBytes pa n) with
        | none => .error .uncorrectableState
        | some x =>
          if (vlist s.contexts).all (fun c => c.st != 0) || x.tasks.any s.extentTaken then .error .launchInvalid
          else if localRange pa (n + ((extentsOf x.tasks).map (·.2)).sum) = false then .error .uncorrectableState
          else .ok x

/-- The clusters of a migrated context: of the ones that its PARTMAP names, those that no context holds here, as one partition. DESIGN
CHOICE (log 38). -/
def State.migratedParts (s : State) (ctx : Nat) (regs : List Byte) : List (Nat × Nat) :=
  let map := ofBytes ((regs.drop 88).take 8)
  let used := (vlist s.contexts).flatMap fun x => x.parts.map (·.2)
  let part := ((List.range 48).find? fun p => !used.contains p).getD 0
  ((List.range 48).filter fun i => map.testBit i && !s.heldElsewhere ctx i).map fun i => (i, part)

/-- The destination tells the source its answer over the link (R390). -/
def State.tellSource (s : State) (peer : Nat) (cause : Option Nat) : State :=
  match s.routeTo peer with
  | some p => s.sendOn p 1 (.migrated peer cause)
  | none => s

/-- MIGRATE-IN: an image that a peer has sent is checked and becomes a saved context in a free slot, with its vault extents and what they
hold. Its time goes on from the source's (R350). A device without a free slot tells the source so (R346); a slot that is not free while
another is makes the command invalid (R390). -/
def State.migrateIn (c : Command) (s : State) : Ended :=
  let n := namedSlot c
  let peer := field c 9 1
  let pa := field c 16 8
  let full := (vlist s.contexts).all fun x => x.st != 0
  if 64 ≤ n ∨ 64 ≤ peer ∨ ((s.ctx n).st ≠ 0 ∧ full = false) ∨ pa % 64 ≠ 0 ∨ localRange pa 256 = false then .invalid
  else
    match s.judgeImage n pa with
    | .error e => .refused e (s.tellSource peer (some e.code))
    | .ok x =>
      let parts := s.migratedParts n x.regs
      let s := s.modCtx n fun _ => { Context.reset with priv := x.priv }
      let s := s.takeImage n x false
      let len := (imageLength (s.homeBytes pa 256)).getD 0
      let s := { s.fillExtents (pa + len) x.tasks with time := max s.time (x.time * 2 ^ 20) }
      let s := s.modCtx n fun y => { y with st := 5, parts := parts, image := some (pa, len) }
      .done (s.tellSource peer none) 0

/-- MIGRATE-IN (R346). -/
def execMigrateIn (c : Command) (s : State) : Out := runCommand [(8, 2), (16, 8)] (State.migrateIn c) c s

/-! ## System registers and warps for the host (R341, R351, R390) -/

/-- The register and index that a command names can be read for a context in use. -/
def State.sysNamed (s : State) (c : Command) : Bool :=
  let n := namedSlot c
  let r := field c 10 2
  decide (n < 64) && (s.ctx n).st != 0 && sysListed r && !sysOwned r && s.sysIndexOk n r (field c 12 1)

/-- The asker of an SRWRITE in a context, beside the context's own agents. -/
def hostAsker (ctx : Nat) : Asker := .context (64 + ctx)

/-- SRWRITE: a privileged SRWR in the context. A register that only the management interface writes has its own command, and DBGCTL is
the debug partition's; a TLBINV waits for a free command entry. -/
def State.srwrite (c : Command) (s : State) : Ended :=
  let n := namedSlot c
  let r := field c 10 2
  let v := BitVec.ofNat 64 (field c 16 8)
  if s.sysNamed c = false ∨ sysManaged r = true ∨ (r = 0x40 ∧ s.debugSlot ≠ some n) then .invalid
  else if r = 0x06 then
    if invCap ≤ s.invq.length then .held s
    else
      match s.agentRead (hostAsker n) 0 n .load v.toNat 32 32 with
      | (.ok x, s) => .done ((s.queueInvalidation (Invalidation.parse x (some n) true)).dropAnswers (hostAsker n)) 0
      | (.waits, s) => .held s
      | (.fail _, _) => .invalid
  else .done (s.sysStore n r (field c 12 1) v) 0

/-- SRWRITE (R390). -/
def execSrwrite (c : Command) (s : State) : Out := runCommand [(8, 1), (10, 3), (16, 8)] (State.srwrite c) c s

/-- SRREAD: the value of a register of the context. -/
def State.srread (c : Command) (s : State) : Ended :=
  if s.sysNamed c = false then .invalid
  else .done s (s.sysValue (namedSlot c) (field c 10 2) (field c 12 1)).toNat

/-- SRREAD (R390). -/
def execSrread (c : Command) (s : State) : Out := runCommand [(8, 1), (10, 3)] (State.srread c) c s

/-- WARPRESUME: RESUME of a warp of a context. -/
def State.warpresume (c : Command) (s : State) : Ended :=
  if 64 ≤ namedSlot c then .invalid
  else
    let r := s.onSaved (namedSlot c) fun s => s.resumeHandle (namedSlot c) (field c 16 4)
    .done r.2 r.1.toNat

/-- WARPRESUME (R390). -/
def execWarpresume (c : Command) (s : State) : Out := runCommand [(8, 1), (16, 4)] (State.warpresume c) c s

/-- WARPKILL: KILL of the task of a warp of a context; a freeze holds it. -/
def State.warpkill (c : Command) (s : State) : Ended :=
  if 64 ≤ namedSlot c then .invalid
  else if s.freezeHolds (namedSlot c) then .held s
  else
    let r := s.onSaved (namedSlot c) fun s => s.killHandle (namedSlot c) (field c 16 4)
    .done r.2 r.1.toNat

/-- WARPKILL (R390). -/
def execWarpkill (c : Command) (s : State) : Out := runCommand [(8, 1), (16, 4)] (State.warpkill c) c s

/-! ## DEBUGSET and TLBINV (R194, R376) -/

/-- DEBUGSET: the context that is the debug partition, or none. -/
def State.debugset (c : Command) (s : State) : Ended :=
  let n := namedSlot c
  if n = 0xFF then .done { s with debugSlot := none } 0
  else if 64 ≤ n then .invalid
  else .done { s with debugSlot := some n } 0

/-- DEBUGSET (R376). -/
def execDebugset (c : Command) (s : State) : Out := runCommand [(8, 1)] (State.debugset c) c s

/-- TLBINV of the management interface: its record queues an invalidation, whose completion ends the command. -/
def State.mgmtTlbinv (c : Command) (s : State) : Ended :=
  if invCap ≤ s.invq.length then .held s
  else .begun (s.queueInvalidation (Invalidation.parse (field c 8 32) none true)) .tlbinv

/-- TLBINV (R194). -/
def execTlbinv (c : Command) (s : State) : Out := runCommand [(8, 32)] (State.mgmtTlbinv c) c s

end Sys2Proof.Machine
end

