-- ==== Sys2Proof/Machine/Link.lean ====
section
/-!
DEFINITION. The Karst ports (R365 to R372), the host ports' access to device memory (R373), checkpoints (R374), and the commands of the
management interface that set them (R390).
-/

namespace Sys2Proof.Machine

open Sys2Proof

/-! ## What becomes of traffic when a port leaves its states (R366 to R368) -/

/-- The record of class R that a failed request of an agent makes (R358). -/
def State.agentFailed (s : State) (o : Outstanding) : State :=
  match o.who with
  | .agent cause kid => s.bufferRecord o.ctx (s.agentRecord cause kid o.va)
  | _ => s

/-- A request stores without an answer that its warp uses. -/
def opStores : HomeOp → Bool
  | .store _ _ _ | .stbm _ _ _ _ => true
  | _ => false

/-- Bytes for an operand of a warp's matrix operation have come: the engine advances (R291). -/
def State.byteLoaded (s : State) (task warp : Nat) : State :=
  let core := s.coreOf task
  if (s.core core).ops.any fun o => o.task == task && o.warp == warp && (o.kind == 0 || o.kind == 2) && o.pending then
    s.modCore core fun k => { k with idle := 0 }
  else s

/-- The end of a request reaches who asked (R368): a store that fails waits for its release; a wait at a peer that is over wakes its
warp, and one that fails lets its warp make it again; an agent that does not wait has a failure, or a refused add, recorded. -/
def State.deliver (s : State) (o : Outstanding) (ok : Bool) (v : Nat) : State :=
  let a : Answer := { who := o.who, key := o.key, ok := ok, val := v, peer := o.peer, op := some o.op }
  match o.who with
  | .post => s
  | .agent _ _ => if ok && v != refused then s else s.agentFailed o
  | .store t w => if ok || !opStores o.op then s else s.modWarp t w fun x => { x with failed := x.failed ++ [(o.va, v)] }
  | .warp t w =>
    if !opWaits o.op then { s.byteLoaded t w with answers := s.answers ++ [a] }
    else if ok then { s with answers := s.answers ++ [a] }.sendWake (.warp t w) v
    else
      match s.warp? t w with
      | some x =>
        if x.st = .blocked then
          let s := (s.withdrawWaits t w).modWarp t w fun x => { x with st := .ready, wait := none }
          { s with answers := s.answers ++ [a] }
        else { s with answers := s.answers ++ [a] }
      | none => s
  | _ => { s with answers := s.answers ++ [a] }

/-- The target of a wait. -/
def waitTarget : HomeOp → Nat
  | .sgWait _ t => t
  | _ => 0

/-- A response to an outstanding request (R368): a wait that is not satisfied, or not entered, goes on (R123, R124); another request is
over. -/
def State.answered (s : State) (o : Outstanding) (ok : Bool) (v : Nat) : State :=
  if opWaits o.op && ok && (decide (2 ^ 64 ≤ v) || decide (v < waitTarget o.op)) then
    { s with outstanding := s.outstanding.map fun (x : Outstanding) =>
        if x.tag = o.tag then { x with entry := if 2 ^ 64 ≤ v then 2 else 1, seen := v % 2 ^ 64 } else x }
  else ({ s with outstanding := s.outstanding.filter fun (x : Outstanding) => x.tag != o.tag }).deliver o ok v

/-- The record of a port event for a context whose request failed (R368). -/
def State.linkRecord (s : State) (ctx port : Nat) : State :=
  s.bufferRecord ctx { s.agentRecord .linkError 0 0 with extra := port }

/-- An outstanding request that has lost its port goes over another port with the same tag, or fails (R368). -/
def State.reroute (s : State) (o : Outstanding) : State :=
  match s.portOf o.peer with
  | some p =>
    let s := { s with outstanding := s.outstanding.map fun (x : Outstanding) => if x.tag = o.tag then { x with port := p } else x }
    s.sendOn p (s.requestClass o.peer o.op) (.request o.peer o.tag o.op)
  | none =>
    ({ s with outstanding := s.outstanding.filter fun (x : Outstanding) => x.tag != o.tag }).deliver o false 0

/-- The other end of a message that is no request. -/
def msgPeer : FabricMsg → Option Nat
  | .request _ _ _ => none
  | .response p _ _ _ | .withdraw p _ | .migrated p _ => some p

/-- A message that is no request goes over another port by which its peer is reached. -/
def State.resend (s : State) (f : Flit) : State :=
  match f.msg.bind fun m => (msgPeer m).map fun p => (m, p) with
  | some (m, peer) => match s.routeTo peer with
    | some p => s.sendOn p f.cls m
    | none => s
  | none => s

/-- The requests that fail when a port is gone: those on it whose peer no other port reaches. -/
def State.lostRequests (s : State) (port : Nat) : List Outstanding :=
  let gone := s.modPort port fun p => { p with st := 0 }
  s.outstanding.filter fun o => o.port == port && (gone.portOf o.peer).isNone

/-- The contexts whose requests fail when a port is gone. -/
def State.losers (s : State) (port : Nat) : List Nat :=
  (List.range 64).filter fun c => (s.lostRequests port).any fun o => o.ctx == c

/-- Every context whose requests fail has room for its records (R358): one for the port, and one for each request of an agent. -/
def State.loserRoom (s : State) (port : Nat) : Bool :=
  (s.losers port).all fun c =>
    decide ((s.ctx c).rbuf.length + 1 + ((s.lostRequests port).filter fun o => o.ctx == c && o.who.isAgent).length ≤ 256)

/-- A port is gone, in a state in which it carries nothing: its traffic goes elsewhere or fails, and each context with a failed request
gets one LINK_ERROR (R368). -/
def State.losePort (s : State) (port st : Nat) : State :=
  let old := s.port port
  let lost := s.losers port
  let mine := s.outstanding.filter fun o => o.port == port
  let s := s.modPort port fun p =>
    { p with st := st, was := st, lanes := 0, rate := 0, peer := 0, allow := vfill 3 0, held := [], replay := [], fails := 0, txSeq := 0,
             rxSeq := 0, owed := vfill 3 0, granted := vfill 3 0 }
  let s := mine.foldl (fun (s : State) (o : Outstanding) => s.reroute o) s
  let s := (old.replay ++ old.held).foldl (fun (s : State) (f : Flit) => s.resend f) s
  lost.foldl (fun (s : State) (c : Nat) => s.linkRecord c port) s

/-! ## The life of a port (R367) -/

/-- PORTENABLE: a port that is off or down begins to train. -/
def State.portenable (c : Command) (s : State) : Ended :=
  let p := namedSlot c
  if 18 ≤ p ∨ ((s.port p).st ≠ 0 ∧ (s.port p).st ≠ 6) then .invalid
  else .done (s.modPort p fun x => { x with st := 1, was := 1 }) 0

/-- PORTENABLE (R367). -/
def execPortenable (c : Command) (s : State) : Out := runCommand [(8, 1)] (State.portenable c) c s

/-- PORTDISABLE: a port that is not off is turned off; it waits for room for the records that this makes. -/
def State.portdisable (c : Command) (s : State) : Ended :=
  let p := namedSlot c
  if 18 ≤ p ∨ (s.port p).st = 0 then .invalid
  else if s.loserRoom p = false then .held s
  else .done (s.losePort p 0) 0

/-- PORTDISABLE (R367). -/
def execPortdisable (c : Command) (s : State) : Out := runCommand [(8, 1)] (State.portdisable c) c s

/-- Flits of the replay buffer are sent again (R366). -/
def Port.replayed (p : Port) (n : Nat) : Port := { p with replays := min (p.replays + n) (2 ^ 32 - 1) }

/-- Buffers of a class that are free and that the peer holds no allowance for (R366). -/
def Port.unissued (p : Port) (cls : Nat) : Nat :=
  Config.flitBuffers cls - vget p.granted cls 0 - (p.inbox.filter fun m => m.1 == cls).length

/-- A port that has trained (R367): up with 8 lanes at 224 Gb/s, else degraded; it issues allowances for its free buffers, after a
retraining the flits of the replay buffer are sent again (R366), and held traffic leaves. A device that is frozen meanwhile freezes the
port. -/
def Port.trained (p : Port) (frozen : Bool) (lanes rate peer : Nat) : Port :=
  let up := if lanes = 8 ∧ rate = 0 then 2 else 3
  let p := ({ p with
    lanes := lanes, rate := rate, peer := peer, fails := 0, was := up,
    owed := ⟨#[p.unissued 0, p.unissued 1, p.unissued 2], rfl⟩ } : Port).replayed p.replay.length
  if frozen then { p with st := 4 } else (({ p with st := up } : Port).control).pump

/-- PORT_TRAINED. -/
def execPortTrained (port lanes rate peer : Nat) (s : State) : Out :=
  s.keeping <|
  let p := s.port port
  if port < 18 ∧ s.mgmt.boot = 3 ∧ (p.st = 1 ∨ p.st = 5) ∧ (lanes = 1 ∨ lanes = 2 ∨ lanes = 4 ∨ lanes = 8) ∧ rate ≤ 2 ∧ peer < 64 then
    .next (s.modPort port fun p => p.trained s.frozen lanes rate peer)
  else .next s

/-- PORT_TRAINING_TIMEOUT: no lane has trained within 100 ms, and the port is down. -/
def execPortTrainingTimeout (port : Nat) (s : State) : Out :=
  s.keeping <|
  if port < 18 ∧ s.mgmt.boot = 3 ∧ ((s.port port).st = 1 ∨ (s.port port).st = 5) ∧ s.loserRoom port = true then .next (s.losePort port 6)
  else .next s

/-- A port begins a retraining (R366, R367): new traffic is held and the replay buffer kept; requests that another port of the mask can
carry are sent again over it (R368). -/
def State.retrain (s : State) (port : Nat) : State :=
  let s := s.modPort port fun p => { p with st := 5, was := 5, fails := 0 }
  (s.outstanding.filter fun o => o.port == port).foldl (fun (s : State) (o : Outstanding) =>
    match s.portOf o.peer with
    | some q => if (s.port q).open_ then s.reroute o else s
    | none => s) s

/-- PORT_RETRAIN (R366, R367): a lane is lost, or the far end has begun a retraining. -/
def execPortRetrain (port : Nat) (s : State) : Out :=
  s.keeping <|
  let p := s.port port
  if port < 18 ∧ s.mgmt.boot = 3 ∧ (p.st = 2 ∨ p.st = 3) then .next (s.retrain port) else .next s

/-! ## Flits (R365, R366) -/

/-- A flit that arrives at a port: one that fails its CRC is counted and comes again; the next in order is delivered into a buffer of its
class, and another is one that a replay has sent twice. The buffer of a flit that carries no message is free at once. -/
def Port.receive (p : Port) (f : Flit) (crcOk : Bool) : Port :=
  if !crcOk then { p with crcFails := min (p.crcFails + 1) (2 ^ 32 - 1), fails := p.fails + 1 }
  else if f.seq ≠ p.rxSeq then p
  else
    { p with rxSeq := p.rxSeq + 1, fails := 0, inbox := p.inbox ++ (f.msg.map fun m => (f.cls, m)).toList,
             granted := vmod p.granted f.cls fun n => n - 1,
             owed := if f.msg.isNone then vmod p.owed f.cls fun n => n + 1 else p.owed }

/-- FLIT_RECEIVE, of a control flit that fails its CRC too. A port in its freeze completes replays and goes on receiving. The eighth
consecutive failure of a flit starts a retraining (R366). -/
def execFlitReceive (port : Nat) (f : Flit) (crcOk : Bool) (s : State) : Out :=
  s.keeping <|
  let p := s.port port
  if port < 18 ∧ s.mgmt.boot = 3 ∧ (p.st = 2 ∨ p.st = 3 ∨ p.st = 4) then
    let s := s.modPort port fun p => p.receive f crcOk
    .next (if 8 ≤ (s.port port).fails ∧ p.st ≠ 4 then s.retrain port else s)
  else .next s

/-- The response of a flit, once the peer has acknowledged it, is kept no longer, and its tag is remembered as executed; a wake that has
been delivered frees its waiter entry (R127, R368). -/
def State.acknowledged (s : State) (f : Flit) : State :=
  match f.msg with
  | some (.response peer tag ok v) =>
    { s with
      served := s.served.erase (peer, tag, ok, v),
      spent := if s.spent.contains (peer, tag) then s.spent else s.spent ++ [(peer, tag)],
      waiters := s.waiters.filter fun (w : WaiterEntry) => !(w.who == .peer peer tag && decide (w.target ≤ v)) }
  | _ => s

/-- CONTROL_FLIT, of a control flit that passes its CRC: the peer returns allowances of a class and acknowledges every flit below a
number; held flits then leave. DEDUCED (log 138): one that returns no allowance and acknowledges up to a flit of the replay buffer asks
for that flit again, which has failed its CRC at the far end; it is sent again with those after it. The control flit that this port sends
in turn returns the allowances of its free buffers, which a freeze withholds. -/
def execControlFlit (port allow cls ack : Nat) (s : State) : Out :=
  s.keeping <|
  let p := s.port port
  if port < 18 ∧ s.mgmt.boot = 3 ∧ cls < 3 ∧ (p.st = 2 ∨ p.st = 3 ∨ p.st = 4) then
    let s := (p.replay.filter fun f => decide (f.seq < ack)).foldl (fun (s : State) (f : Flit) => s.acknowledged f) s
    .next (s.modPort port fun p =>
      let rest := p.replay.filter fun f => !decide (f.seq < ack)
      let p := { p with allow := vmod p.allow cls fun n => n + allow, replay := rest }
      let p := if allow = 0 && (rest.any fun f => f.seq == ack) then p.replayed rest.length else p
      p.control.pump)
  else .next s

/-! ## Requests of peers (R369, R370, R372) -/

/-- The bytes of local memory that an operation touches. -/
def homeRange : HomeOp → Nat × Nat
  | .load pa n | .store pa n _ | .stbm pa n _ _ | .amo pa n _ _ | .cas pa n _ _ | .contribution pa n _ _ _ _ _ => (pa, n)
  | .sgAdd pa _ | .sgSet pa _ | .sgWait pa _ => (pa, 8)
  | .bjoin pa | .bleave pa _ | .barrive pa | .bwait pa _ _ => (pa, 32)

/-- A range lies inside one that management exports to a peer (R369). -/
def State.exported (s : State) (peer pa n : Nat) : Bool :=
  s.exports.any fun (e : Nat × Nat × Nat × Nat) => e.1 == peer && decide (e.2.2.1 ≤ pa) && decide (pa + n ≤ e.2.2.1 + e.2.2.2)

/-- The first message of an inbox that satisfies a condition. -/
def Port.first (p : Port) (f : FabricMsg → Bool) : Option (Nat × FabricMsg) := p.inbox.find? fun m => f m.2

/-- A message of the inbox is taken: its buffer is free, and an allowance of its class is owed to the peer (R366). -/
def State.take (s : State) (port : Nat) (m : Nat × FabricMsg) : State :=
  s.modPort port fun p => { p with inbox := p.inbox.erase m, owed := vmod p.owed m.1 fun n => n + 1 }

/-- A peer's request that has been executed already: its tag is known (R368). -/
def State.knownTag (s : State) (peer tag : Nat) : Bool :=
  (s.served.any fun x => x.1 == peer && x.2.1 == tag) || s.spent.contains (peer, tag)

/-- A peer's request at its home (R368, R369): executed once for its tag, refused outside the exported ranges, and answered. -/
def State.serve (s : State) (peer tag : Nat) (op : HomeOp) : State :=
  let r := homeRange op
  if s.knownTag peer tag then
    match s.served.find? fun x => x.1 == peer && x.2.1 == tag, s.routeTo peer with
    | some x, some p => s.sendOn p 1 (.response peer tag x.2.2.1 x.2.2.2)
    | _, _ => s
  else if s.exported peer r.1 r.2 = false then s.respond peer tag false 1
  else
    let x := s.homeExec op (.peer peer tag)
    x.2.respond peer tag true x.1

/-- A peer withdraws a wait (R126, R127): its entry is free, and its tag counts as executed. -/
def State.freeWait (s : State) (peer tag : Nat) : State :=
  { s with
    waiters := s.waiters.filter fun (w : WaiterEntry) => w.who != .peer peer tag,
    served := s.served.filter fun (x : Nat × Nat × Bool × Nat) => !(x.1 == peer && x.2.1 == tag),
    spent := if s.spent.contains (peer, tag) then s.spent else s.spent ++ [(peer, tag)] }

/-- A message that asks this device for something. -/
def msgAsks : FabricMsg → Bool
  | .request _ _ _ | .withdraw _ _ => true
  | .response _ _ _ _ | .migrated _ _ => false

/-- REMOTE_REQUEST: the next request that has arrived at a port executes at its home through the FABRIC path. -/
def execRemoteRequest (port : Nat) (s : State) : Out :=
  s.keeping <|
  if s.mgmt.boot ≠ 3 then .next s
  else
    match (s.port port).first msgAsks with
    | some (cls, .request peer tag op) => .next ((s.take port (cls, .request peer tag op)).serve peer tag op)
    | some (cls, .withdraw peer tag) => .next ((s.take port (cls, .withdraw peer tag)).freeWait peer tag)
    | _ => .next s

/-- The response is one that makes a record, for which there must be room (R358). -/
def State.answerRoom (s : State) (o : Outstanding) (ok : Bool) (v : Nat) : Bool :=
  !o.who.isAgent || (ok && v != refused) || s.recordRoom o.ctx

/-- REMOTE_RESPONSE (R368, R370): the next response that has arrived at a port reaches who asked; one to no outstanding request is
dropped. The answer of a migration's destination ends the migration (R390). -/
def execRemoteResponse (port : Nat) (s : State) : Out :=
  if s.mgmt.boot ≠ 3 then .next s
  else
    match (s.port port).first fun m => !msgAsks m with
    | some (cls, .response peer tag ok v) =>
      match s.outstanding.find? fun o => o.tag == tag with
      | some o =>
        if s.answerRoom o ok v then s.keeping <| .next ((s.take port (cls, .response peer tag ok v)).answered o ok v) else .next s
      | none => s.keeping <| .next (s.take port (cls, .response peer tag ok v))
    | some (cls, .migrated peer c) =>
      let s := s.guarded (s.take port (cls, .migrated peer c))
      match s.mgmt.busy with
      | some (_, .migrate n dest) => .next (if peer = dest then s.answerMigration n (c.getD 0) else s)
      | _ => .next s
    | _ => .next s

/-- REDUCTION_RESULT (R372): what the switches have merged is applied at the home slice. -/
def execReductionResult (pa size op : Nat) (v : W64) (s : State) : Out :=
  s.keeping <|
  .next (if s.mgmt.boot = 3 then s.contribute pa size op v.toNat else s)

/-! ## Routes, exports and windows (R368, R369, R371) -/

/-- ROUTE: the ports that reach a peer. -/
def State.route (c : Command) (s : State) : Ended :=
  let m := field c 16 4
  if 64 ≤ namedSlot c ∨ 2 ^ 18 ≤ m then .invalid
  else .done { s with routes := vset s.routes (namedSlot c) (BitVec.ofNat 18 m) } 0

/-- ROUTE (R368). -/
def execRoute (c : Command) (s : State) : Out := runCommand [(8, 1), (16, 4)] (State.route c) c s

/-- EXPORT: an entry of the ranges that a peer may use; a length of 0 removes it. -/
def State.exportRange (c : Command) (s : State) : Ended :=
  let peer := namedSlot c
  let n := field c 9 1
  let pa := field c 16 8
  let len := field c 24 8
  if 64 ≤ peer ∨ 16 ≤ n ∨ pa % 65536 ≠ 0 ∨ len % 65536 ≠ 0 ∨ localRange pa len = false then .invalid
  else
    let rest := s.exports.filter fun (e : Nat × Nat × Nat × Nat) => !(e.1 == peer && e.2.1 == n)
    .done { s with exports := if len = 0 then rest else rest ++ [(peer, n, pa, len)] } 0

/-- EXPORT (R369). -/
def execExportRange (c : Command) (s : State) : Out := runCommand [(8, 2), (16, 16)] (State.exportRange c) c s

/-- The RW bits of RWIN and RWRNG (R371). -/
def rwinMask : W64 := 0x3FFE3FFFFFFFFFFF
def rwrngMask : W64 := 0xFFFFFFFFFFFF0000

/-- The first address and the bytes of a window's range. -/
def windowRange (g : W64) : Nat × Nat := ((g.extractLsb' 16 36).toNat * 65536, ((g.extractLsb' 52 12).toNat + 1) * 65536)

/-- The physical address of a window's ROUND. -/
def windowRound (w : W64) : Nat := (w.extractLsb' 0 46).toNat * 64

/-- Both addresses are local, or both on one peer. -/
def sameDevice (a b : Nat) : Bool := isRemote a == isRemote b && (!isRemote a || bitsOf a 50 45 == bitsOf b 50 45)

/-- A slot may hold the values (R371): with a ROUND on the device of the range, and, if it is enabled, outside the range, which meets that
of no other enabled slot. -/
def State.windowOk (s : State) (slot : Nat) (w g : W64) : Bool :=
  let r := windowRange g
  let round := windowRound w
  sameDevice round r.1 && (!w.getLsbD 61 || (!(decide (r.1 ≤ round) && decide (round < r.1 + r.2)) &&
    !(List.range 64).any fun i =>
      i != slot && (vget s.rwin i 0).getLsbD 61 &&
        let q := windowRange (vget s.rwrng i 0)
        decide (r.1 < q.1 + q.2) && decide (q.1 < r.1 + r.2)))

/-- WINDOW: the registers of a window slot. -/
def State.window (c : Command) (s : State) : Ended :=
  let n := namedSlot c
  let w := BitVec.ofNat 64 (field c 16 8) &&& rwinMask
  let g := BitVec.ofNat 64 (field c 24 8) &&& rwrngMask
  if 64 ≤ n ∨ s.windowOk n w g = false then .invalid
  else .done { s with rwin := vset s.rwin n w, rwrng := vset s.rwrng n g } 0

/-- WINDOW (R371). -/
def execWindow (c : Command) (s : State) : Out := runCommand [(8, 1), (16, 16)] (State.window c) c s

/-! ## The host ports (R373, R374) -/

/-- CXL_MEM_ACCESS: a host write of device memory goes to the homes of its words, and a read returns what they hold, with the words of an
L1 owner forwarded; a read changes nothing. -/
def execCxlMemAccess (write : Bool) (pa len : Nat) (v : W64) (s : State) : Out :=
  s.keeping <|
  if write ∧ s.mgmt.boot = 3 ∧ len ≤ 8 ∧ localRange pa len = true then .next (s.homeWrite pa (toBytes len v.toNat)) else .next s

/-- What a host read over CXL.mem returns (R373). -/
def State.cxlRead (s : State) (pa len : Nat) : Nat := s.homeN pa len

/-- The ranges of a checkpoint's list in host memory: first address and length. -/
def State.rangeList (s : State) (list : Nat) : Nat → List (Nat × Nat)
  | 0 => []
  | n + 1 => (s.host.getN list 8, s.host.getN (list + 8) 8) :: s.rangeList (list + 16) n

/-- A range of a checkpoint is one of whole units of local memory. -/
def rangeOk (r : Nat × Nat) : Bool := r.1 % 64 == 0 && r.2 % 64 == 0 && localRange r.1 r.2

/-- CHECKPOINT: the transfer of named ranges of device memory begins. -/
def State.checkpoint (c : Command) (s : State) : Ended :=
  let list := field c 8 8
  let n := field c 16 4
  let kind := field c 20 1
  let target := field c 24 8
  let sga := field c 32 8
  if 1 < kind ∨ sga % 8 ≠ 0 ∨ localRange sga 8 = false ∨ (s.rangeList list n).all rangeOk = false then .invalid
  else .begun s (.checkpoint list n target (kind == 1) sga (field c 40 4))

/-- CHECKPOINT (R374). -/
def execCheckpoint (c : Command) (s : State) : Out := runCommand [(8, 13), (24, 20)] (State.checkpoint c) c s

/-- The ranges copied one after another to the target, and the bytes copied. DESIGN CHOICE (log 40): a CXL memory is reached at its
address like the host's memory. -/
def State.copyOut (s : State) (target : Nat) : List (Nat × Nat) → Nat × State
  | [] => (0, s)
  | r :: rs =>
    let s := { s with host := s.host.setBytes target (s.homeBytes r.1 r.2) }
    let x := s.copyOut (target + r.2) rs
    (r.2 + x.1, x.2)

/-- CHECKPOINT_COMPLETE (R374): every unit has been read at its home and written to the target, and the completion add is made. A refused
add is the command's fault (R122): STATUS 3 with the cause SG_OVERFLOW, and the command has no effect (R391). DESIGN CHOICE (log 45):
the place where it stands. -/
def execCheckpointComplete (s : State) : Out :=
  match s.mgmt.busy with
  | some (tag, .checkpoint list n target _ sga amt) =>
    if s.mgmt.boot ≠ 3 then .next s
    else
      let x := s.copyOut target ((s.rangeList list n).filter rangeOk)
      let a := x.2.sgAddAt sga amt
      .next (if a.1 = refused then s.finishCommand tag 3 Cause.sgOverflow.code 0 else (s.guarded a.2).finishCommand tag 0 0 x.1)
  | _ => .next s

end Sys2Proof.Machine
end

