-- ==== Sys2Proof/Machine/Boot.lean ====
section
/-!
DEFINITION. Reset and boot (R392, R393), the clock (R12, R396), and identity and attestation (R395).
-/

namespace Sys2Proof.Machine

open Sys2Proof

/-! ## Reset (R392) -/

/-- Every register at its reset value but BOOTST.THERM, and every cache, vault, tile and plane clear. HBM keeps what it holds; the
host's memory, what has been sent to the host, and the model's names and counters are no registers of the device. -/
def State.cleared (s : State) (boot : Nat) (therm : Bool) : State :=
  { State.reset with
    mgmt := { Mgmt.reset with boot := boot, therm := therm }, mem := s.mem, poison := s.poison, host := s.host, msix := s.msix,
    reports := s.reports, spdm := s.spdm, agenda := s.agenda, freeCtr := s.freeCtr, nextId := s.nextId, nextTag := s.nextTag }

/-- POWER_GOOD: the device enters Boot, with BOOTST.THERM clear. -/
def execPowerGood (s : State) : Out := if s.mgmt.boot = 0 then .next (s.cleared 1 false) else .next s

/-- HOST_RESET: a running device enters Reset, every context lost; from there it enters Boot. -/
def execHostReset (s : State) : Out :=
  match s.mgmt.boot with
  | 0 => .next (s.cleared 1 s.mgmt.therm)
  | 3 => .next (s.cleared 0 s.mgmt.therm)
  | _ => .next s

/-- THERMAL_TRIP (R396): a die has stayed at or above 120 °C for 100 ms; a running device trips to Reset. -/
def execThermalTrip (s : State) : Out := if s.mgmt.boot = 3 ∧ 100 ≤ s.mgmt.hot then .next (s.cleared 0 true) else .next s

/-! ## The image (R393) -/

/-- The image's header and body. -/
def imageBody (m : Memory) : List Byte := m.bytes 512 (m.getN 12 4)

/-- The first failing check of an image, 0 when all pass, in the order of R393. -/
def imageError (m : Memory) : Nat :=
  let zeros (a n : Nat) : Bool := (m.bytes a n).all fun b => b == 0
  let len := m.getN 12 4
  let key := m.bytes 16 133
  if m.bytes 0 4 ≠ [0x49, 0x4B, 0x47, 0x39] ∨ m.getN 4 4 ≠ 1 then 1
  else if m.getN 8 4 < Config.fusedSvn.toNat then 2
  else if len = 0 ∨ 2 ^ 24 < len then 1
  else if Config.sha512 key ≠ Config.fusedKeyDigest then 3
  else if zeros 149 107 = false then 1
  else if Config.ecdsaVerify key (m.bytes 256 132) (Config.sha512 (m.bytes 0 256 ++ imageBody m)) = false then 4
  else if zeros 388 124 = false then 1
  else 0

/-- IMAGE_VERIFY: the image runs, with HBM written to zero, or nothing of it is kept. -/
def execImageVerify (s : State) : Out :=
  if s.mgmt.boot ≠ 2 then .next s
  else
    match imageError s.mgmt.image with
    | 0 =>
      .next { s with
        mem := [], poison := [],
        mgmt := { s.mgmt with
          boot := 3, err := 0, svn := BitVec.ofNat 32 (s.mgmt.image.getN 8 4), verified := s.mgmt.image } }
    | e => .next { s with mgmt := { s.mgmt with boot := 1, err := e, image := [] } }

/-! ## The clock (R12, R396) -/

/-- What fits a field of 16 bits of PWRNOW. -/
def cap16 (n : Nat) : Nat := min n 65535

/-- The level that the clock moves to: at most one step. A level above CLKMAX is lowered too. DEDUCED (log 41). -/
def nextLevel (m : Mgmt) (draw temp : Nat) : Nat :=
  if m.pwrCap < draw ∨ 1050 ≤ temp ∨ m.clkMax < m.clkLvl then m.clkLvl - 1
  else if draw + 50 ≤ m.pwrCap ∧ temp < 1000 ∧ m.clkLvl < m.clkMax then m.clkLvl + 1
  else m.clkLvl

/-- POWER_CONTROL_TICK: a millisecond has passed with a draw in W and a hottest die in tenths of a degree. -/
def execPowerControlTick (draw temp : Nat) (s : State) : Out :=
  if s.mgmt.boot = 0 then .next s
  else
    .next { s with mgmt := { s.mgmt with
      draw := cap16 draw, temp := cap16 temp, clkLvl := nextLevel s.mgmt draw temp,
      hot := if 1200 ≤ temp then s.mgmt.hot + 1 else 0 } }

/-- THERMAL_EMERGENCY: at 115 °C the clock goes to its lowest level at once. -/
def execThermalEmergency (temp : Nat) (s : State) : Out :=
  if s.mgmt.boot = 0 ∨ temp < 1150 then .next s
  else .next { s with mgmt := { s.mgmt with temp := cap16 temp, clkLvl := 0 } }

/-! ## SPDM (R395) -/

/-- A response of a function's mailbox: the response code and its content. The codes are those of SPDM 1.3. PRESUMED (log 42). -/
def State.spdmSend (s : State) (fn code : Nat) (bs : List Byte) : Out := .next { s with spdm := s.spdm ++ [(fn, code, bs)] }

/-- The code of a refusal. -/
def spdmError : Nat := 0x7F

/-- GET_VERSION. -/
def execGetVersion (fn : Nat) (s : State) : Out :=
  s.keeping <| s.spdmSend fn 0x04 (Config.spdmResponse 0x84 0)

/-- GET_CAPABILITIES. -/
def execGetCapabilities (fn : Nat) (s : State) : Out :=
  s.keeping <| s.spdmSend fn 0x61 (Config.spdmResponse 0xE1 0)

/-- The bits of ECDSA P-521 and SHA-512 in the masks of a negotiation. PRESUMED (log 42). -/
def asymP521 : W32 := 0x100
def hashSha512 : W32 := 0x4

/-- NEGOTIATE_ALGORITHMS: only ECDSA P-521 with SHA-512 is offered, and a negotiation that excludes them is refused. -/
def execNegotiateAlgorithms (fn : Nat) (asym hash : W32) (s : State) : Out :=
  if asym &&& asymP521 ≠ 0 ∧ hash &&& hashSha512 ≠ 0 then
    ({ s with mgmt := { s.mgmt with spdmAgreed := true } }).spdmSend fn 0x63 (toBytes 4 asymP521.toNat ++ toBytes 4 hashSha512.toNat)
  else s.spdmSend fn spdmError []

/-- The bytes of a digest. -/
def digestBytes (d : BitVec 512) : List Byte := toBytes 64 d.toNat

/-- GET_DIGESTS: of the identity certificate. -/
def execGetDigests (fn : Nat) (s : State) : Out :=
  s.keeping <| s.spdmSend fn 0x01 (digestBytes (Config.sha512 Config.certificate))

/-- GET_CERTIFICATE: a part of the identity certificate. -/
def execGetCertificate (fn off len : Nat) (s : State) : Out :=
  s.keeping <| s.spdmSend fn 0x02 ((Config.certificate.drop off).take len)

/-- CHALLENGE: the nonce signed with the identity key. -/
def execChallenge (fn : Nat) (nonce : BitVec 256) (s : State) : Out :=
  s.keeping <|
  s.spdmSend fn 0x03 (Config.identitySign (toBytes 32 nonce.toNat))

/-- The route masks, export ranges and window slots in force, as bytes. -/
def State.fabricBytes (s : State) : List Byte :=
  ((vlist s.routes).flatMap fun m => toBytes 4 m.toNat)
  ++ (s.exports.flatMap fun e => toBytes 1 e.1 ++ toBytes 1 e.2.1 ++ toBytes 8 e.2.2.1 ++ toBytes 8 e.2.2.2)
  ++ (vlist s.rwin).flatMap (fun w => toBytes 8 w.toNat) ++ (vlist s.rwrng).flatMap fun w => toBytes 8 w.toNat

/-- A measurement block; a device that is not Running has only the first. -/
def State.measurement (s : State) (index : Nat) : Option (List Byte) :=
  match index with
  | 1 => some (toBytes 4 Config.bootRomVersion.toNat)
  | 2 => if s.mgmt.boot = 3 then some (digestBytes (Config.sha512 (s.mgmt.verified.bytes 0 512 ++ imageBody s.mgmt.verified))) else none
  | 3 => if s.mgmt.boot = 3 then some (toBytes 4 Config.fusedSvn.toNat ++ digestBytes Config.fusedKeyDigest) else none
  | 4 => if s.mgmt.boot = 3 then some (digestBytes (Config.sha512 s.fabricBytes)) else none
  | _ => none

/-- GET_MEASUREMENTS: one block. -/
def execGetMeasurements (fn index : Nat) (s : State) : Out :=
  s.keeping <|
  match s.measurement index with
  | some bs => s.spdmSend fn 0x60 bs
  | none => s.spdmSend fn spdmError []

end Sys2Proof.Machine
end

