-- ==== Sys2Proof/Machine/ContextInstr.lean ====
section
/-!
DEFINITION. FEAT, IMPLQ, SRRD, SRWR, CLK, RESUME and KILL (R347 to R351), TRCMK and PERFRD (R388), and LNKQ (R375).
-/

namespace Sys2Proof.Machine

open Sys2Proof

/-! ## Instructions that read one value (R348, R350, R375, R388) -/

/-- One 64-bit value for every unit. -/
def Op.giveAll (c : Ctx) (h : Head) (v : W64) : Op Unit :=
  Op.modWarp c fun w => c.units.foldl (fun w t => putResult c h .w64 w t v) w

/-- FEAT (R348). -/
def execFeat (w : EWord) (s : State) : Out :=
  issueE encOfFeat w .straight (fun c k => Op.giveAll c k.h (BitVec.ofNat 64 c.prof)) s

/-- IMPLQ (R348): the value latched at the warp's last RGN. -/
def execImplq (w : EWord) (s : State) : Out :=
  issueE encOfImplq w .straight (fun c k => do
    let w ← Op.warp c
    Op.giveAll c k.h (vget w.implq k.imm.toNat 0)) s

/-- CLK (R350). -/
def execClk (w : EWord) (s : State) : Out :=
  issueE encOfClk w .straight (fun c k => do
    let s ← Op.state
    Op.giveAll c k.h (BitVec.ofNat 64 (if k.sub = 0 then (s.core c.core).cycles else s.timeNs))) s

/-- The lane of a core. -/
def Core.lane (c : Core) (l : Nat) : Lane := vget c.lanes l .reset

/-- The counter that PERFRD names (R388). -/
def perfValue (c : Ctx) (s : State) (w : Warp) (k : EWord) : Nat :=
  let i := k.imm.toNat
  match k.sub.toNat with
  | 0 => vget ((s.core c.core).lane c.lane).h (i % 8) 0
  | 1 => vget w.stalls (i % 16) 0
  | 2 => w.issued
  | _ => vget ((s.core c.core).lane (i / 256 % 32)).h (i % 8) 0

/-- PERFRD (R388). -/
def execPerfrd (w : EWord) (s : State) : Out :=
  issueE encOfPerfrd w .straight (fun c k => do
    let s ← Op.state
    let w ← Op.warp c
    Op.giveAll c k.h (BitVec.ofNat 64 (perfValue c s w k))) s

/-- Payload rate of a port in MB/s (R365, R375): 0 unless it is up or degraded. -/
def Port.rateMb (p : Port) : Nat := if p.open_ then 200000 * p.lanes / 8 / 2 ^ p.rate else 0

/-- The value of LNKQ (R375). -/
def Port.query (p : Port) (sub : Nat) : Nat :=
  match sub with
  | 0 =>
    p.peer % 64 * 2 ^ 26 + p.rate % 4 * 2 ^ 24 + p.lanes % 16 * 2 ^ 20 + p.st % 16 * 2 ^ 16
      + min 65535 ((vlist p.allow).foldl (· + ·) 0)
  | 1 => min p.crcFails (2 ^ 32 - 1) * 2 ^ 32 + min p.replays (2 ^ 32 - 1)
  | _ => p.rateMb

/-- LNKQ (R375). -/
def execLnkq (w : EWord) (s : State) : Out :=
  issueE encOfLnkq w .straight (fun c k => do
    let s ← Op.state
    Op.giveAll c k.h (BitVec.ofNat 64 ((s.port k.imm.toNat).query k.sub.toNat))) s

/-! ## SRRD and SRWR (R341, R349) -/

/-- The index of each unit, after the checks of R341. -/
def Op.sysIndexes (c : Ctx) (k : EWord) (bad : State → Nat → Option Cause) : Op (List (Tid × Nat)) :=
  Op.gather c fun t => do
    let w ← Op.warp c
    let s ← Op.state
    let i := sysIndex c w k t
    match bad s i with
    | some x => Op.trap x (c.maskAt t)
    | none => return i

/-- SRRD (R349): every value is read at one instant; SUB 1 then clears in FLAGS the bits it returned. -/
def execSrrd (w : EWord) (s : State) : Out :=
  issueE encOfSrrd w .straight (fun c k => do
    let n := sysNumber k
    let is ← Op.sysIndexes c k fun s i => s.srrdFault c n i k.sub.toNat
    if is.isEmpty then return ()
    let w ← Op.warp c
    let t ← Op.task c
    let s ← Op.state
    Op.modWarp c fun x =>
      let x := is.foldl (fun (x : Warp) (p : Tid × Nat) => putResult c k.h .w64 x p.1 (s.sysRead t w n p.2)) x
      if k.sub = 1 then { x with flags := x.flags &&& ~~~w.flags } else x
    if k.sub = 1 then Op.commit c (is.map (·.1))) s

/-- The write of one unit (R349): FLAGS is the warp's own, and clears by ones (R56). -/
def Op.srwrOne (c : Ctx) (n i : Nat) (v : W64) : Op Unit :=
  if n = 0x02 then Op.modWarp c fun w => { w with flags := w.flags &&& ~~~(v.setWidth 32) }
  else Op.modify fun s => s.sysStore c.ctx n i v

/-- TLBINV written (R194): every unit's record is read before a command is queued, and a full queue holds the warp. -/
def Op.tlbinv (c : Ctx) (v : Tid → W64) (ts : List Tid) : Op Unit := do
  let xs ← Op.gatherFrom (fun t => Op.invRead c t (v t).toNat) ts
  let s ← Op.state
  if invCap < s.invq.length + xs.length then
    Op.modWarp c fun w => { w with stall := some .tlbQueue }
    Op.holdHere
  Op.acquire c
  Op.modify fun s => xs.foldl (fun (s : State) (x : Tid × Nat) =>
    s.queueInvalidation (Invalidation.parse x.2 (some c.ctx) c.priv)) s

/-- The index of a unit. -/
def Op.sysIndexOf (c : Ctx) (k : EWord) (t : Tid) : Op Nat := do
  let w ← Op.warp c
  return sysIndex c w k t

/-- One unit's write. -/
def srwrAct (c : Ctx) (n : Nat) (v : Tid → W64) (t : Tid) (i : Nat) : Op Unit := do
  Op.srwrOne c n i (v t)
  Op.commit c [t]

/-- SRWR (R349): the participants write in increasing tid. -/
def execSrwr (w : EWord) (s : State) : Out :=
  issueE encOfSrwr w .straight (fun c k => do
    let n := sysNumber k
    let is ← Op.sysIndexes c k fun s i => s.srwrFault c n i
    if is.isEmpty then return ()
    let w ← Op.warp c
    let v (t : Tid) : W64 := read64 c w t k.h.a
    if n = 0x06 then
      Op.tlbinv c v (is.map (·.1))
      Op.commit c (is.map (·.1))
    else
      Op.each c (Op.sysIndexOf c k) (srwrAct c n v)) s

/-! ## RESUME and KILL (R351) -/

/-- RESUME and KILL of the units in turn: each does what its handle names, and its predicate says whether it did. -/
def handleRun (act : State → Nat → Bool × State) (c : Ctx) (k : EWord) : Op Unit := do
  let w ← Op.warp c
  Op.commit c c.parts
  Op.modify fun s => c.units.foldl (fun (s : State) (t : Tid) =>
    let r := act s (read64 c w t k.h.a).toNat
    r.2.modWarp c.task c.warp fun w => putPred c k.pi.toNat w t r.1) s

/-- RESUME (R351). -/
def execResume (w : EWord) (s : State) : Out :=
  issueE encOfResume w .straight (fun c => handleRun (fun s h => s.resumeHandle c.ctx h) c) s

/-- KILL (R351). -/
def execKill (w : EWord) (s : State) : Out :=
  issueE encOfKill w .straight (fun c => handleRun (fun s h => s.killHandle c.ctx h) c) s

/-! ## TRCMK (R384, R388) -/

/-- The bytes of a MARK frame. -/
def markBody (v imm : Nat) (who : Nat) (pc : Nat) : List Byte :=
  toBytes 8 v ++ toBytes 4 imm ++ [BitVec.ofNat 8 who, 0, 0, 0] ++ toBytes 8 pc

/-- TRCMK (R388). -/
def execTrcmk (w : EWord) (s : State) : Out :=
  issueE encOfTrcmk w .straight (fun c k => do
    let w ← Op.warp c
    Op.modify fun s => c.units.foldl (fun (s : State) (t : Tid) =>
      s.traceFrame c.task c.warp 6
        (markBody (read64 c w t k.h.a).toNat k.imm.toNat (if c.u then 0xFF else t.val) c.pc.toNat)) s) s

end Sys2Proof.Machine
end

