-- ==== Sys2Proof/Machine/KernelInstr.lean ====
section
/-!
DEFINITION. LAUNCH (R142), SPAWN, TRIG and TASKQ (R164 to R167).
-/

namespace Sys2Proof.Machine

open Sys2Proof

/-! ## LAUNCH (R142) -/

/-- A failure of an access made for a unit names it. -/
def Op.namingUnit {α : Type} (c : Ctx) (t : Tid) (f : Op α) : Op α :=
  f.onFail fun x => Op.trapHere { x with mask := c.maskAt t }

/-- The ring of a queue as LAUNCH finds it (R134, R137). -/
def Op.launchRing (m : Mover) (key va : Nat) : Op RingDesc := do
  match ← Op.readRing m .load key va with
  | some d => if d.slot = 64 ∧ 4 ≤ d.logcap ∧ d.logcap ≤ 16 then return d else Op.moveFail .ringMisuse va
  | none => Op.moveFail .ringMisuse va

/-- The entry put into the ring when it has room: its number (R142). -/
def Op.appendEntry (c : Ctx) (t : Tid) (q : Nat) (entry : List Byte) : Op (Option Nat) := do
  let s ← Op.state
  let m := s.agentMover c.asker c.ctx
  let d ← Op.launchRing m (c.key t 0) (s.queue q).qring.toNat
  let fill ← Op.sgValue m (c.key t 2) d.fill
  let rel ← Op.sgValue m (c.key t 3) d.rel
  if fill < rel + 2 ^ d.logcap then do
    Op.writeAs m .store 0 2 (c.key t 4) (d.slotOf fill) entry
    Op.modify fun s => s.modQueue q fun x => { x with appending := some (c.task, c.warp, true) }
    let n ← Op.sgAddAt m (c.key t 6) d.fill 1
    Op.modify fun s => s.modQueue q fun x => { x with appends := x.appends + 1 }
    return some n
  else return none

/-- A queue is taken for an append, or given back; what it has asked of its FILL is asked anew after it (R140). -/
def State.takeQueue (s : State) (q : Nat) (by_ : Option (Nat × Nat × Bool)) : State :=
  let old (who : Asker) (key : Nat) : Bool := who == .queue q && key == 21
  { s with
    outstanding := s.outstanding.map fun (o : Outstanding) => if old o.who o.key then { o with who := .post } else o,
    answers := s.answers.filter fun (a : Answer) => !old a.who a.key }.modQueue q fun x => { x with appending := by_ }

/-- A queue is appended to: only by LAUNCH, and while it serves (R142). -/
def Queue.takes (x : Queue) : Bool := x.dev && (x.st == .enabled || x.st == .running || x.st == .blocked)

/-- The append of one entry, one act at the distributor: the entry's number, or none when the queue does not take it (R142). An append
that has begun is finished as it began; another warp's waits for it. -/
def Op.append (c : Ctx) (t : Tid) (q : Nat) (entry : List Byte) : Op (Option Nat) := do
  let s ← Op.state
  let x := s.queue q
  let mine := x.appending.any fun y => y.1 == c.task && y.2.1 == c.warp
  if x.appending.isSome && !mine then
    Op.put (s.stallFor c.asker)
    Op.holdHere
  if mine || x.takes then do
    if !mine then Op.put (s.takeQueue q (some (c.task, c.warp, false)))
    let r ← Op.onFail (Op.appendEntry c t q entry) fun e => do
      Op.modify fun s => s.takeQueue q none
      Op.trapHere e
    Op.modify fun s => s.takeQueue q none
    return r
  else return none

/-- The entry that a unit appends (R137): LREC, ARGS and TAG. -/
def launchEntry (c : Ctx) (w : Warp) (k : EWord) (t : Tid) : List Byte :=
  fitBytes 64 (putNums [(8, (read64 c w t k.h.a).toNat), (8, (read64 c w t k.h.b).toNat), (4, (read32 c w t k.h.c).toNat)])

/-- The queue that LAUNCH names is of the warp's context (R142). -/
def Op.checkQueue (c : Ctx) (q : Nat) (t : Tid) : Op Unit := do
  let s ← Op.state
  if (s.queue q).ctx ≠ c.ctx then Op.trap .launchInvalid (c.maskAt t)

/-- The number that LAUNCH or SPAWN gives, and its success in PI; a failure writes neither D nor the latch. -/
def putNumber (c : Ctx) (k : EWord) (t : Tid) (r : Option Nat) (w : Warp) : Warp :=
  putPred c k.pi.toNat (match r with
    | some n => putResult c k.h .w64 w t (BitVec.ofNat 64 n)
    | none => w) t r.isSome

/-- One unit of LAUNCH: an append as a release. -/
def launchAct (c : Ctx) (k : EWord) (t : Tid) : Op Unit := do
  Op.release c (c.maskAt t)
  let w ← Op.warp c
  let r ← Op.namingUnit c t (Op.append c t k.imm.toNat (launchEntry c w k t))
  Op.commit c [t]
  Op.modWarp c (putNumber c k t r)

/-- LAUNCH (R142): a failed append leaves D and its latch as they are. -/
def execLaunch (w : EWord) (s : State) : Out :=
  issueE encOfLaunch w .straight (fun c k => Op.each c (Op.checkQueue c k.imm.toNat) fun t _ => launchAct c k t) s

/-! ## SPAWN (R161, R165) -/

/-- The record that a unit pushes, as its operands give it (R152). -/
def spawnRecord (c : Ctx) (w : Warp) (k : EWord) (t : Tid) : Cont :=
  let a := read128 c w t k.h.a
  let b := read128 c w t k.h.b
  { id := 0, w0 := a.1, w1 := a.2, w2 := b.1, w3 := b.2, kid := c.kid, index := 0, coord := none, counted := false, told := [], met := [], slot := 0 }

/-- The fields of a record break R165. -/
def Cont.misused (r : Cont) : Bool :=
  r.w0.extractLsb' 50 10 != 0 || r.w0.extractLsb' 62 2 != 0 || r.conds == 3 || (r.conds != 0 && r.join == 0)
    || (r.conds == 0 && r.w2 != 0) || (decide (r.conds ≤ 1) && r.w3 != 0)

/-- A check of an address without an access (R121). -/
def Op.probe (c : Ctx) (k : Access) (t : Tid) (va : Nat) : Op Unit := do
  let s ← Op.state
  match s.translate c.who k va 8 with
  | (.error e, s) => Op.stop (.trap { cause := e, mask := c.maskAt t, addr := va, cached := some (s.tlb, s.walks) })
  | (.ok _, s) => Op.put s

/-- The checks of a record (R165). -/
def Op.checkRecord (c : Ctx) (k : EWord) (t : Tid) : Op Cont := do
  let w ← Op.warp c
  let r := spawnRecord c w k t
  if r.misused then Op.trap .joinMisuse (c.maskAt t)
  if r.join ≠ 0 then Op.probe c .sgAdd t r.join.toNat
  if 1 ≤ r.conds then Op.probe c .sgRead t (r.condVa 1)
  if 2 ≤ r.conds then Op.probe c .sgRead t (r.condVa 2)
  return r

/-- The task that a unit spawns is counted (R161). -/
def spawnCounted (c : Ctx) (w : Warp) (task : Task) (k : Kernel) (t : Tid) : Bool :=
  task.counted && !k.trigDone && (c.threadsAt t).any fun i => !(w.thread i).triggered

/-- A record joins the continuation queue, with its kernel's handle and its task index, and is judged for the first time (R151, R153,
R158, R165). A Faulted kernel discards it, with its JOIN add (R147, R158). -/
def State.spawn (s : State) (ctx : Nat) (k : Kernel) (r : Cont) (counted : Bool) : Nat × State :=
  let index := (k.lr.points + k.spawns) % 2 ^ 32
  let r : Cont :=
    { r with id := s.nextId, w0 := r.w0 ||| BitVec.ofNat 64 (k.handle.getD 0 * 2 ^ 50), index := index, counted := counted }
  let s := { s with nextId := s.nextId + 1 }.modKernel k.id fun x => { x with spawns := x.spawns + 1 }
  if k.st = 8 then
    (index, s.modKernel k.id fun x => { x with joins := x.joins ++ [r.join].filter fun j => j != 0 })
  else
    let s := s.pushCont ctx r
    let s := s.modKernel k.id fun x =>
      { x with live := x.live + 1, counted := if counted then x.counted + 16 * (x.lr.warps + 1) else x.counted }
    (index, match Op.eligible ctx r s with
      | .ok (_, s) => s
      | .error _ => s)

/-- The push of one unit: its task index, or none when the queue is full. -/
def Op.push (c : Ctx) (t : Tid) (r : Cont) : Op (Option Nat) := do
  let s ← Op.state
  let w ← Op.warp c
  let task ← Op.task c
  match s.kernel? c.kid with
  | none => return none
  | some k =>
    if (s.ctx c.ctx).cqCap ≤ (s.ctx c.ctx).cq.length then return none
    else
      let x := s.spawn c.ctx k r (spawnCounted c w task k t)
      Op.put x.2
      return some x.1

/-- One unit of SPAWN: a push as a release. -/
def spawnAct (c : Ctx) (k : EWord) (t : Tid) (r : Cont) : Op Unit := do
  Op.release c (c.maskAt t)
  let x ← Op.push c t r
  Op.commit c [t]
  Op.modWarp c (putNumber c k t x)

/-- SPAWN (R165). -/
def execSpawn (w : EWord) (s : State) : Out :=
  issueE encOfSpawn w .straight (fun c k => Op.each c (Op.checkRecord c k) (spawnAct c k)) s

/-! ## TRIG and TASKQ (R166, R167) -/

/-- A unit may trigger: none of its threads has (R166). -/
def Op.checkTrigger (c : Ctx) (t : Tid) : Op Unit := do
  let w ← Op.warp c
  let twice := (c.threadsAt t).filter fun i => (w.thread i).triggered
  if !twice.isEmpty then Op.trap .triggerTwice (maskOf twice)

/-- One unit of TRIG: its threads have triggered, and a counted task's count falls by as many. The trigger add releases what they have
stored before (R161, R370). -/
def trigAct (c : Ctx) (t : Tid) : Op Unit := do
  Op.release c (c.maskAt t)
  let task ← Op.task c
  let ts := c.threadsAt t
  Op.modWarp c fun w => w.modThreads ts fun th => { th with triggered := true }
  Op.commit c [t]
  if task.counted then Op.modify (·.countDown c.kid ts.length)

/-- TRIG (R166). -/
def execTrig (w : EWord) (s : State) : Out :=
  issueE encOfTrig w .straight (fun c _ => Op.each c (Op.checkTrigger c) fun t _ => trigAct c t) s

/-- The value of TASKQ (R167). -/
def State.taskq (s : State) (c : Ctx) (sub : Nat) : Nat :=
  let x := s.ctx c.ctx
  match sub with
  | 0 => x.cq.length
  | 1 => x.cqCap - x.cq.length
  | n => match s.kernel? c.kid with
    | some k => if n = 2 then k.live else k.st
    | none => 0

/-- One unit of TASKQ. -/
def taskqAct (c : Ctx) (k : EWord) (t : Tid) : Op Unit := Op.modify fun s =>
  s.modWarp c.task c.warp fun w => putResult c k.h .w64 w t (BitVec.ofNat 64 (s.taskq c k.sub.toNat))

/-- TASKQ (R167). -/
def execTaskq (w : EWord) (s : State) : Out :=
  issueE encOfTaskq w .straight (fun c k => Op.each c (fun _ => pure ()) fun t _ => taskqAct c k t) s

end Sys2Proof.Machine
end

