-- ==== Sys2Proof/Machine/MemInstr.lean ====
section
/-!
DEFINITION. The memory instructions (R214 to R223), the fences (R235) and the atomics (R236 to R240).
-/

namespace Sys2Proof.Machine

open Sys2Proof

/-! ## Operands -/

/-- Bytes of an access of an M-format word. -/
def bytesOf (k : MWord) : Nat := sizeBytes k.size.toNat

/-- The effective addresses of the units (R215), with index B. -/
def indexed (c : Ctx) (w : Warp) (k : MWord) : List (Tid × Nat) :=
  c.units.map fun t => (t, effAddr c w t k.h.a k.h.b (bytesOf k) k.off)

/-- The effective addresses of the units of an instruction without an index. -/
def based (c : Ctx) (w : Warp) (k : MWord) : List (Tid × Nat) :=
  c.units.map fun t => (t, effAddr c w t k.h.a 0xC8 1 k.off)

/-- The value of a source selector as a number of the access's size. -/
def dataOf (c : Ctx) (w : Warp) (k : MWord) (t : Tid) (sel : Selector) : Nat :=
  match sizeWidth k.size.toNat with
  | .w128 => let p := read128 c w t sel; p.1.toNat + p.2.toNat * 2 ^ 64
  | wd => (readSel c w t wd sel).toNat % 2 ^ (8 * bytesOf k)

/-! ## LD (R216) -/

/-- A loaded number as LD delivers it: the sign-extending sizes give 32 bits. -/
def loadedValue (size v : Nat) : Nat :=
  if size = 8 then wrapTo 32 (signedOf 8 v) else if size = 9 then wrapTo 32 (signedOf 16 v) else v

/-- The result of LD for one unit. -/
def putLoaded (c : Ctx) (k : MWord) (w : Warp) (x : Tid × Nat) : Warp :=
  if k.size = 4 then putWide c k.h.d w x.1 (BitVec.ofNat 64 x.2) (BitVec.ofNat 64 (x.2 / 2 ^ 64))
  else putResult c k.h (sizeWidth k.size.toNat) w x.1 (BitVec.ofNat 64 (loadedValue k.size.toNat x.2))

/-- The number that one unit loads from its place. -/
def Op.loadOne (c : Ctx) (k : MWord) (t : Tid) (a : Aimed) : Op Nat := do
  Op.poisonCheck c (bytesOf k) [a]
  Op.loadAt c a (c.key t 0) (bytesOf k) k.hint.toNat

/-- The numbers that the units load, in increasing tid, from their places. -/
def Op.loadEach (c : Ctx) (k : MWord) (as : List Aimed) : Op (List (Tid × Nat)) :=
  Op.together (as.map fun a => (a.tid, a)) (Op.loadOne c k)

/-- The numbers that the units load from the debug space (R378). -/
def Op.debugEach (c : Ctx) (k : MWord) (as : List (Tid × Nat × DebugAt)) : Op (List (Tid × Nat)) :=
  Op.together as fun t a => Op.debugLoad c t a.2 a.1 (bytesOf k)

/-- What a load notes of the places it has read: for watchpoints, and for the region (R218, R380). -/
def Op.noteLoads (c : Ctx) (n : Nat) : List Aimed → Op Unit
  | [] => pure ()
  | a :: as => do
    Op.noteTouch c a false n
    Op.noteLoad c a.tid a.target.place
    Op.noteLoads c n as

/-- The effect of LD: all checks, all values, then the registers, and the acquire of ORD = 1; a load of the debug space is no acquire
(R378). -/
def loadRun (c : Ctx) (k : MWord) : Op Unit := do
  if c.parts.isEmpty then return ()
  let w ← Op.warp c
  let n := bytesOf k
  let vals ← if k.space = 3 then do
      let as ← Op.debugAim c n (k.size == 4) (indexed c w k)
      Op.debugEach c k as
    else do
      let as ← Op.aim c k.space.toNat .load n n (indexed c w k)
      let vs ← Op.loadEach c k as
      Op.noteLoads c n as
      pure vs
  Op.modWarp c fun w => vals.foldl (putLoaded c k) w
  if k.ord = 1 ∧ k.space ≠ 3 then Op.acquire c

/-- LD (R216). -/
def execLd (w : MWord) (s : State) : Out := issueM encOfLd w .straight loadRun s

/-! ## ST and STBM (R217, R219) -/

/-- What a store notes of its place: for watchpoints, and the commit of R218. -/
def Op.noteStored (c : Ctx) (a : Aimed) (n : Nat) : Op Unit := do
  Op.noteTouch c a true n
  Op.noteStore c a.tid a.target.place

/-- The stores of the units in increasing tid; `put` writes one. -/
def Op.storeEach (c : Ctx) (n : Nat) (put : Aimed → Op Unit) : List Aimed → Op Unit
  | [] => pure ()
  | a :: as => do
    Op.noteStored c a n
    put a
    Op.storeEach c n put as

/-- The stores of the units to the debug space. -/
def Op.debugStoreEach (c : Ctx) (n : Nat) (v : Tid → Nat) : List (Tid × Nat × DebugAt) → Op Unit
  | [] => pure ()
  | a :: as => do
    Op.noteStore c a.1 (.debug a.2.1)
    Op.debugStore c a.2.2 a.2.1 n (v a.1)
    Op.debugStoreEach c n v as

/-- The effect of ST; a store of the debug space is no release (R378). -/
def storeRun (c : Ctx) (k : MWord) : Op Unit := do
  if c.parts.isEmpty then return ()
  let w ← Op.warp c
  let n := bytesOf k
  let v (t : Tid) : Nat := dataOf c w k t k.h.c
  if k.space = 3 then
    let as ← Op.debugAim c n (k.size == 4) (indexed c w k)
    Op.debugStoreEach c n v as
  else
    let as ← Op.aim c k.space.toNat .store n n (indexed c w k)
    if k.ord = 2 then Op.release c (maskOf c.executing)
    Op.storeEach c n (fun a => Op.storeAt c a n k.hint.toNat (v a.tid)) as

/-- ST (R217). -/
def execSt (w : MWord) (s : State) : Out := issueM encOfSt w .straight storeRun s

/-- Bits of a number merged under a mask (R219). -/
def mergeBits (n m v old : Nat) : Nat := (old &&& (2 ^ (8 * n) - 1 - m)) ||| (v &&& m)

/-- The masked merge of one unit at the word's home (R219); a merge at a peer goes on its way like a store. -/
def Op.mergeAt (c : Ctx) (n m v : Nat) (a : Aimed) : Op Unit :=
  match a.target.place with
  | .remote p o => Op.modify fun s => s.postStore c.task c.warp c.ctx a.ea p (.stbm o n m v)
  | _ => do
    let _ ← Op.homeAt c a (c.key a.tid 0) n (fun pa => .stbm pa n m v) (mergeBits n m v) false

/-- The effect of STBM. -/
def mergeRun (c : Ctx) (k : MWord) : Op Unit := do
  if c.parts.isEmpty then return ()
  let w ← Op.warp c
  let n := bytesOf k
  if k.space = 3 then
    let _ ← Op.debugAim c n true (based c w k)
  else
    let as ← Op.aim c k.space.toNat .store n n (based c w k)
    if k.ord = 2 then Op.release c (maskOf c.executing)
    Op.storeEach c n (fun a => Op.mergeAt c n (dataOf c w k a.tid k.h.b) (dataOf c w k a.tid k.h.c) a) as

/-- STBM (R219). -/
def execStbm (w : MWord) (s : State) : Out := issueM encOfStbm w .straight mergeRun s

/-! ## PREF, CLEAN, INVAL and EVH (R220 to R222) -/

/-- The translation of an access that is dropped on any failure and leaves A as it is (R188, R191). -/
def State.tryLoad (s : State) (c : Ctx) (ea : Nat) : Option (Target × State) :=
  match s.translate c.who .load ea 1 with
  | (.error _, _) => none
  | (.ok t, s) => some ({ place := t.place, trans := some t }, s)

/-- PREF of one unit: its line is filled into its home slice, and with HINT 0 into L1 where R209 lets it. -/
def State.prefetch (s : State) (c : Ctx) (hint ea : Nat) : State :=
  match s.tryLoad c ea with
  | none => s
  | some (t, s) =>
    match t.place with
    | .phys pa =>
      let s := s.l2Access t.bits pa 1
      if hint == 0 && t.cacheable && !s.poisoned (lineOf pa) 128 then
        (s.allocate c.core pa (linePrio t.bits 0)).fillLine c.core pa
      else s
    | _ => s

/-- PREF (R220). -/
def execPref (w : MWord) (s : State) : Out :=
  issueM encOfPref w .straight (fun c k => do
    let w ← Op.warp c
    Op.modify fun s => (indexed c w k).foldl (fun (s : State) (x : Tid × Nat) => s.prefetch c k.hint.toNat x.2) s) s

/-- The effect of CLEAN and INVAL: translation and RD are checked, alignment is not (R215, R221). -/
def cleanRun (keep : Bool) (c : Ctx) (k : MWord) : Op Unit := do
  let w ← Op.warp c
  let as ← Op.aim c 0 .load (bytesOf k) 1 (indexed c w k)
  Op.modify fun s => as.foldl (fun (s : State) (a : Aimed) => match a.target.place with
    | .phys pa => s.cleanLine c.core pa keep
    | _ => s) s

/-- CLEAN (R221). -/
def execClean (w : MWord) (s : State) : Out := issueM encOfClean w .straight (cleanRun true) s

/-- INVAL (R221). -/
def execInval (w : MWord) (s : State) : Out := issueM encOfInval w .straight (cleanRun false) s

/-- EVH of one unit: the priority of the line in the core's L1, or in its home slice (R222). -/
def State.setPriority (s : State) (c : Ctx) (hint ea : Nat) : State :=
  match s.tryLoad c ea with
  | none => s
  | some (t, s) =>
    match t.place with
    | .phys pa =>
      if hint < 4 then
        s.modCore c.core fun x =>
          { x with l1 := x.l1.map fun (l : L1Line) => if l.pa = lineOf pa then { l with prio := hint } else l }
      else
        { s with l2 := s.l2.map fun (l : L2Line) => if l.pa = lineOf pa then { l with prio := hint % 4 } else l }
    | _ => s

/-- EVH (R222). -/
def execEvh (w : MWord) (s : State) : Out :=
  issueM encOfEvh w .straight (fun c k => do
    let w ← Op.warp c
    Op.modify fun s => (indexed c w k).foldl (fun (s : State) (x : Tid × Nat) => s.setPriority c k.hint.toNat x.2) s) s

/-! ## Fences (R235) -/

/-- The effect of a fence: it waits for the earlier accesses that are not complete, and self-invalidates (R235). -/
def fenceRun (rel acq : Bool) (c : Ctx) : Op Unit := do
  if c.parts.isEmpty then return ()
  if rel then Op.release c (maskOf c.executing)
  if acq then Op.acquire c

/-- FENCE (R235). -/
def execFence (w : EWord) (s : State) : Out :=
  issueE encOfFence w .straight (fun c k => fenceRun (k.sub != 1) (k.sub != 2) c) s

/-- XFENCE (R235). -/
def execXfence (w : EWord) (s : State) : Out := issueE encOfXfence w .straight (fun c _ => fenceRun true true c) s

/-! ## Atomics (R236 to R240) -/

/-- ORD of an atomic: a release, an acquire. -/
def isRelease (k : MWord) : Bool := k.ord == 2 || k.ord == 3
def isAcquire (k : MWord) : Bool := k.ord == 1 || k.ord == 3

/-- The checks of one unit of an atomic (R215, R237). -/
def Op.aimAtomic (c : Ctx) (kind : Access) (k : MWord) (t : Tid) : Op Aimed := do
  let w ← Op.warp c
  Op.aimOne c k.space.toNat kind (bytesOf k) (bytesOf k) t (effAddr c w t k.h.a 0xC8 1 k.off)

/-- One unit of an atomic at its home: the release before it, the operation, what it notes, and the acquire after it. -/
def Op.atomicAt (c : Ctx) (k : MWord) (t : Tid) (a : Aimed) (op : Nat → HomeOp) (f : Nat → Nat) : Op Nat := do
  if isRelease k then Op.release c (c.maskAt t)
  let old ← Op.homeAt c a (c.key t 0) (bytesOf k) op f true
  Op.noteTouch c a false (bytesOf k)
  Op.noteTouch c a true (bytesOf k)
  Op.commit c [t]
  if isAcquire k then Op.acquire c
  return old

/-- The old value written to D (R238). -/
def Op.putOld (c : Ctx) (k : MWord) (t : Tid) (old : Nat) : Op Unit :=
  Op.modWarp c fun w => putResult c k.h (sizeWidth k.size.toNat) w t (BitVec.ofNat 64 old)

/-- One unit of AMO: B is combined with the word, and D receives the old value (R238). -/
def amoAct (c : Ctx) (k : MWord) (t : Tid) (a : Aimed) : Op Unit := do
  let w ← Op.warp c
  let v := dataOf c w k t k.h.b
  let old ← Op.atomicAt c k t a (fun pa => .amo pa (bytesOf k) (opField k) v)
    fun old => amoOp (opField k) (8 * bytesOf k) old v
  Op.putOld c k t old

/-- AMO (R238). -/
def execAmo (w : MWord) (s : State) : Out :=
  issueM encOfAmo w .straight (fun c k => Op.each c (Op.aimAtomic c .rmw k) (amoAct c k)) s

/-- One unit of AMOCAS: C replaces the word that equals B, and D receives the old value (R238). -/
def casAct (c : Ctx) (k : MWord) (t : Tid) (a : Aimed) : Op Unit := do
  let w ← Op.warp c
  let cmp := dataOf c w k t k.h.b
  let new := dataOf c w k t k.h.c
  let old ← Op.atomicAt c k t a (fun pa => .cas pa (bytesOf k) cmp new)
    fun old => if old = cmp then new else old
  Op.putOld c k t old

/-- AMOCAS (R238). -/
def execAmocas (w : MWord) (s : State) : Out :=
  issueM encOfAmocas w .straight (fun c k => Op.each c (Op.aimAtomic c .rmw k) (casAct c k)) s

/-- A contribution folded with a later one of the same contributor to the same element (R238, R372). -/
def foldContribution : HomeOp → HomeOp → Option HomeOp
  | .contribution pa n o det v me nc, .contribution pa' n' o' det' v' me' nc' =>
    if pa = pa' ∧ n = n' ∧ o = o' ∧ det = det' ∧ me = me' ∧ nc = nc' then some (.contribution pa n o det (amoOp o (8 * n) v v') me nc)
    else none
  | _, _ => none

/-- A contribution folded into an earlier one of its element in the round, in program order (R372); the first of a round stands alone. -/
def foldPartial (x : Partial) : List Partial → List Partial
  | [] => [x]
  | y :: ys =>
    match if y.peer = x.peer then foldContribution y.op x.op else none with
    | some op => { y with op := op } :: ys
    | none => y :: foldPartial x ys

/-- A RED to a page with CL = 11: a contribution to the window slot that holds its address (R240, R371) stands, folded with those of its
element, at the egress port until its round is closed (R372). DESIGN CHOICE (log 120). -/
def Op.contribute (c : Ctx) (k : MWord) (t : Tid) (a : Aimed) (x : Trans) (v : Nat) : Op Unit := fun s =>
  match s.windowSlot x.pa with
  | some i =>
    let w := vget s.rwin i 0
    let peer := if isRemote x.pa then bitsOf x.pa 50 45 else windowPeer
    let pa := if isRemote x.pa then bitsOf x.pa 44 0 else x.pa
    let op : HomeOp := .contribution pa (bytesOf k) (opField k) (k.h.c.getLsbD 3) v (w.extractLsb' 55 6).toNat (w.extractLsb' 49 6).toNat
    match s.portOf peer with
    | some _ => .ok ((), { s with partials := foldPartial { peer := peer, op := op, ctx := c.ctx, va := a.ea } s.partials })
    | none => .error (.trapAt s (unreachable (c.maskAt t) a.ea 0))
  | none => .error (.trapAt s { cause := .reductionWindow, mask := c.maskAt t, addr := a.ea })

/-- One unit of RED: an atomic without a result, or a contribution to a reduction window (R238, R240). -/
def redAct (c : Ctx) (k : MWord) (t : Tid) (a : Aimed) : Op Unit := do
  let w ← Op.warp c
  let v := dataOf c w k t k.h.b
  match a.target.trans with
  | some x =>
    if entryCL x.bits = 3 then do
      if isRelease k then Op.release c (c.maskAt t)
      Op.contribute c k t a x v
      Op.noteTouch c a true (bytesOf k)
      Op.commit c [t]
    else do
      let _ ← Op.atomicAt c k t a (fun pa => .amo pa (bytesOf k) (opField k) v)
        fun old => amoOp (opField k) (8 * bytesOf k) old v
  | none => do
    let _ ← Op.atomicAt c k t a (fun pa => .amo pa (bytesOf k) (opField k) v)
      fun old => amoOp (opField k) (8 * bytesOf k) old v

/-- RED (R238, R240). -/
def execRed (w : MWord) (s : State) : Out :=
  issueM encOfRed w .straight (fun c k => Op.each c (Op.aimAtomic c .red k) (redAct c k)) s

end Sys2Proof.Machine
end

