-- ==== Sys2Proof/Machine/Dispatch.lean ====
section
/-! DEFINITION. The dispatch: one arm per constructor of `Instr`. -/

namespace Sys2Proof.Machine

open Sys2Proof

/-- The meaning of an instruction or step in a state. -/
def exec (i : Instr) (s : State) : Host.Outcome State Fault Refusal :=
  match i with
  | .nop w => Sys2Proof.Machine.execNop w s
  | .rgn w => Sys2Proof.Machine.execRgn w s
  | .exit w => Sys2Proof.Machine.execExit w s
  | .bra w => Sys2Proof.Machine.execBra w s
  | .brx w => Sys2Proof.Machine.execBrx w s
  | .call w => Sys2Proof.Machine.execCall w s
  | .callx w => Sys2Proof.Machine.execCallx w s
  | .ret w => Sys2Proof.Machine.execRet w s
  | .loop w => Sys2Proof.Machine.execLoop w s
  | .mcall w => Sys2Proof.Machine.execMcall w s
  | .ipf w => Sys2Proof.Machine.execIpf w s
  | .ifence w => Sys2Proof.Machine.execIfence w s
  | .trap w => Sys2Proof.Machine.execTrap w s
  | .bkpt w => Sys2Proof.Machine.execBkpt w s
  | .iadd w => Sys2Proof.Machine.execIadd w s
  | .isub w => Sys2Proof.Machine.execIsub w s
  | .imul w => Sys2Proof.Machine.execImul w s
  | .imulh w => Sys2Proof.Machine.execImulh w s
  | .imad w => Sys2Proof.Machine.execImad w s
  | .iabs w => Sys2Proof.Machine.execIabs w s
  | .ineg w => Sys2Proof.Machine.execIneg w s
  | .imin w => Sys2Proof.Machine.execImin w s
  | .imax w => Sys2Proof.Machine.execImax w s
  | .icmp w => Sys2Proof.Machine.execIcmp w s
  | .sel w => Sys2Proof.Machine.execSel w s
  | .mov w => Sys2Proof.Machine.execMov w s
  | .movi w => Sys2Proof.Machine.execMovi w s
  | .lea w => Sys2Proof.Machine.execLea w s
  | .addc w => Sys2Proof.Machine.execAddc w s
  | .and w => Sys2Proof.Machine.execAnd w s
  | .or w => Sys2Proof.Machine.execOr w s
  | .xor w => Sys2Proof.Machine.execXor w s
  | .andn w => Sys2Proof.Machine.execAndn w s
  | .shl w => Sys2Proof.Machine.execShl w s
  | .shr w => Sys2Proof.Machine.execShr w s
  | .sar w => Sys2Proof.Machine.execSar w s
  | .rot w => Sys2Proof.Machine.execRot w s
  | .bfx w => Sys2Proof.Machine.execBfx w s
  | .bfi w => Sys2Proof.Machine.execBfi w s
  | .popc w => Sys2Proof.Machine.execPopc w s
  | .clz w => Sys2Proof.Machine.execClz w s
  | .ctz w => Sys2Proof.Machine.execCtz w s
  | .brev w => Sys2Proof.Machine.execBrev w s
  | .perm w => Sys2Proof.Machine.execPerm w s
  | .fadd w => Sys2Proof.Machine.execFadd w s
  | .fsub w => Sys2Proof.Machine.execFsub w s
  | .fmul w => Sys2Proof.Machine.execFmul w s
  | .ffma w => Sys2Proof.Machine.execFfma w s
  | .fmin w => Sys2Proof.Machine.execFmin w s
  | .fmax w => Sys2Proof.Machine.execFmax w s
  | .fcmp w => Sys2Proof.Machine.execFcmp w s
  | .frcp w => Sys2Proof.Machine.execFrcp w s
  | .frsq w => Sys2Proof.Machine.execFrsq w s
  | .fsqrt w => Sys2Proof.Machine.execFsqrt w s
  | .fexp2 w => Sys2Proof.Machine.execFexp2 w s
  | .flog2 w => Sys2Proof.Machine.execFlog2 w s
  | .fsin w => Sys2Proof.Machine.execFsin w s
  | .fcos w => Sys2Proof.Machine.execFcos w s
  | .fclass w => Sys2Proof.Machine.execFclass w s
  | .frnd w => Sys2Proof.Machine.execFrnd w s
  | .cvt w => Sys2Proof.Machine.execCvt w s
  | .pack w => Sys2Proof.Machine.execPack w s
  | .unpk w => Sys2Proof.Machine.execUnpk w s
  | .qnt w => Sys2Proof.Machine.execQnt w s
  | .dqnt w => Sys2Proof.Machine.execDqnt w s
  | .seed w => Sys2Proof.Machine.execSeed w s
  | .shfl w => Sys2Proof.Machine.execShfl w s
  | .vote w => Sys2Proof.Machine.execVote w s
  | .wred w => Sys2Proof.Machine.execWred w s
  | .wscan w => Sys2Proof.Machine.execWscan w s
  | .plop w => Sys2Proof.Machine.execPlop w s
  | .pmov w => Sys2Proof.Machine.execPmov w s
  | .ld w => Sys2Proof.Machine.execLd w s
  | .st w => Sys2Proof.Machine.execSt w s
  | .stbm w => Sys2Proof.Machine.execStbm w s
  | .pref w => Sys2Proof.Machine.execPref w s
  | .clean w => Sys2Proof.Machine.execClean w s
  | .inval w => Sys2Proof.Machine.execInval w s
  | .evh w => Sys2Proof.Machine.execEvh w s
  | .fence w => Sys2Proof.Machine.execFence w s
  | .xfence w => Sys2Proof.Machine.execXfence w s
  | .amo w => Sys2Proof.Machine.execAmo w s
  | .amocas w => Sys2Proof.Machine.execAmocas w s
  | .red w => Sys2Proof.Machine.execRed w s
  | .sgadd w => Sys2Proof.Machine.execSgadd w s
  | .sgwait w => Sys2Proof.Machine.execSgwait w s
  | .sgtest w => Sys2Proof.Machine.execSgtest w s
  | .sgread w => Sys2Proof.Machine.execSgread w s
  | .sgset w => Sys2Proof.Machine.execSgset w s
  | .rgresv w => Sys2Proof.Machine.execRgresv w s
  | .rgpub w => Sys2Proof.Machine.execRgpub w s
  | .rgawait w => Sys2Proof.Machine.execRgawait w s
  | .rgrel w => Sys2Proof.Machine.execRgrel w s
  | .bjoin w => Sys2Proof.Machine.execBjoin w s
  | .bleave w => Sys2Proof.Machine.execBleave w s
  | .barrive w => Sys2Proof.Machine.execBarrive w s
  | .bwait w => Sys2Proof.Machine.execBwait w s
  | .ginfo w => Sys2Proof.Machine.execGinfo w s
  | .gbar w => Sys2Proof.Machine.execGbar w s
  | .wsync w => Sys2Proof.Machine.execWsync w s
  | .sloop w => Sys2Proof.Machine.execSloop w s
  | .yield w => Sys2Proof.Machine.execYield w s
  | .pdone w => Sys2Proof.Machine.execPdone w s
  | .cend w => Sys2Proof.Machine.execCend w s
  | .rsb w => Sys2Proof.Machine.execRsb w s
  | .rse w => Sys2Proof.Machine.execRse w s
  | .gpnum w => Sys2Proof.Machine.execGpnum w s
  | .gpwait w => Sys2Proof.Machine.execGpwait w s
  | .dfree w => Sys2Proof.Machine.execDfree w s
  | .wload w => Sys2Proof.Machine.execWload w s
  | .wfree w => Sys2Proof.Machine.execWfree w s
  | .mmaRegisters w => Sys2Proof.Machine.execMmaRegisters w s
  | .mmaTile w => Sys2Proof.Machine.execMmaTile w s
  | .mmaShapeRecord w => Sys2Proof.Machine.execMmaShapeRecord w s
  | .accrd w => Sys2Proof.Machine.execAccrd w s
  | .accwr w => Sys2Proof.Machine.execAccwr w s
  | .accz w => Sys2Proof.Machine.execAccz w s
  | .drain w => Sys2Proof.Machine.execDrain w s
  | .tdld w => Sys2Proof.Machine.execTdld w s
  | .tld w => Sys2Proof.Machine.execTld w s
  | .tst w => Sys2Proof.Machine.execTst w s
  | .ctld w => Sys2Proof.Machine.execCtld w s
  | .ctinv w => Sys2Proof.Machine.execCtinv w s
  | .bixrd w => Sys2Proof.Machine.execBixrd w s
  | .xform w => Sys2Proof.Machine.execXform w s
  | .poolq w => Sys2Proof.Machine.execPoolq w s
  | .cpy w => Sys2Proof.Machine.execCpy w s
  | .cpy2 w => Sys2Proof.Machine.execCpy2 w s
  | .cpyt w => Sys2Proof.Machine.execCpyt w s
  | .stadv w => Sys2Proof.Machine.execStadv w s
  | .gset w => Sys2Proof.Machine.execGset w s
  | .gclr w => Sys2Proof.Machine.execGclr w s
  | .launch w => Sys2Proof.Machine.execLaunch w s
  | .spawn w => Sys2Proof.Machine.execSpawn w s
  | .trig w => Sys2Proof.Machine.execTrig w s
  | .taskq w => Sys2Proof.Machine.execTaskq w s
  | .feat w => Sys2Proof.Machine.execFeat w s
  | .implq w => Sys2Proof.Machine.execImplq w s
  | .srrd w => Sys2Proof.Machine.execSrrd w s
  | .srwr w => Sys2Proof.Machine.execSrwr w s
  | .clk w => Sys2Proof.Machine.execClk w s
  | .resume w => Sys2Proof.Machine.execResume w s
  | .kill w => Sys2Proof.Machine.execKill w s
  | .trcmk w => Sys2Proof.Machine.execTrcmk w s
  | .perfrd w => Sys2Proof.Machine.execPerfrd w s
  | .lnkq w => Sys2Proof.Machine.execLnkq w s
  | .registerWrite r v => Sys2Proof.Machine.execRegisterWrite r v s
  | .queueEnable q => Sys2Proof.Machine.execQueueEnable q s
  | .queueDisable q => Sys2Proof.Machine.execQueueDisable q s
  | .queueSuspend q => Sys2Proof.Machine.execQueueSuspend q s
  | .queueResume q => Sys2Proof.Machine.execQueueResume q s
  | .queueSkip q => Sys2Proof.Machine.execQueueSkip q s
  | .queueRetry q => Sys2Proof.Machine.execQueueRetry q s
  | .queueDrain q => Sys2Proof.Machine.execQueueDrain q s
  | .copyEngineRetry core => Sys2Proof.Machine.execCopyEngineRetry core s
  | .copyEngineDrop core => Sys2Proof.Machine.execCopyEngineDrop core s
  | .xformEngineRetry core => Sys2Proof.Machine.execXformEngineRetry core s
  | .xformEngineDrop core => Sys2Proof.Machine.execXformEngineDrop core s
  | .tlbinvWrite ctx va => Sys2Proof.Machine.execTlbinvWrite ctx va s
  | .fringWrite ctx v => Sys2Proof.Machine.execFringWrite ctx v s
  | .dresResume w => Sys2Proof.Machine.execDresResume w s
  | .dresKill w => Sys2Proof.Machine.execDresKill w s
  | .traceEnable core v => Sys2Proof.Machine.execTraceEnable core v s
  | .bootgo a => Sys2Proof.Machine.execBootgo a s
  | .mccfgEnable v => Sys2Proof.Machine.execMccfgEnable v s
  | .mcfill v => Sys2Proof.Machine.execMcfill v s
  | .create c => Sys2Proof.Machine.execCreate c s
  | .assign c => Sys2Proof.Machine.execAssign c s
  | .negotiate c => Sys2Proof.Machine.execNegotiate c s
  | .start c => Sys2Proof.Machine.execStart c s
  | .preempt c => Sys2Proof.Machine.execPreempt c s
  | .save c => Sys2Proof.Machine.execSave c s
  | .restore c => Sys2Proof.Machine.execRestore c s
  | .migrateOut c => Sys2Proof.Machine.execMigrateOut c s
  | .migrateIn c => Sys2Proof.Machine.execMigrateIn c s
  | .teardown c => Sys2Proof.Machine.execTeardown c s
  | .srwrite c => Sys2Proof.Machine.execSrwrite c s
  | .srread c => Sys2Proof.Machine.execSrread c s
  | .warpresume c => Sys2Proof.Machine.execWarpresume c s
  | .warpkill c => Sys2Proof.Machine.execWarpkill c s
  | .portenable c => Sys2Proof.Machine.execPortenable c s
  | .portdisable c => Sys2Proof.Machine.execPortdisable c s
  | .route c => Sys2Proof.Machine.execRoute c s
  | .exportRange c => Sys2Proof.Machine.execExportRange c s
  | .window c => Sys2Proof.Machine.execWindow c s
  | .debugset c => Sys2Proof.Machine.execDebugset c s
  | .tlbinv c => Sys2Proof.Machine.execTlbinv c s
  | .checkpoint c => Sys2Proof.Machine.execCheckpoint c s
  | .getVersion fn => Sys2Proof.Machine.execGetVersion fn s
  | .getCapabilities fn => Sys2Proof.Machine.execGetCapabilities fn s
  | .negotiateAlgorithms fn asym hash => Sys2Proof.Machine.execNegotiateAlgorithms fn asym hash s
  | .getDigests fn => Sys2Proof.Machine.execGetDigests fn s
  | .getCertificate fn off len => Sys2Proof.Machine.execGetCertificate fn off len s
  | .challenge fn nonce => Sys2Proof.Machine.execChallenge fn nonce s
  | .getMeasurements fn index => Sys2Proof.Machine.execGetMeasurements fn index s
  | .powerControlTick draw temp => Sys2Proof.Machine.execPowerControlTick draw temp s
  | .thermalEmergency temp => Sys2Proof.Machine.execThermalEmergency temp s
  | .icacheFill core n => Sys2Proof.Machine.execIcacheFill core n s
  | .stallSwitch w => Sys2Proof.Machine.execStallSwitch w s
  | .warpQuantum w => Sys2Proof.Machine.execWarpQuantum w s
  | .stalagmiteAddApply pa amt => Sys2Proof.Machine.execStalagmiteAddApply pa amt s
  | .wakeDelivery w => Sys2Proof.Machine.execWakeDelivery w s
  | .waitRepresent w => Sys2Proof.Machine.execWaitRepresent w s
  | .sgWaitTimeout w => Sys2Proof.Machine.execSgWaitTimeout w s
  | .queueHeadRead q => Sys2Proof.Machine.execQueueHeadRead q s
  | .queueHeadSubmit q => Sys2Proof.Machine.execQueueHeadSubmit q s
  | .queuePriorityAge q => Sys2Proof.Machine.execQueuePriorityAge q s
  | .kernelStart k => Sys2Proof.Machine.execKernelStart k s
  | .kernelExpansion k => Sys2Proof.Machine.execKernelExpansion k s
  | .corePlacement core => Sys2Proof.Machine.execCorePlacement core s
  | .taskTimeout t => Sys2Proof.Machine.execTaskTimeout t s
  | .taskEnd t => Sys2Proof.Machine.execTaskEnd t s
  | .kernelComplete k => Sys2Proof.Machine.execKernelComplete k s
  | .gracePeriodStart ctx => Sys2Proof.Machine.execGracePeriodStart ctx s
  | .gracePeriodEnd ctx => Sys2Proof.Machine.execGracePeriodEnd ctx s
  | .deferredFreeDeliver ctx => Sys2Proof.Machine.execDeferredFreeDeliver ctx s
  | .planeLoadComplete w => Sys2Proof.Machine.execPlaneLoadComplete w s
  | .mmaPortEntry w => Sys2Proof.Machine.execMmaPortEntry w s
  | .matrixPass core => Sys2Proof.Machine.execMatrixPass core s
  | .passRetire core => Sys2Proof.Machine.execPassRetire core s
  | .drainPublish core => Sys2Proof.Machine.execDrainPublish core s
  | .matrixReset core => Sys2Proof.Machine.execMatrixReset core s
  | .copyCommandStart core => Sys2Proof.Machine.execCopyCommandStart core s
  | .copyCommandComplete core => Sys2Proof.Machine.execCopyCommandComplete core s
  | .ringCopyWrite core => Sys2Proof.Machine.execRingCopyWrite core s
  | .xformCommandStart cluster => Sys2Proof.Machine.execXformCommandStart cluster s
  | .xformCommandComplete cluster => Sys2Proof.Machine.execXformCommandComplete cluster s
  | .ownershipRecall core pa => Sys2Proof.Machine.execOwnershipRecall core pa s
  | .faultRecordPush ctx => Sys2Proof.Machine.execFaultRecordPush ctx s
  | .portTrained port lanes rate peer => Sys2Proof.Machine.execPortTrained port lanes rate peer s
  | .portTrainingTimeout port => Sys2Proof.Machine.execPortTrainingTimeout port s
  | .portRetrain port => Sys2Proof.Machine.execPortRetrain port s
  | .flitReceive port f crcOk => Sys2Proof.Machine.execFlitReceive port f crcOk s
  | .controlFlit port allow cls ack => Sys2Proof.Machine.execControlFlit port allow cls ack s
  | .remoteRequest port => Sys2Proof.Machine.execRemoteRequest port s
  | .remoteResponse port => Sys2Proof.Machine.execRemoteResponse port s
  | .reductionResult pa size op v => Sys2Proof.Machine.execReductionResult pa size op v s
  | .contextStateError ctx => Sys2Proof.Machine.execContextStateError ctx s
  | .preemptComplete ctx => Sys2Proof.Machine.execPreemptComplete ctx s
  | .saveComplete ctx => Sys2Proof.Machine.execSaveComplete ctx s
  | .migrationAnswer ctx cause => Sys2Proof.Machine.execMigrationAnswer ctx cause s
  | .teardownRelease ctx => Sys2Proof.Machine.execTeardownRelease ctx s
  | .unassignedOpcode w => Sys2Proof.Machine.execUnassignedOpcode w s
  | .passLeavesArray core => Sys2Proof.Machine.execPassLeavesArray core s
  | .cxlMemAccess write pa len v => Sys2Proof.Machine.execCxlMemAccess write pa len v s
  | .dbgctlFreeze => Sys2Proof.Machine.execDbgctlFreeze s
  | .dbgctlThaw => Sys2Proof.Machine.execDbgctlThaw s
  | .powerGood => Sys2Proof.Machine.execPowerGood s
  | .hostReset => Sys2Proof.Machine.execHostReset s
  | .imageVerify => Sys2Proof.Machine.execImageVerify s
  | .thermalTrip => Sys2Proof.Machine.execThermalTrip s
  | .invalidationComplete => Sys2Proof.Machine.execInvalidationComplete s
  | .checkpointComplete => Sys2Proof.Machine.execCheckpointComplete s
  | .profileCycle => Sys2Proof.Machine.execProfileCycle s

end Sys2Proof.Machine
end

