-- ==== Sys2Proof/Machine/Step.lean ====
section
/-!
DEFINITION. One step of the device: the instruction of whose turn it is, executed.
-/

namespace Sys2Proof.Machine

open Sys2Proof

/-- The outcome of a turn. -/
def Turned.outcome : Turned → Host.Outcome State Fault Refusal
  | .run i s => exec i s
  | .rest s => .next s

/-- ONE STEP of the device. -/
def step (s : State) : Host.Outcome State Fault Refusal :=
  match s.nextTurn with
  | (some (.issue core wid), s) => (s.coreTurn core wid).outcome
  | (some (.event i), s) => exec i { s with issuer := none }
  | (some .ring, s) => s.ringTurn.outcome
  | (none, s) => .next s

/-! ## An instruction placed for the next step -/

/-- Where `withFetchWord` places an instruction word: virtual and physical address. -/
def homePc : Nat := 0x10000

/-- A context that runs privileged code of any profile on cluster 0. -/
def Context.forFetch (c : Context) : Context := { c with st := 3, priv := true, prof := 3, parts := [(0, 0)] }

/-- A warp that stands at `homePc` in a discardable region. -/
def Warp.forFetch : Warp :=
  let w := Warp.fresh (BitVec.ofNat 64 homePc) 0 0 (vfill 64 0) 0
  { w.modThreads allTids (fun th => th.beginRegion (BitVec.ofNat 64 homePc) .none) with st := .running }

/-- The state with an instruction stored where the next step fetches. -/
def State.withFetchWord (s : State) (nbits w : Nat) : State :=
  if nbits ≤ 96 then
    let x := w % 2 ^ nbits
    let line : List Byte := toBytes 12 x ++ List.replicate 48 0 ++ toBytes 4 (makeLineWord [x, 0, 0, 0, 0] 1)
    let entry : TlbEntry :=
      { cluster := 0, quarter := some (0, 0), ctx := 0, va := homePc / 2 ^ 16, log := 16, pa := homePc, bits := 0x5D,
        epa := 0 }
    let id := s.nextId
    let task : Task :=
      { Task.fresh id 0 0 id (BitVec.ofNat 64 homePc) with core := some 0, regs := 128, warps := [.forFetch] }
    let kernel : Kernel :=
      { id := id, ctx := 0, queue := 0, lrec := 0, args := 0, tag := 0, lr := .zero, st := 4, handle := some 0, pushed := 1, curve := 0,
        spawns := 0, live := 1, counted := 0, trigDone := false, statusDone := false, line := [], placed := true, joins := [] }
    let s := { s with
      mgmt := { s.mgmt with boot := 3 }, mem := s.mem.setBytes homePc line, tlb := tlbPut s.tlb entry 64,
      tasks := task :: s.tasks.filter (fun (t : Task) => t.core != some 0), kernels := kernel :: s.kernels,
      agenda := [.issue 0 0], issuer := none, nextId := id + 1, frozen := false, debugSlot := none }
    let s := s.modCtx 0 .forFetch
    s.modCore 0 fun c => c.putILine { ctx := 0, va := homePc, pa := homePc, bytes := Memory.setBytes [] 0 line }
  else
    { s with
      mgmt := { s.mgmt with boot := 3, mcEn := true, mcLog := 4, mcBase := 0, mcFill := 1, mcDone := 0, busy := none },
      host := s.host.setN 0 64 (w % 2 ^ nbits), agenda := [.ring], issuer := none }

end Sys2Proof.Machine
end

