-- ==== Sys2Proof/Laws/Encoding.lean ====
section
/-!
SUPPORT. The encoder and the decoder agree, format by format: the opcode and every field of a word read back as they were
written (R23, R24).
-/

namespace Sys2Proof

theorem Encode.bit_lt (b : Bool) : Encode.bit b < 2 ^ 1 := by cases b <;> decide

/-- The bytes of a number read back as the number. -/
theorem ofBytes_toBytes (n v : Nat) : ofBytes (toBytes n v) = v % 256 ^ n := by
  induction n generalizing v with
  | zero => simp [toBytes, ofBytes, Nat.mod_one]
  | succ n ih =>
    simp only [toBytes, ofBytes, ih, BitVec.toNat_ofNat]
    rw [show (2 : Nat) ^ 8 = 256 from rfl, Nat.mod_mod, Nat.pow_succ', Nat.mod_mul]

@[simp] theorem length_toBytes (n v : Nat) : (toBytes n v).length = n := by
  induction n generalizing v with
  | zero => rfl
  | succ n ih => simp [toBytes, ih]

/-- Every value of a list of fields fits its width. -/
def Encode.fits (l : List (Nat × Nat)) : Prop := ∀ f ∈ l, f.2 < 2 ^ f.1

/-- The bits that a list of fields takes. -/
def Encode.width (l : List (Nat × Nat)) : Nat := (l.map (·.1)).sum

theorem Encode.pack_lt {l : List (Nat × Nat)} (h : Encode.fits l) : Encode.pack l < 2 ^ Encode.width l := by
  induction l with
  | nil => decide
  | cons f fs ih =>
    have hf : f.2 < 2 ^ f.1 := h f (by simp)
    have hs : Encode.pack fs + 1 ≤ 2 ^ Encode.width fs := ih fun g hg => h g (by simp [hg])
    have := Nat.mul_le_mul_left (2 ^ f.1) hs
    simp only [Encode.pack, Encode.width, List.map_cons, List.sum_cons, Nat.pow_add] at *
    rw [Nat.mul_add] at this
    omega

/-- Field number `i` of a packed number reads as it was written. -/
theorem Encode.pack_field {l : List (Nat × Nat)} (h : Encode.fits l) (i : Nat) {n v : Nat} (hi : l[i]? = some (n, v)) :
    Encode.pack l / 2 ^ Encode.width (l.take i) % 2 ^ n = v := by
  induction l generalizing i with
  | nil => simp at hi
  | cons f fs ih =>
    have hf : f.2 < 2 ^ f.1 := h f (by simp)
    cases i with
    | zero =>
      obtain rfl : f = (n, v) := by simpa using hi
      simp [Encode.width, Encode.pack, Nat.mod_eq_of_lt hf]
    | succ i =>
      have e : Encode.width ((f :: fs).take (i + 1)) = f.1 + Encode.width (fs.take i) := by simp [Encode.width]
      rw [e, Encode.pack, Nat.pow_add, ← Nat.div_div_eq_div_mul, Nat.add_mul_div_left _ _ (Nat.two_pow_pos _),
        Nat.div_eq_of_lt hf, Nat.zero_add]
      exact ih (fun g hg => h g (by simp [hg])) i (by simpa using hi)

theorem Encode.toNat_pack {l : List (Nat × Nat)} (h : Encode.fits l) (hw : Encode.width l = 96) :
    (BitVec.ofNat 96 (Encode.pack l)).toNat = Encode.pack l := by
  rw [BitVec.toNat_ofNat]
  exact Nat.mod_eq_of_lt (hw ▸ Encode.pack_lt h)

/-- A field of a packed word. -/
theorem Decode.field_pack {l : List (Nat × Nat)} (h : Encode.fits l) (i n v lo : Nat)
    (hi : l[i]? = some (n, v)) (hlo : Encode.width (l.take i) = lo) :
    Decode.field n (Encode.pack l) lo = BitVec.ofNat n v := by
  apply BitVec.eq_of_toNat_eq
  have hv : v < 2 ^ n := h _ (List.mem_of_getElem? hi)
  rw [Decode.field, BitVec.toNat_ofNat, BitVec.toNat_ofNat, ← hlo, Encode.pack_field h i hi, Nat.mod_eq_of_lt hv]

/-- A flag of a packed word. -/
theorem Decode.flag_pack {l : List (Nat × Nat)} (h : Encode.fits l) (i : Nat) (b : Bool) (lo : Nat)
    (hi : l[i]? = some (1, Encode.bit b)) (hlo : Encode.width (l.take i) = lo) :
    Decode.flag (Encode.pack l) lo = b := by
  have e := Encode.pack_field h i hi
  rw [hlo, Nat.pow_one] at e
  rw [Decode.flag, e]
  cases b <;> rfl

/-- The opcode of a packed word. -/
theorem Encode.pack_op {l : List (Nat × Nat)} (op : Nat) (h : Encode.fits ((10, op) :: l)) :
    Encode.pack ((10, op) :: l) % 2 ^ 10 = op := by
  simpa [Encode.width] using Encode.pack_field h 0 (n := 10) (v := op) rfl

theorem Encode.fits_nil : Encode.fits [] := fun _ h => absurd h List.not_mem_nil

theorem Encode.fits_cons {n v : Nat} {l : List (Nat × Nat)} (hv : v < 2 ^ n) (hl : Encode.fits l) :
    Encode.fits ((n, v) :: l) := fun f hf => (List.mem_cons.mp hf).elim (fun e => e ▸ hv) (hl f)

theorem Encode.head_fits {op : Nat} (ho : op < 2 ^ 10) (h : Head) {l : List (Nat × Nat)} (hl : Encode.fits l) :
    Encode.fits (Encode.head op h ++ l) := by
  simp only [Encode.head, List.cons_append, List.nil_append]
  exact fits_cons ho (fits_cons (bit_lt _) (fits_cons (bit_lt _) (fits_cons h.lt.isLt (fits_cons h.pr.isLt
    (fits_cons h.d.isLt (fits_cons h.a.isLt (fits_cons h.b.isLt (fits_cons h.c.isLt hl))))))))

/-- The common fields of a word read back. -/
theorem Decode.head_pack {op : Nat} {h : Head} {l : List (Nat × Nat)} (hl : Encode.fits (Encode.head op h ++ l)) :
    Decode.head (Encode.pack (Encode.head op h ++ l)) = h := by
  have e1 := Decode.flag_pack hl 1 h.u 10 rfl rfl
  have e2 := Decode.flag_pack hl 2 h.ws 11 rfl rfl
  have e3 := Decode.field_pack hl 3 2 h.lt.toNat 12 rfl rfl
  have e4 := Decode.field_pack hl 4 4 h.pr.toNat 14 rfl rfl
  have e5 := Decode.field_pack hl 5 8 h.d.toNat 18 rfl rfl
  have e6 := Decode.field_pack hl 6 8 h.a.toNat 26 rfl rfl
  have e7 := Decode.field_pack hl 7 8 h.b.toNat 34 rfl rfl
  have e8 := Decode.field_pack hl 8 8 h.c.toNat 42 rfl rfl
  simp only [Decode.head, e1, e2, e3, e4, e5, e6, e7, e8, BitVec.ofNat_toNat, BitVec.setWidth_eq]

theorem Encode.kFields_fits {op : Nat} (ho : op < 2 ^ 10) (w : KWord) : Encode.fits (Encode.kFields op w) :=
  Encode.head_fits ho w.h (Encode.fits_cons w.ty.isLt (Encode.fits_cons w.md.isLt (Encode.fits_cons w.imm.isLt
    Encode.fits_nil)))

theorem Encode.kWord_toNat {op : Nat} (ho : op < 2 ^ 10) (w : KWord) :
    (Encode.kWord op w).toNat = Encode.pack (Encode.kFields op w) :=
  Encode.toNat_pack (Encode.kFields_fits ho w) (by simp [Encode.width, Encode.kFields, Encode.head])

theorem Encode.kWord_op {op : Nat} (ho : op < 2 ^ 10) (w : KWord) : (Encode.kWord op w).toNat % 2 ^ 10 = op := by
  rw [Encode.kWord_toNat ho]
  exact Encode.pack_op op (Encode.kFields_fits ho w)

/-- The fields of a K-format word read back. -/
theorem Decode.kWord_encode {op : Nat} (ho : op < 2 ^ 10) (w : KWord) : Decode.kWord (Encode.kWord op w).toNat = w := by
  have hl := Encode.kFields_fits ho w
  have e0 := Decode.field_pack hl 9 8 w.ty.toNat 50 rfl (by simp [Encode.width, Encode.kFields, Encode.head])
  have e1 := Decode.field_pack hl 10 6 w.md.toNat 58 rfl (by simp [Encode.width, Encode.kFields, Encode.head])
  have e2 := Decode.field_pack hl 11 32 w.imm.toNat 64 rfl (by simp [Encode.width, Encode.kFields, Encode.head])
  have eh : Decode.head (Encode.pack (Encode.kFields op w)) = w.h := Decode.head_pack hl
  simp only [Encode.kWord_toNat ho, Decode.kWord, eh, e0, e1, e2, BitVec.ofNat_toNat,
    BitVec.setWidth_eq]

theorem Encode.jFields_fits {op : Nat} (ho : op < 2 ^ 10) (w : JWord) : Encode.fits (Encode.jFields op w) :=
  Encode.head_fits ho w.h (Encode.fits_cons w.md.isLt (Encode.fits_cons w.off.isLt Encode.fits_nil))

theorem Encode.jWord_toNat {op : Nat} (ho : op < 2 ^ 10) (w : JWord) :
    (Encode.jWord op w).toNat = Encode.pack (Encode.jFields op w) :=
  Encode.toNat_pack (Encode.jFields_fits ho w) (by simp [Encode.width, Encode.jFields, Encode.head])

theorem Encode.jWord_op {op : Nat} (ho : op < 2 ^ 10) (w : JWord) : (Encode.jWord op w).toNat % 2 ^ 10 = op := by
  rw [Encode.jWord_toNat ho]
  exact Encode.pack_op op (Encode.jFields_fits ho w)

/-- The fields of a J-format word read back. -/
theorem Decode.jWord_encode {op : Nat} (ho : op < 2 ^ 10) (w : JWord) : Decode.jWord (Encode.jWord op w).toNat = w := by
  have hl := Encode.jFields_fits ho w
  have e0 := Decode.field_pack hl 9 14 w.md.toNat 50 rfl (by simp [Encode.width, Encode.jFields, Encode.head])
  have e1 := Decode.field_pack hl 10 32 w.off.toNat 64 rfl (by simp [Encode.width, Encode.jFields, Encode.head])
  have eh : Decode.head (Encode.pack (Encode.jFields op w)) = w.h := Decode.head_pack hl
  simp only [Encode.jWord_toNat ho, Decode.jWord, eh, e0, e1, BitVec.ofNat_toNat,
    BitVec.setWidth_eq]

theorem Encode.mFields_fits {op : Nat} (ho : op < 2 ^ 10) (w : MWord) : Encode.fits (Encode.mFields op w) :=
  Encode.head_fits ho w.h (Encode.fits_cons w.space.isLt (Encode.fits_cons w.size.isLt (Encode.fits_cons
    w.ord.isLt (Encode.fits_cons w.hint.isLt (Encode.fits_cons w.z.isLt (Encode.fits_cons w.off.isLt
    Encode.fits_nil))))))

theorem Encode.mWord_toNat {op : Nat} (ho : op < 2 ^ 10) (w : MWord) :
    (Encode.mWord op w).toNat = Encode.pack (Encode.mFields op w) :=
  Encode.toNat_pack (Encode.mFields_fits ho w) (by simp [Encode.width, Encode.mFields, Encode.head])

theorem Encode.mWord_op {op : Nat} (ho : op < 2 ^ 10) (w : MWord) : (Encode.mWord op w).toNat % 2 ^ 10 = op := by
  rw [Encode.mWord_toNat ho]
  exact Encode.pack_op op (Encode.mFields_fits ho w)

/-- The fields of an M-format word read back. -/
theorem Decode.mWord_encode {op : Nat} (ho : op < 2 ^ 10) (w : MWord) : Decode.mWord (Encode.mWord op w).toNat = w := by
  have hl := Encode.mFields_fits ho w
  have e0 := Decode.field_pack hl 9 2 w.space.toNat 50 rfl (by simp [Encode.width, Encode.mFields, Encode.head])
  have e1 := Decode.field_pack hl 10 4 w.size.toNat 52 rfl (by simp [Encode.width, Encode.mFields, Encode.head])
  have e2 := Decode.field_pack hl 11 2 w.ord.toNat 56 rfl (by simp [Encode.width, Encode.mFields, Encode.head])
  have e3 := Decode.field_pack hl 12 3 w.hint.toNat 58 rfl (by simp [Encode.width, Encode.mFields, Encode.head])
  have e4 := Decode.field_pack hl 13 3 w.z.toNat 61 rfl (by simp [Encode.width, Encode.mFields, Encode.head])
  have e5 := Decode.field_pack hl 14 32 w.off.toNat 64 rfl (by simp [Encode.width, Encode.mFields, Encode.head])
  have eh : Decode.head (Encode.pack (Encode.mFields op w)) = w.h := Decode.head_pack hl
  simp only [Encode.mWord_toNat ho, Decode.mWord, eh, e0, e1, e2, e3, e4, e5, BitVec.ofNat_toNat,
    BitVec.setWidth_eq]

theorem Encode.tFields_fits {op : Nat} (ho : op < 2 ^ 10) (w : TWord) : Encode.fits (Encode.tFields op w) :=
  Encode.head_fits ho w.h (Encode.fits_cons w.plane.isLt (Encode.fits_cons w.tile.isLt (Encode.fits_cons
    w.md.isLt (Encode.fits_cons w.osrq.isLt (Encode.fits_cons w.td.isLt (Encode.fits_cons w.ct.isLt
    (Encode.fits_cons w.asrc.isLt (Encode.fits_cons w.atile.isLt (Encode.fits_cons w.z.isLt
    Encode.fits_nil)))))))))

theorem Encode.tWord_toNat {op : Nat} (ho : op < 2 ^ 10) (w : TWord) :
    (Encode.tWord op w).toNat = Encode.pack (Encode.tFields op w) :=
  Encode.toNat_pack (Encode.tFields_fits ho w) (by simp [Encode.width, Encode.tFields, Encode.head])

theorem Encode.tWord_op {op : Nat} (ho : op < 2 ^ 10) (w : TWord) : (Encode.tWord op w).toNat % 2 ^ 10 = op := by
  rw [Encode.tWord_toNat ho]
  exact Encode.pack_op op (Encode.tFields_fits ho w)

/-- The fields of a T-format word read back. -/
theorem Decode.tWord_encode {op : Nat} (ho : op < 2 ^ 10) (w : TWord) : Decode.tWord (Encode.tWord op w).toNat = w := by
  have hl := Encode.tFields_fits ho w
  have e0 := Decode.field_pack hl 9 2 w.plane.toNat 50 rfl (by simp [Encode.width, Encode.tFields, Encode.head])
  have e1 := Decode.field_pack hl 10 6 w.tile.toNat 52 rfl (by simp [Encode.width, Encode.tFields, Encode.head])
  have e2 := Decode.field_pack hl 11 6 w.md.toNat 58 rfl (by simp [Encode.width, Encode.tFields, Encode.head])
  have e3 := Decode.field_pack hl 12 4 w.osrq.toNat 64 rfl (by simp [Encode.width, Encode.tFields, Encode.head])
  have e4 := Decode.field_pack hl 13 4 w.td.toNat 68 rfl (by simp [Encode.width, Encode.tFields, Encode.head])
  have e5 := Decode.field_pack hl 14 4 w.ct.toNat 72 rfl (by simp [Encode.width, Encode.tFields, Encode.head])
  have e6 := Decode.field_pack hl 15 4 w.asrc.toNat 76 rfl (by simp [Encode.width, Encode.tFields, Encode.head])
  have e7 := Decode.field_pack hl 16 6 w.atile.toNat 80 rfl (by simp [Encode.width, Encode.tFields, Encode.head])
  have e8 := Decode.field_pack hl 17 10 w.z.toNat 86 rfl (by simp [Encode.width, Encode.tFields, Encode.head])
  have eh : Decode.head (Encode.pack (Encode.tFields op w)) = w.h := Decode.head_pack hl
  simp only [Encode.tWord_toNat ho, Decode.tWord, eh, e0, e1, e2, e3, e4, e5, e6, e7, e8, BitVec.ofNat_toNat,
    BitVec.setWidth_eq]

theorem Encode.eFields_fits {op : Nat} (ho : op < 2 ^ 10) (w : EWord) : Encode.fits (Encode.eFields op w) :=
  Encode.head_fits ho w.h (Encode.fits_cons w.pi.isLt (Encode.fits_cons w.sub.isLt (Encode.fits_cons
    w.sel.isLt (Encode.fits_cons w.z.isLt (Encode.fits_cons w.imm.isLt Encode.fits_nil)))))

theorem Encode.eWord_toNat {op : Nat} (ho : op < 2 ^ 10) (w : EWord) :
    (Encode.eWord op w).toNat = Encode.pack (Encode.eFields op w) :=
  Encode.toNat_pack (Encode.eFields_fits ho w) (by simp [Encode.width, Encode.eFields, Encode.head])

theorem Encode.eWord_op {op : Nat} (ho : op < 2 ^ 10) (w : EWord) : (Encode.eWord op w).toNat % 2 ^ 10 = op := by
  rw [Encode.eWord_toNat ho]
  exact Encode.pack_op op (Encode.eFields_fits ho w)

/-- The fields of an E-format word read back. -/
theorem Decode.eWord_encode {op : Nat} (ho : op < 2 ^ 10) (w : EWord) : Decode.eWord (Encode.eWord op w).toNat = w := by
  have hl := Encode.eFields_fits ho w
  have e0 := Decode.field_pack hl 9 3 w.pi.toNat 50 rfl (by simp [Encode.width, Encode.eFields, Encode.head])
  have e1 := Decode.field_pack hl 10 3 w.sub.toNat 53 rfl (by simp [Encode.width, Encode.eFields, Encode.head])
  have e2 := Decode.field_pack hl 11 6 w.sel.toNat 56 rfl (by simp [Encode.width, Encode.eFields, Encode.head])
  have e3 := Decode.field_pack hl 12 2 w.z.toNat 62 rfl (by simp [Encode.width, Encode.eFields, Encode.head])
  have e4 := Decode.field_pack hl 13 32 w.imm.toNat 64 rfl (by simp [Encode.width, Encode.eFields, Encode.head])
  have eh : Decode.head (Encode.pack (Encode.eFields op w)) = w.h := Decode.head_pack hl
  simp only [Encode.eWord_toNat ho, Decode.eWord, eh, e0, e1, e2, e3, e4, BitVec.ofNat_toNat,
    BitVec.setWidth_eq]

/-- ASRC of a T-format word reads back. -/
theorem Encode.tWord_asrc {op : Nat} (ho : op < 2 ^ 10) (w : TWord) :
    bitsOf (Encode.tWord op w).toNat 79 76 = w.asrc.toNat := by
  rw [Encode.tWord_toNat ho, bitsOf, Nat.shiftRight_eq_div_pow]
  have h := Encode.pack_field (Encode.tFields_fits ho w) 15 (n := 4) (v := w.asrc.toNat) rfl
  rwa [show Encode.width ((Encode.tFields op w).take 15) = 76 by simp [Encode.width, Encode.tFields, Encode.head]] at h

/-- ASRC values that name neither a tile nor a shape record are the register form. -/
theorem Decode.mma_registers {w : TWord} (h1 : w.asrc ≠ 1) (h2 : w.asrc ≠ 2) :
    Decode.mma w.asrc.toNat w = .mmaRegisters w := by
  have e1 : w.asrc.toNat ≠ 1 := fun h => h1 (BitVec.eq_of_toNat_eq h)
  have e2 : w.asrc.toNat ≠ 2 := fun h => h2 (BitVec.eq_of_toNat_eq h)
  unfold Decode.mma
  split <;> first | contradiction | rfl

/-- An opcode that R40 does not assign is the unassigned row. -/
theorem Decode.byOpcode_unassigned {op v : Nat} (h : opcodeAssigned op = false) :
    Decode.byOpcode op v = .unassignedOpcode (BitVec.ofNat 96 v) := by
  unfold Decode.byOpcode
  split <;> first | exact absurd h (by decide) | rfl

end Sys2Proof
end

