-- ==== Sys2Proof/Laws/PerInstr.lean ====
section
/-!
SUPPORT. The laws that every instruction obeys, one lemma per constructor. `Encoding`: the bytes of a well-formed instruction
decode to that instruction (R23, R24, R40, R389, R390).
-/

namespace Sys2Proof.Laws.Encoding

open Sys2Proof

/-- The bytes of a well-formed instruction decode to it. -/
def Statement (i : Instr) : Prop := i.wf = true → ∀ bs, encode i = some bs → decode bs = .ok i

theorem of_word {i : Instr} {x : InstrWord} (e : encodeWord i = some x) (d : Decode.wordNat x.toNat = i) : Statement i := by
  intro _ bs h
  obtain rfl : toBytes 12 x.toNat = bs := by simpa [encode, e] using h
  have hx : ofBytes (toBytes 12 x.toNat) = x.toNat := by
    rw [ofBytes_toBytes]
    exact Nat.mod_eq_of_lt x.isLt
  simp [decode, hx, d]

theorem of_command {i : Instr} {c : Command} (e : encodeWord i = none) (e' : encodeCommand i = some c)
    (d : i.wf = true → Decode.command c = some i) : Statement i := by
  intro hw bs h
  obtain rfl : toBytes 64 c.toNat = bs := by simpa [encode, e, e'] using h
  have hc : BitVec.ofNat 512 (ofBytes (toBytes 64 c.toNat)) = c := by
    have e8 : (256 : Nat) ^ 64 = 2 ^ 512 := (Nat.pow_mul 2 8 64).symm
    rw [ofBytes_toBytes, e8, Nat.mod_eq_of_lt c.isLt, BitVec.ofNat_toNat, BitVec.setWidth_eq]
  simp [decode, hc, d hw]

theorem of_none {i : Instr} (e : encodeWord i = none) (e' : encodeCommand i = none) : Statement i := by
  intro _ bs h
  simp [encode, e, e'] at h

/-- The command of an OPC byte. -/
theorem command_of {opc : Nat} {c : Command} {C : Command → Instr} (h : commandOk opc c = true)
    (hd : ∀ n, n = opc → Decode.commandOf n c = some (C c)) : Decode.command c = some (C c) :=
  hd _ (by simpa [commandOk] using h)

theorem of_kWord {op : Nat} (ho : op < 2 ^ 10) (C : KWord → Instr)
    (he : ∀ w, encodeWord (C w) = some (Encode.kWord op w)) (hd : ∀ v, Decode.byOpcode op v = C (Decode.kWord v))
    (w : KWord) : Statement (C w) :=
  of_word (he w) (by rw [Decode.wordNat, Encode.kWord_op ho, hd, Decode.kWord_encode ho])

theorem of_jWord {op : Nat} (ho : op < 2 ^ 10) (C : JWord → Instr)
    (he : ∀ w, encodeWord (C w) = some (Encode.jWord op w)) (hd : ∀ v, Decode.byOpcode op v = C (Decode.jWord v))
    (w : JWord) : Statement (C w) :=
  of_word (he w) (by rw [Decode.wordNat, Encode.jWord_op ho, hd, Decode.jWord_encode ho])

theorem of_mWord {op : Nat} (ho : op < 2 ^ 10) (C : MWord → Instr)
    (he : ∀ w, encodeWord (C w) = some (Encode.mWord op w)) (hd : ∀ v, Decode.byOpcode op v = C (Decode.mWord v))
    (w : MWord) : Statement (C w) :=
  of_word (he w) (by rw [Decode.wordNat, Encode.mWord_op ho, hd, Decode.mWord_encode ho])

theorem of_tWord {op : Nat} (ho : op < 2 ^ 10) (C : TWord → Instr)
    (he : ∀ w, encodeWord (C w) = some (Encode.tWord op w)) (hd : ∀ v, Decode.byOpcode op v = C (Decode.tWord v))
    (w : TWord) : Statement (C w) :=
  of_word (he w) (by rw [Decode.wordNat, Encode.tWord_op ho, hd, Decode.tWord_encode ho])

theorem of_eWord {op : Nat} (ho : op < 2 ^ 10) (C : EWord → Instr)
    (he : ∀ w, encodeWord (C w) = some (Encode.eWord op w)) (hd : ∀ v, Decode.byOpcode op v = C (Decode.eWord v))
    (w : EWord) : Statement (C w) :=
  of_word (he w) (by rw [Decode.wordNat, Encode.eWord_op ho, hd, Decode.eWord_encode ho])

/-- An MMA whose ASRC names its constructor. -/
theorem of_mma {w : TWord} {i : Instr} (he : encodeWord i = some (Encode.tWord 0x282 w))
    (hd : i.wf = true → Decode.mma w.asrc.toNat w = i) : Statement i := by
  intro hw
  refine of_word he ?_ hw
  rw [Decode.wordNat, Encode.tWord_op (by decide), ← hd hw]
  show Decode.mma (bitsOf (Encode.tWord 0x282 w).toNat 79 76) (Decode.tWord (Encode.tWord 0x282 w).toNat) = _
  rw [Encode.tWord_asrc (by decide), Decode.tWord_encode (by decide)]

theorem nop (w : KWord) : Statement (.nop w) :=
  of_kWord (op := 0x001) (by decide) .nop (fun _ => rfl) (fun _ => rfl) w

theorem rgn (w : EWord) : Statement (.rgn w) :=
  of_eWord (op := 0x002) (by decide) .rgn (fun _ => rfl) (fun _ => rfl) w

theorem exit (w : EWord) : Statement (.exit w) :=
  of_eWord (op := 0x003) (by decide) .exit (fun _ => rfl) (fun _ => rfl) w

theorem bra (w : JWord) : Statement (.bra w) :=
  of_jWord (op := 0x004) (by decide) .bra (fun _ => rfl) (fun _ => rfl) w

theorem brx (w : KWord) : Statement (.brx w) :=
  of_kWord (op := 0x005) (by decide) .brx (fun _ => rfl) (fun _ => rfl) w

theorem call (w : JWord) : Statement (.call w) :=
  of_jWord (op := 0x006) (by decide) .call (fun _ => rfl) (fun _ => rfl) w

theorem callx (w : KWord) : Statement (.callx w) :=
  of_kWord (op := 0x007) (by decide) .callx (fun _ => rfl) (fun _ => rfl) w

theorem ret (w : KWord) : Statement (.ret w) :=
  of_kWord (op := 0x008) (by decide) .ret (fun _ => rfl) (fun _ => rfl) w

theorem loop (w : JWord) : Statement (.loop w) :=
  of_jWord (op := 0x009) (by decide) .loop (fun _ => rfl) (fun _ => rfl) w

theorem mcall (w : EWord) : Statement (.mcall w) :=
  of_eWord (op := 0x00A) (by decide) .mcall (fun _ => rfl) (fun _ => rfl) w

theorem ipf (w : JWord) : Statement (.ipf w) :=
  of_jWord (op := 0x00B) (by decide) .ipf (fun _ => rfl) (fun _ => rfl) w

theorem ifence (w : EWord) : Statement (.ifence w) :=
  of_eWord (op := 0x00C) (by decide) .ifence (fun _ => rfl) (fun _ => rfl) w

theorem trap (w : EWord) : Statement (.trap w) :=
  of_eWord (op := 0x00D) (by decide) .trap (fun _ => rfl) (fun _ => rfl) w

theorem bkpt (w : EWord) : Statement (.bkpt w) :=
  of_eWord (op := 0x00E) (by decide) .bkpt (fun _ => rfl) (fun _ => rfl) w

theorem iadd (w : KWord) : Statement (.iadd w) :=
  of_kWord (op := 0x040) (by decide) .iadd (fun _ => rfl) (fun _ => rfl) w

theorem isub (w : KWord) : Statement (.isub w) :=
  of_kWord (op := 0x041) (by decide) .isub (fun _ => rfl) (fun _ => rfl) w

theorem imul (w : KWord) : Statement (.imul w) :=
  of_kWord (op := 0x042) (by decide) .imul (fun _ => rfl) (fun _ => rfl) w

theorem imulh (w : KWord) : Statement (.imulh w) :=
  of_kWord (op := 0x043) (by decide) .imulh (fun _ => rfl) (fun _ => rfl) w

theorem imad (w : KWord) : Statement (.imad w) :=
  of_kWord (op := 0x044) (by decide) .imad (fun _ => rfl) (fun _ => rfl) w

theorem iabs (w : KWord) : Statement (.iabs w) :=
  of_kWord (op := 0x045) (by decide) .iabs (fun _ => rfl) (fun _ => rfl) w

theorem ineg (w : KWord) : Statement (.ineg w) :=
  of_kWord (op := 0x046) (by decide) .ineg (fun _ => rfl) (fun _ => rfl) w

theorem imin (w : KWord) : Statement (.imin w) :=
  of_kWord (op := 0x047) (by decide) .imin (fun _ => rfl) (fun _ => rfl) w

theorem imax (w : KWord) : Statement (.imax w) :=
  of_kWord (op := 0x048) (by decide) .imax (fun _ => rfl) (fun _ => rfl) w

theorem icmp (w : KWord) : Statement (.icmp w) :=
  of_kWord (op := 0x049) (by decide) .icmp (fun _ => rfl) (fun _ => rfl) w

theorem sel (w : KWord) : Statement (.sel w) :=
  of_kWord (op := 0x04A) (by decide) .sel (fun _ => rfl) (fun _ => rfl) w

theorem mov (w : KWord) : Statement (.mov w) :=
  of_kWord (op := 0x04B) (by decide) .mov (fun _ => rfl) (fun _ => rfl) w

theorem movi (w : KWord) : Statement (.movi w) :=
  of_kWord (op := 0x04C) (by decide) .movi (fun _ => rfl) (fun _ => rfl) w

theorem lea (w : KWord) : Statement (.lea w) :=
  of_kWord (op := 0x04D) (by decide) .lea (fun _ => rfl) (fun _ => rfl) w

theorem addc (w : KWord) : Statement (.addc w) :=
  of_kWord (op := 0x04E) (by decide) .addc (fun _ => rfl) (fun _ => rfl) w

theorem and (w : KWord) : Statement (.and w) :=
  of_kWord (op := 0x080) (by decide) .and (fun _ => rfl) (fun _ => rfl) w

theorem or (w : KWord) : Statement (.or w) :=
  of_kWord (op := 0x081) (by decide) .or (fun _ => rfl) (fun _ => rfl) w

theorem xor (w : KWord) : Statement (.xor w) :=
  of_kWord (op := 0x082) (by decide) .xor (fun _ => rfl) (fun _ => rfl) w

theorem andn (w : KWord) : Statement (.andn w) :=
  of_kWord (op := 0x083) (by decide) .andn (fun _ => rfl) (fun _ => rfl) w

theorem shl (w : KWord) : Statement (.shl w) :=
  of_kWord (op := 0x084) (by decide) .shl (fun _ => rfl) (fun _ => rfl) w

theorem shr (w : KWord) : Statement (.shr w) :=
  of_kWord (op := 0x085) (by decide) .shr (fun _ => rfl) (fun _ => rfl) w

theorem sar (w : KWord) : Statement (.sar w) :=
  of_kWord (op := 0x086) (by decide) .sar (fun _ => rfl) (fun _ => rfl) w

theorem rot (w : KWord) : Statement (.rot w) :=
  of_kWord (op := 0x087) (by decide) .rot (fun _ => rfl) (fun _ => rfl) w

theorem bfx (w : KWord) : Statement (.bfx w) :=
  of_kWord (op := 0x088) (by decide) .bfx (fun _ => rfl) (fun _ => rfl) w

theorem bfi (w : KWord) : Statement (.bfi w) :=
  of_kWord (op := 0x089) (by decide) .bfi (fun _ => rfl) (fun _ => rfl) w

theorem popc (w : KWord) : Statement (.popc w) :=
  of_kWord (op := 0x08A) (by decide) .popc (fun _ => rfl) (fun _ => rfl) w

theorem clz (w : KWord) : Statement (.clz w) :=
  of_kWord (op := 0x08B) (by decide) .clz (fun _ => rfl) (fun _ => rfl) w

theorem ctz (w : KWord) : Statement (.ctz w) :=
  of_kWord (op := 0x08C) (by decide) .ctz (fun _ => rfl) (fun _ => rfl) w

theorem brev (w : KWord) : Statement (.brev w) :=
  of_kWord (op := 0x08D) (by decide) .brev (fun _ => rfl) (fun _ => rfl) w

theorem perm (w : KWord) : Statement (.perm w) :=
  of_kWord (op := 0x08E) (by decide) .perm (fun _ => rfl) (fun _ => rfl) w

theorem fadd (w : KWord) : Statement (.fadd w) :=
  of_kWord (op := 0x0C0) (by decide) .fadd (fun _ => rfl) (fun _ => rfl) w

theorem fsub (w : KWord) : Statement (.fsub w) :=
  of_kWord (op := 0x0C1) (by decide) .fsub (fun _ => rfl) (fun _ => rfl) w

theorem fmul (w : KWord) : Statement (.fmul w) :=
  of_kWord (op := 0x0C2) (by decide) .fmul (fun _ => rfl) (fun _ => rfl) w

theorem ffma (w : KWord) : Statement (.ffma w) :=
  of_kWord (op := 0x0C3) (by decide) .ffma (fun _ => rfl) (fun _ => rfl) w

theorem fmin (w : KWord) : Statement (.fmin w) :=
  of_kWord (op := 0x0C4) (by decide) .fmin (fun _ => rfl) (fun _ => rfl) w

theorem fmax (w : KWord) : Statement (.fmax w) :=
  of_kWord (op := 0x0C5) (by decide) .fmax (fun _ => rfl) (fun _ => rfl) w

theorem fcmp (w : KWord) : Statement (.fcmp w) :=
  of_kWord (op := 0x0C6) (by decide) .fcmp (fun _ => rfl) (fun _ => rfl) w

theorem frcp (w : KWord) : Statement (.frcp w) :=
  of_kWord (op := 0x0C7) (by decide) .frcp (fun _ => rfl) (fun _ => rfl) w

theorem frsq (w : KWord) : Statement (.frsq w) :=
  of_kWord (op := 0x0C8) (by decide) .frsq (fun _ => rfl) (fun _ => rfl) w

theorem fsqrt (w : KWord) : Statement (.fsqrt w) :=
  of_kWord (op := 0x0C9) (by decide) .fsqrt (fun _ => rfl) (fun _ => rfl) w

theorem fexp2 (w : KWord) : Statement (.fexp2 w) :=
  of_kWord (op := 0x0CA) (by decide) .fexp2 (fun _ => rfl) (fun _ => rfl) w

theorem flog2 (w : KWord) : Statement (.flog2 w) :=
  of_kWord (op := 0x0CB) (by decide) .flog2 (fun _ => rfl) (fun _ => rfl) w

theorem fsin (w : KWord) : Statement (.fsin w) :=
  of_kWord (op := 0x0CC) (by decide) .fsin (fun _ => rfl) (fun _ => rfl) w

theorem fcos (w : KWord) : Statement (.fcos w) :=
  of_kWord (op := 0x0CD) (by decide) .fcos (fun _ => rfl) (fun _ => rfl) w

theorem fclass (w : KWord) : Statement (.fclass w) :=
  of_kWord (op := 0x0CE) (by decide) .fclass (fun _ => rfl) (fun _ => rfl) w

theorem frnd (w : KWord) : Statement (.frnd w) :=
  of_kWord (op := 0x0CF) (by decide) .frnd (fun _ => rfl) (fun _ => rfl) w

theorem cvt (w : KWord) : Statement (.cvt w) :=
  of_kWord (op := 0x100) (by decide) .cvt (fun _ => rfl) (fun _ => rfl) w

theorem pack (w : KWord) : Statement (.pack w) :=
  of_kWord (op := 0x101) (by decide) .pack (fun _ => rfl) (fun _ => rfl) w

theorem unpk (w : KWord) : Statement (.unpk w) :=
  of_kWord (op := 0x102) (by decide) .unpk (fun _ => rfl) (fun _ => rfl) w

theorem qnt (w : KWord) : Statement (.qnt w) :=
  of_kWord (op := 0x103) (by decide) .qnt (fun _ => rfl) (fun _ => rfl) w

theorem dqnt (w : KWord) : Statement (.dqnt w) :=
  of_kWord (op := 0x104) (by decide) .dqnt (fun _ => rfl) (fun _ => rfl) w

theorem seed (w : KWord) : Statement (.seed w) :=
  of_kWord (op := 0x105) (by decide) .seed (fun _ => rfl) (fun _ => rfl) w

theorem shfl (w : KWord) : Statement (.shfl w) :=
  of_kWord (op := 0x110) (by decide) .shfl (fun _ => rfl) (fun _ => rfl) w

theorem vote (w : KWord) : Statement (.vote w) :=
  of_kWord (op := 0x111) (by decide) .vote (fun _ => rfl) (fun _ => rfl) w

theorem wred (w : KWord) : Statement (.wred w) :=
  of_kWord (op := 0x112) (by decide) .wred (fun _ => rfl) (fun _ => rfl) w

theorem wscan (w : KWord) : Statement (.wscan w) :=
  of_kWord (op := 0x113) (by decide) .wscan (fun _ => rfl) (fun _ => rfl) w

theorem plop (w : KWord) : Statement (.plop w) :=
  of_kWord (op := 0x140) (by decide) .plop (fun _ => rfl) (fun _ => rfl) w

theorem pmov (w : KWord) : Statement (.pmov w) :=
  of_kWord (op := 0x141) (by decide) .pmov (fun _ => rfl) (fun _ => rfl) w

theorem ld (w : MWord) : Statement (.ld w) :=
  of_mWord (op := 0x180) (by decide) .ld (fun _ => rfl) (fun _ => rfl) w

theorem st (w : MWord) : Statement (.st w) :=
  of_mWord (op := 0x181) (by decide) .st (fun _ => rfl) (fun _ => rfl) w

theorem stbm (w : MWord) : Statement (.stbm w) :=
  of_mWord (op := 0x182) (by decide) .stbm (fun _ => rfl) (fun _ => rfl) w

theorem pref (w : MWord) : Statement (.pref w) :=
  of_mWord (op := 0x183) (by decide) .pref (fun _ => rfl) (fun _ => rfl) w

theorem clean (w : MWord) : Statement (.clean w) :=
  of_mWord (op := 0x184) (by decide) .clean (fun _ => rfl) (fun _ => rfl) w

theorem inval (w : MWord) : Statement (.inval w) :=
  of_mWord (op := 0x185) (by decide) .inval (fun _ => rfl) (fun _ => rfl) w

theorem evh (w : MWord) : Statement (.evh w) :=
  of_mWord (op := 0x186) (by decide) .evh (fun _ => rfl) (fun _ => rfl) w

theorem fence (w : EWord) : Statement (.fence w) :=
  of_eWord (op := 0x1C0) (by decide) .fence (fun _ => rfl) (fun _ => rfl) w

theorem xfence (w : EWord) : Statement (.xfence w) :=
  of_eWord (op := 0x1C1) (by decide) .xfence (fun _ => rfl) (fun _ => rfl) w

theorem amo (w : MWord) : Statement (.amo w) :=
  of_mWord (op := 0x1C2) (by decide) .amo (fun _ => rfl) (fun _ => rfl) w

theorem amocas (w : MWord) : Statement (.amocas w) :=
  of_mWord (op := 0x1C3) (by decide) .amocas (fun _ => rfl) (fun _ => rfl) w

theorem red (w : MWord) : Statement (.red w) :=
  of_mWord (op := 0x1C4) (by decide) .red (fun _ => rfl) (fun _ => rfl) w

theorem sgadd (w : EWord) : Statement (.sgadd w) :=
  of_eWord (op := 0x200) (by decide) .sgadd (fun _ => rfl) (fun _ => rfl) w

theorem sgwait (w : EWord) : Statement (.sgwait w) :=
  of_eWord (op := 0x201) (by decide) .sgwait (fun _ => rfl) (fun _ => rfl) w

theorem sgtest (w : EWord) : Statement (.sgtest w) :=
  of_eWord (op := 0x202) (by decide) .sgtest (fun _ => rfl) (fun _ => rfl) w

theorem sgread (w : EWord) : Statement (.sgread w) :=
  of_eWord (op := 0x203) (by decide) .sgread (fun _ => rfl) (fun _ => rfl) w

theorem sgset (w : EWord) : Statement (.sgset w) :=
  of_eWord (op := 0x204) (by decide) .sgset (fun _ => rfl) (fun _ => rfl) w

theorem rgresv (w : EWord) : Statement (.rgresv w) :=
  of_eWord (op := 0x208) (by decide) .rgresv (fun _ => rfl) (fun _ => rfl) w

theorem rgpub (w : EWord) : Statement (.rgpub w) :=
  of_eWord (op := 0x209) (by decide) .rgpub (fun _ => rfl) (fun _ => rfl) w

theorem rgawait (w : EWord) : Statement (.rgawait w) :=
  of_eWord (op := 0x20A) (by decide) .rgawait (fun _ => rfl) (fun _ => rfl) w

theorem rgrel (w : EWord) : Statement (.rgrel w) :=
  of_eWord (op := 0x20B) (by decide) .rgrel (fun _ => rfl) (fun _ => rfl) w

theorem bjoin (w : EWord) : Statement (.bjoin w) :=
  of_eWord (op := 0x210) (by decide) .bjoin (fun _ => rfl) (fun _ => rfl) w

theorem bleave (w : EWord) : Statement (.bleave w) :=
  of_eWord (op := 0x211) (by decide) .bleave (fun _ => rfl) (fun _ => rfl) w

theorem barrive (w : EWord) : Statement (.barrive w) :=
  of_eWord (op := 0x212) (by decide) .barrive (fun _ => rfl) (fun _ => rfl) w

theorem bwait (w : EWord) : Statement (.bwait w) :=
  of_eWord (op := 0x213) (by decide) .bwait (fun _ => rfl) (fun _ => rfl) w

theorem ginfo (w : EWord) : Statement (.ginfo w) :=
  of_eWord (op := 0x218) (by decide) .ginfo (fun _ => rfl) (fun _ => rfl) w

theorem gbar (w : EWord) : Statement (.gbar w) :=
  of_eWord (op := 0x219) (by decide) .gbar (fun _ => rfl) (fun _ => rfl) w

theorem wsync (w : EWord) : Statement (.wsync w) :=
  of_eWord (op := 0x21A) (by decide) .wsync (fun _ => rfl) (fun _ => rfl) w

theorem sloop (w : EWord) : Statement (.sloop w) :=
  of_eWord (op := 0x240) (by decide) .sloop (fun _ => rfl) (fun _ => rfl) w

theorem yield (w : EWord) : Statement (.yield w) :=
  of_eWord (op := 0x241) (by decide) .yield (fun _ => rfl) (fun _ => rfl) w

theorem pdone (w : EWord) : Statement (.pdone w) :=
  of_eWord (op := 0x242) (by decide) .pdone (fun _ => rfl) (fun _ => rfl) w

theorem cend (w : EWord) : Statement (.cend w) :=
  of_eWord (op := 0x243) (by decide) .cend (fun _ => rfl) (fun _ => rfl) w

theorem rsb (w : EWord) : Statement (.rsb w) :=
  of_eWord (op := 0x248) (by decide) .rsb (fun _ => rfl) (fun _ => rfl) w

theorem rse (w : EWord) : Statement (.rse w) :=
  of_eWord (op := 0x249) (by decide) .rse (fun _ => rfl) (fun _ => rfl) w

theorem gpnum (w : EWord) : Statement (.gpnum w) :=
  of_eWord (op := 0x24A) (by decide) .gpnum (fun _ => rfl) (fun _ => rfl) w

theorem gpwait (w : EWord) : Statement (.gpwait w) :=
  of_eWord (op := 0x24B) (by decide) .gpwait (fun _ => rfl) (fun _ => rfl) w

theorem dfree (w : EWord) : Statement (.dfree w) :=
  of_eWord (op := 0x24C) (by decide) .dfree (fun _ => rfl) (fun _ => rfl) w

theorem wload (w : TWord) : Statement (.wload w) :=
  of_tWord (op := 0x280) (by decide) .wload (fun _ => rfl) (fun _ => rfl) w

theorem wfree (w : TWord) : Statement (.wfree w) :=
  of_tWord (op := 0x281) (by decide) .wfree (fun _ => rfl) (fun _ => rfl) w

theorem mmaRegisters (w : TWord) : Statement (.mmaRegisters w) := by
  refine of_mma rfl fun h => ?_
  simp only [Instr.wf, Bool.and_eq_true, bne_iff_ne] at h
  exact Decode.mma_registers h.1 h.2

theorem mmaTile (w : TWord) : Statement (.mmaTile w) := by
  refine of_mma rfl fun h => ?_
  simp only [Instr.wf, beq_iff_eq] at h
  rw [h]; rfl

theorem mmaShapeRecord (w : TWord) : Statement (.mmaShapeRecord w) := by
  refine of_mma rfl fun h => ?_
  simp only [Instr.wf, beq_iff_eq] at h
  rw [h]; rfl

theorem accrd (w : TWord) : Statement (.accrd w) :=
  of_tWord (op := 0x283) (by decide) .accrd (fun _ => rfl) (fun _ => rfl) w

theorem accwr (w : TWord) : Statement (.accwr w) :=
  of_tWord (op := 0x284) (by decide) .accwr (fun _ => rfl) (fun _ => rfl) w

theorem accz (w : TWord) : Statement (.accz w) :=
  of_tWord (op := 0x285) (by decide) .accz (fun _ => rfl) (fun _ => rfl) w

theorem drain (w : TWord) : Statement (.drain w) :=
  of_tWord (op := 0x286) (by decide) .drain (fun _ => rfl) (fun _ => rfl) w

theorem tdld (w : TWord) : Statement (.tdld w) :=
  of_tWord (op := 0x2C0) (by decide) .tdld (fun _ => rfl) (fun _ => rfl) w

theorem tld (w : TWord) : Statement (.tld w) :=
  of_tWord (op := 0x2C1) (by decide) .tld (fun _ => rfl) (fun _ => rfl) w

theorem tst (w : TWord) : Statement (.tst w) :=
  of_tWord (op := 0x2C2) (by decide) .tst (fun _ => rfl) (fun _ => rfl) w

theorem ctld (w : TWord) : Statement (.ctld w) :=
  of_tWord (op := 0x2C3) (by decide) .ctld (fun _ => rfl) (fun _ => rfl) w

theorem ctinv (w : TWord) : Statement (.ctinv w) :=
  of_tWord (op := 0x2C4) (by decide) .ctinv (fun _ => rfl) (fun _ => rfl) w

theorem bixrd (w : TWord) : Statement (.bixrd w) :=
  of_tWord (op := 0x2C5) (by decide) .bixrd (fun _ => rfl) (fun _ => rfl) w

theorem xform (w : EWord) : Statement (.xform w) :=
  of_eWord (op := 0x2C6) (by decide) .xform (fun _ => rfl) (fun _ => rfl) w

theorem poolq (w : EWord) : Statement (.poolq w) :=
  of_eWord (op := 0x2C7) (by decide) .poolq (fun _ => rfl) (fun _ => rfl) w

theorem cpy (w : EWord) : Statement (.cpy w) :=
  of_eWord (op := 0x300) (by decide) .cpy (fun _ => rfl) (fun _ => rfl) w

theorem cpy2 (w : EWord) : Statement (.cpy2 w) :=
  of_eWord (op := 0x301) (by decide) .cpy2 (fun _ => rfl) (fun _ => rfl) w

theorem cpyt (w : EWord) : Statement (.cpyt w) :=
  of_eWord (op := 0x302) (by decide) .cpyt (fun _ => rfl) (fun _ => rfl) w

theorem stadv (w : EWord) : Statement (.stadv w) :=
  of_eWord (op := 0x303) (by decide) .stadv (fun _ => rfl) (fun _ => rfl) w

theorem gset (w : EWord) : Statement (.gset w) :=
  of_eWord (op := 0x304) (by decide) .gset (fun _ => rfl) (fun _ => rfl) w

theorem gclr (w : EWord) : Statement (.gclr w) :=
  of_eWord (op := 0x305) (by decide) .gclr (fun _ => rfl) (fun _ => rfl) w

theorem launch (w : EWord) : Statement (.launch w) :=
  of_eWord (op := 0x340) (by decide) .launch (fun _ => rfl) (fun _ => rfl) w

theorem spawn (w : EWord) : Statement (.spawn w) :=
  of_eWord (op := 0x341) (by decide) .spawn (fun _ => rfl) (fun _ => rfl) w

theorem trig (w : EWord) : Statement (.trig w) :=
  of_eWord (op := 0x342) (by decide) .trig (fun _ => rfl) (fun _ => rfl) w

theorem taskq (w : EWord) : Statement (.taskq w) :=
  of_eWord (op := 0x343) (by decide) .taskq (fun _ => rfl) (fun _ => rfl) w

theorem feat (w : EWord) : Statement (.feat w) :=
  of_eWord (op := 0x380) (by decide) .feat (fun _ => rfl) (fun _ => rfl) w

theorem implq (w : EWord) : Statement (.implq w) :=
  of_eWord (op := 0x381) (by decide) .implq (fun _ => rfl) (fun _ => rfl) w

theorem srrd (w : EWord) : Statement (.srrd w) :=
  of_eWord (op := 0x382) (by decide) .srrd (fun _ => rfl) (fun _ => rfl) w

theorem srwr (w : EWord) : Statement (.srwr w) :=
  of_eWord (op := 0x383) (by decide) .srwr (fun _ => rfl) (fun _ => rfl) w

theorem clk (w : EWord) : Statement (.clk w) :=
  of_eWord (op := 0x384) (by decide) .clk (fun _ => rfl) (fun _ => rfl) w

theorem resume (w : EWord) : Statement (.resume w) :=
  of_eWord (op := 0x385) (by decide) .resume (fun _ => rfl) (fun _ => rfl) w

theorem kill (w : EWord) : Statement (.kill w) :=
  of_eWord (op := 0x386) (by decide) .kill (fun _ => rfl) (fun _ => rfl) w

theorem trcmk (w : EWord) : Statement (.trcmk w) :=
  of_eWord (op := 0x387) (by decide) .trcmk (fun _ => rfl) (fun _ => rfl) w

theorem perfrd (w : EWord) : Statement (.perfrd w) :=
  of_eWord (op := 0x388) (by decide) .perfrd (fun _ => rfl) (fun _ => rfl) w

theorem lnkq (w : EWord) : Statement (.lnkq w) :=
  of_eWord (op := 0x389) (by decide) .lnkq (fun _ => rfl) (fun _ => rfl) w

theorem registerWrite (r : RegTarget) (v : W64) : Statement (.registerWrite r v) := of_none rfl rfl

theorem queueEnable (q : Nat) : Statement (.queueEnable q) := of_none rfl rfl

theorem queueDisable (q : Nat) : Statement (.queueDisable q) := of_none rfl rfl

theorem queueSuspend (q : Nat) : Statement (.queueSuspend q) := of_none rfl rfl

theorem queueResume (q : Nat) : Statement (.queueResume q) := of_none rfl rfl

theorem queueSkip (q : Nat) : Statement (.queueSkip q) := of_none rfl rfl

theorem queueRetry (q : Nat) : Statement (.queueRetry q) := of_none rfl rfl

theorem queueDrain (q : Nat) : Statement (.queueDrain q) := of_none rfl rfl

theorem copyEngineRetry (core : Nat) : Statement (.copyEngineRetry core) := of_none rfl rfl

theorem copyEngineDrop (core : Nat) : Statement (.copyEngineDrop core) := of_none rfl rfl

theorem xformEngineRetry (core : Nat) : Statement (.xformEngineRetry core) := of_none rfl rfl

theorem xformEngineDrop (core : Nat) : Statement (.xformEngineDrop core) := of_none rfl rfl

theorem tlbinvWrite (ctx : Nat) (va : W64) : Statement (.tlbinvWrite ctx va) := of_none rfl rfl

theorem fringWrite (ctx : Nat) (v : W64) : Statement (.fringWrite ctx v) := of_none rfl rfl

theorem dresResume (w : WarpId) : Statement (.dresResume w) := of_none rfl rfl

theorem dresKill (w : WarpId) : Statement (.dresKill w) := of_none rfl rfl

theorem traceEnable (core : Nat) (v : W64) : Statement (.traceEnable core v) := of_none rfl rfl

theorem bootgo (a : W64) : Statement (.bootgo a) := of_none rfl rfl

theorem mccfgEnable (v : W64) : Statement (.mccfgEnable v) := of_none rfl rfl

theorem mcfill (v : W64) : Statement (.mcfill v) := of_none rfl rfl

theorem create (c : Command) : Statement (.create c) :=
  of_command rfl rfl fun h => command_of (C := .create) h fun _ e => e ▸ rfl

theorem assign (c : Command) : Statement (.assign c) :=
  of_command rfl rfl fun h => command_of (C := .assign) h fun _ e => e ▸ rfl

theorem negotiate (c : Command) : Statement (.negotiate c) :=
  of_command rfl rfl fun h => command_of (C := .negotiate) h fun _ e => e ▸ rfl

theorem start (c : Command) : Statement (.start c) :=
  of_command rfl rfl fun h => command_of (C := .start) h fun _ e => e ▸ rfl

theorem preempt (c : Command) : Statement (.preempt c) :=
  of_command rfl rfl fun h => command_of (C := .preempt) h fun _ e => e ▸ rfl

theorem save (c : Command) : Statement (.save c) :=
  of_command rfl rfl fun h => command_of (C := .save) h fun _ e => e ▸ rfl

theorem restore (c : Command) : Statement (.restore c) :=
  of_command rfl rfl fun h => command_of (C := .restore) h fun _ e => e ▸ rfl

theorem migrateOut (c : Command) : Statement (.migrateOut c) :=
  of_command rfl rfl fun h => command_of (C := .migrateOut) h fun _ e => e ▸ rfl

theorem migrateIn (c : Command) : Statement (.migrateIn c) :=
  of_command rfl rfl fun h => command_of (C := .migrateIn) h fun _ e => e ▸ rfl

theorem teardown (c : Command) : Statement (.teardown c) :=
  of_command rfl rfl fun h => command_of (C := .teardown) h fun _ e => e ▸ rfl

theorem srwrite (c : Command) : Statement (.srwrite c) :=
  of_command rfl rfl fun h => command_of (C := .srwrite) h fun _ e => e ▸ rfl

theorem srread (c : Command) : Statement (.srread c) :=
  of_command rfl rfl fun h => command_of (C := .srread) h fun _ e => e ▸ rfl

theorem warpresume (c : Command) : Statement (.warpresume c) :=
  of_command rfl rfl fun h => command_of (C := .warpresume) h fun _ e => e ▸ rfl

theorem warpkill (c : Command) : Statement (.warpkill c) :=
  of_command rfl rfl fun h => command_of (C := .warpkill) h fun _ e => e ▸ rfl

theorem portenable (c : Command) : Statement (.portenable c) :=
  of_command rfl rfl fun h => command_of (C := .portenable) h fun _ e => e ▸ rfl

theorem portdisable (c : Command) : Statement (.portdisable c) :=
  of_command rfl rfl fun h => command_of (C := .portdisable) h fun _ e => e ▸ rfl

theorem route (c : Command) : Statement (.route c) :=
  of_command rfl rfl fun h => command_of (C := .route) h fun _ e => e ▸ rfl

theorem exportRange (c : Command) : Statement (.exportRange c) :=
  of_command rfl rfl fun h => command_of (C := .exportRange) h fun _ e => e ▸ rfl

theorem window (c : Command) : Statement (.window c) :=
  of_command rfl rfl fun h => command_of (C := .window) h fun _ e => e ▸ rfl

theorem debugset (c : Command) : Statement (.debugset c) :=
  of_command rfl rfl fun h => command_of (C := .debugset) h fun _ e => e ▸ rfl

theorem tlbinv (c : Command) : Statement (.tlbinv c) :=
  of_command rfl rfl fun h => command_of (C := .tlbinv) h fun _ e => e ▸ rfl

theorem checkpoint (c : Command) : Statement (.checkpoint c) :=
  of_command rfl rfl fun h => command_of (C := .checkpoint) h fun _ e => e ▸ rfl

theorem getVersion (fn : Nat) : Statement (.getVersion fn) := of_none rfl rfl

theorem getCapabilities (fn : Nat) : Statement (.getCapabilities fn) := of_none rfl rfl

theorem negotiateAlgorithms (fn : Nat) (asym : W32) (hash : W32) : Statement (.negotiateAlgorithms fn asym hash) := of_none rfl rfl

theorem getDigests (fn : Nat) : Statement (.getDigests fn) := of_none rfl rfl

theorem getCertificate (fn : Nat) (off : Nat) (len : Nat) : Statement (.getCertificate fn off len) := of_none rfl rfl

theorem challenge (fn : Nat) (nonce : BitVec 256) : Statement (.challenge fn nonce) := of_none rfl rfl

theorem getMeasurements (fn : Nat) (index : Nat) : Statement (.getMeasurements fn index) := of_none rfl rfl

theorem powerControlTick (draw : Nat) (temp : Nat) : Statement (.powerControlTick draw temp) := of_none rfl rfl

theorem thermalEmergency (temp : Nat) : Statement (.thermalEmergency temp) := of_none rfl rfl

theorem icacheFill (core : Nat) (n : Nat) : Statement (.icacheFill core n) := of_none rfl rfl

theorem stallSwitch (w : WarpId) : Statement (.stallSwitch w) := of_none rfl rfl

theorem warpQuantum (w : WarpId) : Statement (.warpQuantum w) := of_none rfl rfl

theorem stalagmiteAddApply (pa : Nat) (amt : W64) : Statement (.stalagmiteAddApply pa amt) := of_none rfl rfl

theorem wakeDelivery (w : WarpId) : Statement (.wakeDelivery w) := of_none rfl rfl

theorem waitRepresent (w : WarpId) : Statement (.waitRepresent w) := of_none rfl rfl

theorem sgWaitTimeout (w : WarpId) : Statement (.sgWaitTimeout w) := of_none rfl rfl

theorem queueHeadRead (q : Nat) : Statement (.queueHeadRead q) := of_none rfl rfl

theorem queueHeadSubmit (q : Nat) : Statement (.queueHeadSubmit q) := of_none rfl rfl

theorem queuePriorityAge (q : Nat) : Statement (.queuePriorityAge q) := of_none rfl rfl

theorem kernelStart (k : Nat) : Statement (.kernelStart k) := of_none rfl rfl

theorem kernelExpansion (k : Nat) : Statement (.kernelExpansion k) := of_none rfl rfl

theorem corePlacement (core : Nat) : Statement (.corePlacement core) := of_none rfl rfl

theorem taskTimeout (t : Nat) : Statement (.taskTimeout t) := of_none rfl rfl

theorem taskEnd (t : Nat) : Statement (.taskEnd t) := of_none rfl rfl

theorem kernelComplete (k : Nat) : Statement (.kernelComplete k) := of_none rfl rfl

theorem gracePeriodStart (ctx : Nat) : Statement (.gracePeriodStart ctx) := of_none rfl rfl

theorem gracePeriodEnd (ctx : Nat) : Statement (.gracePeriodEnd ctx) := of_none rfl rfl

theorem deferredFreeDeliver (ctx : Nat) : Statement (.deferredFreeDeliver ctx) := of_none rfl rfl

theorem planeLoadComplete (w : WarpId) : Statement (.planeLoadComplete w) := of_none rfl rfl

theorem mmaPortEntry (w : WarpId) : Statement (.mmaPortEntry w) := of_none rfl rfl

theorem matrixPass (core : Nat) : Statement (.matrixPass core) := of_none rfl rfl

theorem passRetire (core : Nat) : Statement (.passRetire core) := of_none rfl rfl

theorem drainPublish (core : Nat) : Statement (.drainPublish core) := of_none rfl rfl

theorem matrixReset (core : Nat) : Statement (.matrixReset core) := of_none rfl rfl

theorem copyCommandStart (core : Nat) : Statement (.copyCommandStart core) := of_none rfl rfl

theorem copyCommandComplete (core : Nat) : Statement (.copyCommandComplete core) := of_none rfl rfl

theorem ringCopyWrite (core : Nat) : Statement (.ringCopyWrite core) := of_none rfl rfl

theorem xformCommandStart (cluster : Nat) : Statement (.xformCommandStart cluster) := of_none rfl rfl

theorem xformCommandComplete (cluster : Nat) : Statement (.xformCommandComplete cluster) := of_none rfl rfl

theorem ownershipRecall (core : Nat) (pa : Nat) : Statement (.ownershipRecall core pa) := of_none rfl rfl

theorem faultRecordPush (ctx : Nat) : Statement (.faultRecordPush ctx) := of_none rfl rfl

theorem portTrained (port : Nat) (lanes : Nat) (rate : Nat) (peer : Nat) : Statement (.portTrained port lanes rate peer) := of_none rfl rfl

theorem portTrainingTimeout (port : Nat) : Statement (.portTrainingTimeout port) := of_none rfl rfl

theorem portRetrain (port : Nat) : Statement (.portRetrain port) := of_none rfl rfl

theorem flitReceive (port : Nat) (f : Flit) (crcOk : Bool) : Statement (.flitReceive port f crcOk) := of_none rfl rfl

theorem controlFlit (port : Nat) (allow : Nat) (cls : Nat) (ack : Nat) : Statement (.controlFlit port allow cls ack) := of_none rfl rfl

theorem remoteRequest (port : Nat) : Statement (.remoteRequest port) := of_none rfl rfl

theorem remoteResponse (port : Nat) : Statement (.remoteResponse port) := of_none rfl rfl

theorem reductionResult (pa : Nat) (size : Nat) (op : Nat) (v : W64) : Statement (.reductionResult pa size op v) := of_none rfl rfl

theorem contextStateError (ctx : Nat) : Statement (.contextStateError ctx) := of_none rfl rfl

theorem preemptComplete (ctx : Nat) : Statement (.preemptComplete ctx) := of_none rfl rfl

theorem saveComplete (ctx : Nat) : Statement (.saveComplete ctx) := of_none rfl rfl

theorem migrationAnswer (ctx : Nat) (cause : Nat) : Statement (.migrationAnswer ctx cause) := of_none rfl rfl

theorem teardownRelease (ctx : Nat) : Statement (.teardownRelease ctx) := of_none rfl rfl

theorem unassignedOpcode (w : InstrWord) : Statement (.unassignedOpcode w) := by
  intro h
  refine of_word rfl ?_ h
  rw [Decode.wordNat, Decode.byOpcode_unassigned (by simpa [Instr.wf] using h), BitVec.ofNat_toNat, BitVec.setWidth_eq]

theorem passLeavesArray (core : Nat) : Statement (.passLeavesArray core) := of_none rfl rfl

theorem cxlMemAccess (write : Bool) (pa : Nat) (len : Nat) (v : W64) : Statement (.cxlMemAccess write pa len v) := of_none rfl rfl

theorem dbgctlFreeze : Statement .dbgctlFreeze := of_none rfl rfl

theorem dbgctlThaw : Statement .dbgctlThaw := of_none rfl rfl

theorem powerGood : Statement .powerGood := of_none rfl rfl

theorem hostReset : Statement .hostReset := of_none rfl rfl

theorem imageVerify : Statement .imageVerify := of_none rfl rfl

theorem thermalTrip : Statement .thermalTrip := of_none rfl rfl

theorem invalidationComplete : Statement .invalidationComplete := of_none rfl rfl

theorem checkpointComplete : Statement .checkpointComplete := of_none rfl rfl

theorem profileCycle : Statement .profileCycle := of_none rfl rfl

end Sys2Proof.Laws.Encoding
end

