-- ==== Sys2Proof/Safety.lean ====
section
/-!
DEFINITION. The terms that claims use: when a word of a warp is issued and nothing stops it, what its end leaves, and the invariant
of the management registers.
-/

namespace Sys2Proof.Machine

open Sys2Proof

/-! ## Words -/

/-- The common fields of a word without operands: PR 7 and every selector 0xC8 (R26, R29). -/
def plainHead : Head := { u := false, ws := false, lt := 0, pr := 7, d := 0xC8, a := 0xC8, b := 0xC8, c := 0xC8 }

/-- An operation runs to its end in a state, with an answer and a state after it. -/
def Runs {α : Type} (m : Op α) (s : State) (a : α) (t : State) : Prop := m s = .ok (a, t)

/-- The warp whose turn it is issues a word, and no check of R31, no latch (R80, R81) and no region rule (R77) stops it: `v` is what
the word finds. -/
structure Issues (x : Head → Enc) (h : Head) (imm : W32) (flow : Flow) (s : State) (v : View) : Prop where
  view : issueView x h imm s = some v
  clear : v.early flow s = none

/-- A K-format word is issued. -/
abbrev IssuesK (x : KWord → Enc) (w : KWord) (flow : Flow) (s : State) (v : View) : Prop :=
  Issues (fun h => x { w with h := h }) w.h w.imm flow s v

/-- An E-format word is issued. -/
abbrev IssuesE (x : EWord → Enc) (w : EWord) (flow : Flow) (s : State) (v : View) : Prop :=
  Issues (fun h => x { w with h := h }) w.h w.imm flow s v

/-- An M-format word is issued. -/
abbrev IssuesM (x : MWord → Enc) (w : MWord) (flow : Flow) (s : State) (v : View) : Prop :=
  Issues (fun h => x { w with h := h }) w.h 0 flow s v

/-- A J-format word is issued. -/
abbrev IssuesJ (x : JWord → Enc) (w : JWord) (flow : Flow) (s : State) (v : View) : Prop :=
  Issues (fun h => x { w with h := h }) w.h 0 flow s v

/-- A T-format word is issued. -/
abbrev IssuesT (x : TWord → Enc) (w : TWord) (flow : Flow) (s : State) (v : View) : Prop :=
  Issues (fun h => x { w with h := h }) w.h 0 flow s v

/-- A word after the substitution of macro parameters (R83). -/
def View.seenK (v : View) (w : KWord) : KWord := { w with h := v.h }
def View.seenE (v : View) (w : EWord) : EWord := { w with h := v.h }
def View.seenM (v : View) (w : MWord) : MWord := { w with h := v.h }
def View.seenJ (v : View) (w : JWord) : JWord := { w with h := v.h }
def View.seenT (v : View) (w : TWord) : TWord := { w with h := v.h }

/-- The state after an instruction whose effect leads from `s` to `t`: the counts of R77, the PC (R18), the debug causes of R380, and
the registers that no warp writes as they were. -/
def View.ended (v : View) (flow : Flow) (s t : State) : State := s.guarded (retire v.c flow v.w t)

/-- With no participant, a K-format word has no effect of its own: it only ends (R29, R69). -/
def PassesK (x : KWord → Enc) (flow : Flow) (i : KWord → Instr) : Prop :=
  ∀ (w : KWord) (s : State) (v : View), IssuesK x w flow s v → v.c.parts = [] → exec (i w) s = .next (v.ended flow s s)

/-- With no participant, an E-format word has no effect of its own: it only ends (R29, R69). -/
def PassesE (x : EWord → Enc) (flow : Flow) (i : EWord → Instr) : Prop :=
  ∀ (w : EWord) (s : State) (v : View), IssuesE x w flow s v → v.c.parts = [] → exec (i w) s = .next (v.ended flow s s)

/-- With no participant, an M-format word has no effect of its own: it only ends (R29, R69). -/
def PassesM (x : MWord → Enc) (flow : Flow) (i : MWord → Instr) : Prop :=
  ∀ (w : MWord) (s : State) (v : View), IssuesM x w flow s v → v.c.parts = [] → exec (i w) s = .next (v.ended flow s s)

/-- With no participant, a J-format word has no effect of its own: it only ends (R29, R69). -/
def PassesJ (x : JWord → Enc) (flow : Flow) (i : JWord → Instr) : Prop :=
  ∀ (w : JWord) (s : State) (v : View), IssuesJ x w flow s v → v.c.parts = [] → exec (i w) s = .next (v.ended flow s s)

/-- With no participant, a T-format word has no effect of its own: it only ends (R29, R69). -/
def PassesT (x : TWord → Enc) (flow : Flow) (i : TWord → Instr) : Prop :=
  ∀ (w : TWord) (s : State) (v : View), IssuesT x w flow s v → v.c.parts = [] → exec (i w) s = .next (v.ended flow s s)

/-- The effect of an instruction that changes only its own warp. -/
def View.onWarp (v : View) (s : State) (f : Warp → Warp) : State := s.modWarp v.c.task v.c.warp f

/-- The effect of an instruction that raises the flags of its results and writes them (R56, R98). -/
def View.results (v : View) (s : State) (wd : Width) (outs : List (Tid × AluOut)) : State :=
  v.onWarp (if raisedFlags outs = 0 then s else v.onWarp s fun w => w.orFlags (raisedFlags outs)) (applyAll v.c v.h wd outs)

/-- FP_TRAP of the flags that the results raise: FLAGS is written, and nothing else (R57). -/
def View.fpTrapped (v : View) (s : State) (outs : List (Tid × AluOut)) : State :=
  s.guarded ((v.onWarp s fun w => w.orFlags (raisedFlags outs)).takeFault v.c.task v.c.warp v.c.pc
    { cause := .fpTrap, mask := raisers v.c outs, extra := (raisedFlags outs).toNat })

/-- AN INSTRUCTION THAT COMPUTES from what its warp holds (R98): `f` gives each unit's result. It completes unless a flag that it
raises has its FPTE bit set, and then FP_TRAP is taken (R57). -/
def Computes (i : KWord → Instr) (x : KWord → Enc) (wd : KWord → Width) (f : Ctx → KWord → Warp → Tid → AluOut) : Prop :=
  ∀ (w : KWord) (s : State) (v : View), IssuesK x w .straight s v →
    (raisedFlags (v.c.units.map fun t => (t, f v.c (v.seenK w) v.w t)) &&& v.c.fpte = 0 →
      exec (i w) s = .next (v.ended .straight s
        (v.results s (wd (v.seenK w)) (v.c.units.map fun t => (t, f v.c (v.seenK w) v.w t))))) ∧
    (raisedFlags (v.c.units.map fun t => (t, f v.c (v.seenK w) v.w t)) &&& v.c.fpte ≠ 0 →
      exec (i w) s = .next (v.fpTrapped s (v.c.units.map fun t => (t, f v.c (v.seenK w) v.w t))))

/-- The result of an integer instruction: its exact value, saturated with .sat, and its low bits otherwise (R98, R101). -/
def intGives (f : IntTy → Int → Int → Int → Int) (c : Ctx) (k : KWord) (w : Warp) (t : Tid) : AluOut :=
  let ty := intTy k.tyN
  let v := f ty (intOperand c w t ty k.h.a) (intOperand c w t ty k.h.b) (intOperand c w t ty k.h.c)
  let r := if k.sat then ty.clamp v else (v, 0)
  { val := some (intResult ty r.1), flags := r.2 }

/-- The result of a bit instruction on the operands' bits, cut to the width of the type (R105). -/
def bitGives (f : Nat → Nat → Nat → Nat → Nat) (c : Ctx) (k : KWord) (w : Warp) (t : Tid) : AluOut :=
  let ty := intTy k.tyN
  let bitsAt (sel : Selector) := (operand c w t (tyWidth k.tyN) ty.signed sel).toNat
  { val := some (BitVec.ofNat 64 (f ty.w (bitsAt k.h.a) (bitsAt k.h.b) (bitsAt k.h.c) % 2 ^ ty.w)) }

/-- A count over the operand's bits (R105). -/
def countGives (f : Nat → Nat → Nat) (c : Ctx) (k : KWord) (w : Warp) (t : Tid) : AluOut :=
  { val := some (BitVec.ofNat 64 (f (intTy k.tyN).w (operand c w t (tyWidth k.tyN) false k.h.a).toNat)) }

/-- The result of a floating-point instruction element by element (R107). -/
def floatGives (f : KWord → Fmt → Mode → Nat → Nat → Nat → Nat → Nat × W32) (c : Ctx) (k : KWord) (w : Warp) (t : Tid) : AluOut :=
  let ty := elemTy k.tyN
  let mode := Mode.ofCode k.mode
  let us := drawsFor mode ty.n (w.thread t).seed
  let a := floatOperand c w t ty k.h.a
  let b := floatOperand c w t ty k.h.b
  let cc := floatOperand c w t ty k.h.c
  let rs := (List.range ty.n).map fun i => f k ty.f mode (a.getD i 0) (b.getD i 0) (cc.getD i 0) (us.1.getD i 0)
  { val := some (BitVec.ofNat 64 (joinElements ty.f.bits (rs.map (·.1)))), flags := rs.foldl (fun fl r => fl ||| r.2) 0,
    seed := us.2 }

/-- What a transfer of R88 leaves in its warp: the results, then next(PC) for the active set, then each transferring unit's target. -/
def View.moved (v : View) (hops : List Hop) (write : Warp → Hop → Warp) (w : Warp) : Warp :=
  hops.foldl (fun w h => w.modThreads (v.c.threadsAt h.tid) fun th => { th with pc := h.target })
    ((hops.foldl write w).modThreads v.c.active fun th => { th with pc := nextPc v.c.pc })

/-- A transfer completes with an outcome: when the checks of R21 pass for every target, and no committed region forbids it (R77). -/
def View.Transfers (v : View) (k : Aim) (hops : List Hop) (write : Warp → Hop → Warp) (s : State) (o : Out) : Prop :=
  ∀ (lines : List (Hop × Memory)) (s₁ : State) (w₁ : Warp), Runs (Op.checkHops v.c k hops) s lines s₁ →
    s₁.warp? v.c.task v.c.warp = some w₁ → hopsBad v.c w₁ (hops.foldl write w₁) lines = [] →
    o = .next (v.ended .transfer s (v.onWarp s₁ (v.moved hops write)))

/-- The fault of a word, taken at its PC; nothing else of the state changes but what taking it does (R79, R353). -/
def View.trapped (v : View) (s : State) (x : Trap) : State := s.guarded (s.takeFault v.c.task v.c.warp v.c.pc x)

/-- A word that waits where it stands, in a state and for a reason (R387). -/
def View.stalled (v : View) (s t : State) (why : Stall) : State := s.guarded (v.onWarp t fun x => { x with stall := some why })

/-- A thread-by-thread instruction runs for some units in turn (R129): each unit's check and act, after which it is in the done
mask. -/
def EachRuns {α : Type} (c : Ctx) (check : Tid → Op α) (act : Tid → α → Op Unit) : List Tid → State → State → Prop
  | [], s, t => t = s
  | i :: is, s, t => ∃ a s₁ s₂, Runs (check i) s a s₁ ∧ Runs (act i a) s₁ () s₂ ∧
      EachRuns c check act is (s₂.applied c s i) t

/-- A wait of the issuing warp is over (R123, R125): a wake has been delivered for exactly it, or every distinct stalagmite has reached
the largest target. -/
def Waited (c : Ctx) (sub : Nat) (xs : List WaitFor) (s t : State) : Prop :=
  ∃ w, s.warp? c.task c.warp = some w ∧
    if (w.wait.any fun y => y.woken && y.parts == partsOf c xs) then t = s else Runs (Op.unmet c sub (waitItems xs)) s [] t

/-! ## Registered words (R210) -/

/-- The words that cores have registered lie in a range, and each is Owned in the L1 that registered it. -/
def OnlyRegistered (s : State) (pa n : Nat) : Prop :=
  ∀ o ∈ s.owners, o.1 ∈ wordsOf pa n ∧ ∃ w, (s.core o.2).word? o.1 = some w ∧ w.owned = true

/-! ## The management registers (R397) -/

/-- The management registers hold legal values: a state of R392, levels of four bits, a cap within its bounds, measured values that fit
their fields, and a ring enabled only with a legal size. -/
structure Mgmt.Legal (m : Mgmt) : Prop where
  boot : m.boot ≤ 3
  err : m.err ≤ 4
  clkMax : m.clkMax ≤ 15
  clkLvl : m.clkLvl ≤ 15
  cap : 1000 ≤ m.pwrCap ∧ m.pwrCap ≤ 3000
  temp : m.temp < 65536
  draw : m.draw < 65536
  ring : m.mcEn = true → 4 ≤ m.mcLog ∧ m.mcLog ≤ 12

/-- Two states hold the same in the registers that only the management interface and reset write. -/
structure SameManagement (s t : State) : Prop where
  mgmt : t.mgmt = s.mgmt
  routes : t.routes = s.routes
  exports : t.exports = s.exports
  rwin : t.rwin = s.rwin
  rwrng : t.rwrng = s.rwrng

end Sys2Proof.Machine
end

