-- ==== Sys2Proof/Certificates/Slice0/Obligations.lean ====
section
/-!
DEFINITION. The statements for the provers: each names what it states and the rules of the spec it follows.
-/

open Sys2Proof Sys2Proof.Machine

/-! ## Encoding and decoding (R17, R23, R24, R40) -/

/-- The bytes of every well-formed instruction decode to that instruction, with every operand at every value (R23, R24, R40, R390). -/
def Obligations.EncodedInstructionDecodes : Prop := ∀ i : Instr, Laws.Encoding.Statement i

/-- Bytes that decode are the encoding of the well-formed instruction they decode to: every word and every command record has one
meaning, and no bit of it is dropped. -/
def Obligations.DecodedBytesEncode : Prop :=
  ∀ (bs : List Byte) (i : Instr), decode bs = .ok i → i.wf = true ∧ encode i = some bs

/-- Words that the spec writes out with their fields decode to those fields, and a slot whose opcode R40 does not assign, an
all-zero word included, is the one row that takes ILLEGAL_OPCODE (R41). -/
def Obligations.PrintedWordsDecode : Prop :=
  (-- amo.add.n32.acq g6, [g4+16], g8 (R238)
    decodeTableWord 96 0x0000_0010_0120_0020_1019_C1C2 = some (.amo
      { h := { plainHead with d := 0x06, a := 0x04, b := 0x08, c := 0x00 }, space := 0, size := 2, ord := 1, hint := 0, z := 0,
        off := 0x10 }) ∧
    -- amocas.n64.acqrel g10, [s4], g12, g14 (R238)
    decodeTableWord 96 0x0000_0000_0330_3832_1029_C1C3 = some (.amocas
      { h := { plainHead with d := 0x0A, a := 0x84, b := 0x0C, c := 0x0E }, space := 0, size := 3, ord := 3, hint := 0, z := 0,
        off := 0 }) ∧
    -- red.fadd.f32.det [g4], g8 (R238)
    decodeTableWord 96 0x0000_0000_0022_6020_1321_C1C4 = some (.red
      { h := { plainHead with d := 0xC8, a := 0x04, b := 0x08, c := 0x98 }, space := 0, size := 2, ord := 0, hint := 0, z := 0,
        off := 0 }) ∧
    -- ld.n32.acq g6, [s4] (R216)
    decodeTableWord 96 0x0000_0000_0123_2322_1019_C180 = some (.ld
      { h := { plainHead with d := 0x06, a := 0x84 }, space := 0, size := 2, ord := 1, hint := 0, z := 0, off := 0 })) ∧
  (∀ w : InstrWord, opcodeAssigned (w.toNat % 1024) = false → decodeWord w = .unassignedOpcode w)

/-! ## A step -/

/-- A STEP RUNS THE DECODED INSTRUCTION. The warp whose turn it is may issue, no pending fault is due, no pre-emption is under way
and its threads stand in regions: when the word at its PC is fetched, the step is that word's instruction executed for that warp, in
the state after the selection of the warp, the fetch, the end of a fetch stall and the trace of the issue, with the registers of
management as they were. -/
def Obligations.StepRunsDecodedWord : Prop :=
  ∀ (s u : State) (rest : List Turn) (core wid : Nat) (r : WarpRef) (t : Task) (w w' : Warp) (pc : W64) (x : InstrWord),
    let s₀ : State := { s with agenda := rest }
    let s₁ : State := if w.st = .ready then s₀.select core w.lane r w.slot else s₀
    s.agenda = .issue core wid :: rest →
    s₀.warpAt core wid = some r → s₀.task? r.task = some t → s₀.warp? r.task r.warp = some w →
    s₀.canIssue t core r.warp w = true → (s₁.ctx t.ctx).moving = false → s₁.warp? r.task r.warp = some w' →
    w'.pendingCause = none → w'.lowestPc = some pc → w'.unentered = [] → s₁.nextWord t core w' pc = (.word x, u) →
    step s = exec (decodeWord x) (s₀.guarded { (u.modWarp r.task r.warp .fetched).traceIssue core r w' pc with issuer := some r })

/-- A step whose turn is another agent's runs that step of the table, for no warp. One whose turn is the management ring's runs the
command that is next in the ring, or ends one of an unknown code with STATUS 2 (R389, R391). -/
def Obligations.StepRunsOtherTurns : Prop :=
  (∀ (s : State) (rest : List Turn) (i : Instr), s.agenda = .event i :: rest →
    step s = exec i { s with agenda := rest, issuer := none }) ∧
  (∀ (s : State) (rest : List Turn) (c : Command), s.agenda = .ring :: rest → s.ringCommand = some c →
    (∀ i, Decode.command c = some i → step s = exec i { s with agenda := rest, issuer := none }) ∧
    (Decode.command c = none → s.mgmt.boot = 3 →
      step s = .next ({ s with agenda := rest }.finishCommand (commandTag c) 2 0 0)))

/-- Words that no thread executes, since none passes the predicate or the uniform predicate fails, do nothing: they write no register,
no memory, no array and no engine, and take no fault of their own. What is left is their end (R29, R69). -/
def Obligations.WordsOfNoThreadDoNothing : Prop :=
  (PassesE encOfExit .boundary .exit ∧ PassesJ jumpEnc .straight .ipf ∧ PassesE encOfIfence .straight .ifence ∧
    PassesE encOfTrap .straight .trap ∧ PassesE encOfBkpt .straight .bkpt) ∧
  (PassesK encOfVote .straight .vote ∧ PassesK encOfWred .straight .wred ∧ PassesK encOfWscan .straight .wscan ∧
    PassesK encOfQnt .straight .qnt) ∧
  (PassesM encOfSt .straight .st ∧ PassesM encOfStbm .straight .stbm ∧ PassesE encOfFence .straight .fence ∧
    PassesE encOfXfence .straight .xfence) ∧
  (PassesE encOfGinfo .straight .ginfo ∧ PassesE encOfGpnum .straight .gpnum ∧ PassesE encOfGpwait .wait .gpwait) ∧
  (PassesT wloadEnc .straight .wload ∧ PassesT encOfWfree .straight .wfree ∧ PassesT mmaRegEnc .straight .mmaRegisters ∧
    PassesT mmaTileEnc .straight .mmaTile ∧ PassesT mmaShapeEnc .straight .mmaShapeRecord ∧ PassesT accrdEnc .straight .accrd ∧
    PassesT accwrEnc .straight .accwr ∧ PassesT encOfAccz .straight .accz ∧ PassesT drainEnc .straight .drain) ∧
  (PassesT encOfTdld .straight .tdld ∧ PassesT encOfCtld .straight .ctld ∧ PassesT encOfCtinv .straight .ctinv ∧
    PassesT tldEnc .straight .tld ∧ PassesT tstEnc .straight .tst ∧ PassesT encOfBixrd .straight .bixrd) ∧
  (PassesE encOfGset .straight .gset ∧ PassesE encOfGclr .straight .gclr ∧ PassesE encOfStadv .straight .stadv)

/-! ## Reset (R392, R397) -/

/-- After reset the device is in Reset with BOOTST.THERM clear, its clock and power cap at their highest, the command ring off, every
context slot free, every queue disabled and every Karst port off. -/
def Obligations.ResetValues : Prop :=
  State.reset.mgmt.boot = 0 ∧ State.reset.mgmt.therm = false ∧ State.reset.mgmt.clkMax = 15 ∧ State.reset.mgmt.pwrCap = 3000 ∧
  State.reset.mgmt.mcEn = false ∧ (∀ c, (State.reset.ctx c).st = 0) ∧ (∀ q, (State.reset.queue q).st = .disabled) ∧
  (∀ p, (State.reset.port p).st = 0) ∧ State.reset.mem.wf = true

/-! ## Memory -/

/-- Every write of memory keeps its canonical form, so that equal memories are equal data; a read of the bytes just written gives
them, lowest address first (R5), and every other byte reads as before. -/
def Obligations.MemoryReadsWhatWasWritten : Prop :=
  (∀ m : Memory, m.wf = true →
      (∀ a b, (m.set a b).wf = true) ∧ (∀ a bs, (m.setBytes a bs).wf = true) ∧ (∀ a n v, (m.setN a n v).wf = true)) ∧
  (∀ (m : Memory) (a n v : Nat), m.wf = true →
      (m.setN a n v).getN a n = v % 256 ^ n ∧ ∀ x, x < a ∨ a + n ≤ x → (m.setN a n v).get x = m.get x)

/-! ## The registers of management (R397) -/

/-- AN INVARIANT THAT EVERY STEP KEEPS: the management registers hold legal values. -/
def Obligations.ManagementStaysLegal : Prop := ∀ s t : State, s.mgmt.Legal → step s = .next t → t.mgmt.Legal

/-- The management registers hold legal values after reset. -/
def Obligations.ManagementLegalAtReset : Prop := State.reset.mgmt.Legal

/-- No instruction word, and no slot without an instruction, changes the management registers, the routes, the export ranges or the
reduction windows, whoever runs it: "Only the management interface writes them" (R371, and R368, R369, R390). -/
def Obligations.WordsKeepManagement : Prop :=
  ∀ (i : Instr) (s t : State), encodeWord i ≠ none → exec i s = .next t → SameManagement s t

/-! ## Instructions that compute (R96 to R119) -/

/-- Integer and bit instructions (R101 to R106): each unit's result is the exact value, saturated with .sat and cut to the type's width
otherwise, and the bit operations act on the operands' bits. -/
def Obligations.IntegerAndBitInstructionsComplete : Prop :=
  (Computes .iadd encOfIadd (fun k => tyWidth k.tyN) (intGives fun _ a b _ => a + b) ∧
    Computes .isub encOfIsub (fun k => tyWidth k.tyN) (intGives fun _ a b _ => a - b) ∧
    Computes .imul encOfImul (fun k => tyWidth k.tyN) (intGives fun _ a b _ => a * b) ∧
    Computes .imulh encOfImulh (fun k => tyWidth k.tyN) (intGives fun ty a b _ => a * b / (2 ^ ty.w : Nat)) ∧
    Computes .imad encOfImad (fun k => tyWidth k.tyN) (intGives fun _ a b c => a * b + c) ∧
    Computes .iabs encOfIabs (fun k => tyWidth k.tyN) (intGives fun _ a _ _ => (a.natAbs : Int)) ∧
    Computes .ineg encOfIneg (fun k => tyWidth k.tyN) (intGives fun _ a _ _ => -a) ∧
    Computes .imin encOfImin (fun k => tyWidth k.tyN) (intGives fun _ a b _ => min a b) ∧
    Computes .imax encOfImax (fun k => tyWidth k.tyN) (intGives fun _ a b _ => max a b) ∧
    Computes .mov encOfMov (fun k => tyWidth k.tyN) (intGives fun _ a _ _ => a)) ∧
  (Computes .and encOfAnd (fun k => tyWidth k.tyN) (bitGives fun _ a b _ => a &&& b) ∧
    Computes .or encOfOr (fun k => tyWidth k.tyN) (bitGives fun _ a b _ => a ||| b) ∧
    Computes .xor encOfXor (fun k => tyWidth k.tyN) (bitGives fun _ a b _ => a ^^^ b) ∧
    Computes .andn encOfAndn (fun k => tyWidth k.tyN) (bitGives fun n a b _ => a &&& (2 ^ n - 1 - b)) ∧
    Computes .shl encOfShl (fun k => tyWidth k.tyN) (bitGives fun n a b _ => a * 2 ^ (b % n)) ∧
    Computes .shr encOfShr (fun k => tyWidth k.tyN) (bitGives fun n a b _ => a / 2 ^ (b % n)) ∧
    Computes .sar encOfSar (fun k => tyWidth k.tyN) (bitGives fun n a b _ => wrapTo n (signedOf n a / (2 ^ (b % n) : Nat))) ∧
    Computes .rot encOfRot (fun k => tyWidth k.tyN) (bitGives fun n a b _ => a * 2 ^ (b % n) + a / 2 ^ (n - b % n)) ∧
    Computes .brev encOfBrev (fun k => tyWidth k.tyN)
      (bitGives fun n a _ _ => (List.range n).foldl (fun v i => 2 * v + (if bitAt a i then 1 else 0)) 0) ∧
    Computes .perm encOfPerm (fun k => tyWidth k.tyN) (bitGives permBytes) ∧
    Computes .popc countEnc (fun _ => .w32) (countGives fun n a => ((List.range n).filter fun i => bitAt a i).length) ∧
    Computes .clz countEnc (fun _ => .w32) (countGives fun n a => if a = 0 then n else n - 1 - Nat.log2 a) ∧
    Computes .ctz countEnc (fun _ => .w32) (countGives fun n a => ((List.range n).find? fun i => bitAt a i).getD n) ∧
    Computes .bfx encOfBfx (fun k => tyWidth k.tyN) (fun c k w t =>
      let ty := intTy k.tyN
      let f := fieldOf ty.w (read32 c w t k.h.b).toNat
      let v := (operand c w t (tyWidth k.tyN) ty.signed k.h.a).toNat / 2 ^ f.1 % 2 ^ f.2
      { val := some (intResult ty (if ty.signed && f.2 != 0 then signedOf f.2 v else v)) }) ∧
    Computes .bfi encOfBfi (fun k => tyWidth k.tyN) (fun c k w t =>
      let a := (operand c w t (tyWidth k.tyN) false k.h.a).toNat
      let b := (operand c w t (tyWidth k.tyN) false k.h.b).toNat
      let f := fieldOf (intTy k.tyN).w (read32 c w t k.h.c).toNat
      { val := some (BitVec.ofNat 64 (a - a / 2 ^ f.1 % 2 ^ f.2 * 2 ^ f.1 + b % 2 ^ f.2 * 2 ^ f.1)) }))

/-- ICMP, SEL, ADDC, MOVI, LEA, PLOP, PMOV and SEED: the comparison and its predicate, the choice by a predicate, the sum with its carry
in and out (R102), the immediate forms (R103), the address A + (B << MOD[63:62]) + IMM32 (R104), the truth table (R93), the moves of
predicates (R94) and the stochastic state (R119). -/
def Obligations.SelectAndMoveInstructionsComplete : Prop :=
  Computes .icmp encOfIcmp (fun _ => .w32) (fun c k w t =>
    let ty := intTy k.tyN
    let r := intCond (k.h.c.toNat / 16) (intOperand c w t ty k.h.a) (intOperand c w t ty k.h.b)
    { val := some (if r then 1 else 0), pred := predAt (cIndex k) r }) ∧
  Computes .sel encOfSel (fun k => tyWidth k.tyN) (fun c k w t =>
    let ty := intTy k.tyN
    let p := xor (readPred c w t (cIndex k)) (k.h.c.getLsbD 3)
    { val := some (intResult ty (intOperand c w t ty (if p then k.h.a else k.h.b))) }) ∧
  Computes .addc encOfAddc (fun k => tyWidth k.tyN) (fun c k w t =>
    let ty := intTy k.tyN
    let i := cIndex k
    let cin : Int := if i ≠ 7 ∧ readPred c w t i = true then 1 else 0
    let v := intOperand c w t ty k.h.a + intOperand c w t ty k.h.b + cin
    { val := some (intResult ty v), pred := predAt i (decide (((2 ^ ty.w : Nat) : Int) ≤ v)) }) ∧
  Computes .movi encOfMovi (fun k => tyWidth k.tyN) (fun c k w t =>
    { val := some (moviValue k.hi k.imm (if k.hi = 2 then read64 c w t k.h.a else 0)) }) ∧
  Computes .lea encOfLea (fun _ => .w64) (fun c k w t =>
    let b : W64 :=
      if k.tyN = 8 then read64 c w t k.h.b
      else if k.tyN = 3 then (read32 c w t k.h.b).signExtend 64 else (read32 c w t k.h.b).setWidth 64
    { val := some (read64 c w t k.h.a + (b <<< k.hi) + k.imm.signExtend 64) }) ∧
  Computes .plop encOfPlop (fun _ => .w32) (fun c k w t =>
    let i := k.imm.toNat
    let a := xor (readPred c w t (bitsOf i 14 12)) (i.testBit 15)
    let b := xor (readPred c w t (bitsOf i 18 16)) (i.testBit 19)
    let d := readPred c w t (bitsOf i 22 20)
    { pred := [(bitsOf i 10 8, i.testBit (a.toNat * 4 + b.toNat * 2 + d.toNat))] }) ∧
  Computes .pmov encOfPmov (fun _ => .w32) (fun c k w t =>
    let i := k.imm.toNat
    let a := (read32 c w t k.h.a).toNat
    match k.hi with
    | 0 => { val := some (BitVec.ofNat 64 (predBits c w t)) }
    | 1 => { pred := ((List.range 7).filter fun n => i.testBit n).map fun n => (n, a.testBit n) }
    | _ => { pred := [(i, a != 0)] }) ∧
  Computes .seed encOfSeed (fun _ => .w32) (fun c k w t => { seed := some (seedValue (read32 c w t k.h.a)) })

/-- Floating-point instructions (R107 to R110, R112, R113) and the functions of R111: each unit's results, element by element,
rounded in the mode that the word names, with the flags that they raise. -/
def Obligations.FloatAndMathInstructionsComplete : Prop :=
  (Computes .fadd encOfFadd (fun k => tyWidth k.tyN)
      (floatGives fun k f m a b _ u => fpAdd (k.hi.testBit 0) (k.hi.testBit 1) f m a b u) ∧
    Computes .fsub encOfFsub (fun k => tyWidth k.tyN)
      (floatGives fun k f m a b _ u => fpAdd (k.hi.testBit 0) (!k.hi.testBit 1) f m a b u) ∧
    Computes .fmul encOfFmul (fun k => tyWidth k.tyN) (floatGives fun k f m a b _ u => fpMul (k.hi.testBit 0) f m a b u) ∧
    Computes .ffma encOfFfma (fun k => tyWidth k.tyN)
      (floatGives fun k f m a b d u => fpFma (k.hi.testBit 0) (k.hi.testBit 1) f m a b d u) ∧
    Computes .fmin encOfFmin (fun k => tyWidth k.tyN) (floatGives fun _ f _ a b _ _ => fpMinMax false f a b) ∧
    Computes .fmax encOfFmax (fun k => tyWidth k.tyN) (floatGives fun _ f _ a b _ _ => fpMinMax true f a b) ∧
    Computes .frnd encOfFrnd (fun k => tyWidth k.tyN) (floatGives fun _ f m a _ _ _ => fpRoundInt f m a) ∧
    Computes .fcmp encOfFcmp (fun _ => .w32) (fun c k w t =>
      let ty := elemTy k.tyN
      let v (sel : Selector) := ty.f.value ((floatOperand c w t ty sel).headD 0)
      let r := fpCond (k.h.c.toNat / 16) (v k.h.a) (v k.h.b)
      { val := some (if r.1 then 1 else 0), pred := predAt (cIndex k) r.1, flags := r.2 }) ∧
    Computes .fclass encOfFclass (fun _ => .w32) (fun c k w t =>
      let ty := elemTy k.tyN
      { val := some (BitVec.ofNat 64 (classMask ty.f ((floatOperand c w t ty k.h.a).headD 0))) })) ∧
  (Computes .frcp encOfFrcp (fun k => tyWidth k.tyN) (floatGives fun _ f m a _ _ _ => mathFn .rcp f m a) ∧
    Computes .frsq encOfFrsq (fun k => tyWidth k.tyN) (floatGives fun _ f m a _ _ _ => mathFn .rsq f m a) ∧
    Computes .fsqrt encOfFsqrt (fun k => tyWidth k.tyN) (floatGives fun _ f m a _ _ _ => mathFn .sqrt f m a) ∧
    Computes .fexp2 encOfFexp2 (fun k => tyWidth k.tyN) (floatGives fun _ f m a _ _ _ => mathFn .exp2 f m a) ∧
    Computes .flog2 encOfFlog2 (fun k => tyWidth k.tyN) (floatGives fun _ f m a _ _ _ => mathFn .log2 f m a) ∧
    Computes .fsin encOfFsin (fun k => tyWidth k.tyN) (floatGives fun _ f m a _ _ _ => mathFn .sin f m a) ∧
    Computes .fcos encOfFcos (fun k => tyWidth k.tyN) (floatGives fun _ f m a _ _ _ => mathFn .cos f m a))

/-- CVT, PACK and UNPK convert a scalar, pack four FP32 values into a group of D and unpack four elements exactly (R114 to R116); DQNT
gives each thread the values of its codes under its scale word, and faults with DECODE_SCALE, which names them and before which nothing
is written, where the words of participants are reserved (R118); QNT gives each participant its codes and the scale word of the warp's
block (R117). A raised flag whose FPTE bit is set makes each of them take FP_TRAP instead (R57); which participants raise the flags of a
QNT is the model's choice (log 133). -/
def Obligations.ConversionsComplete : Prop :=
  Computes .cvt encOfCvt (fun k => tyWidth k.tyN) cvtGives ∧
  Computes .pack encOfPack (fun _ => .w64) packGives ∧
  Computes .unpk encOfUnpk (fun _ => .w128) unpkGives ∧
  (∀ (w : KWord) (s : State) (v : View), IssuesK encOfDqnt w .straight s v →
    (v.c.parts.filter fun t => !scaleOk ((read64 v.c v.w t v.h.a).extractLsb' 32 32) true) = [] →
    let outs := v.c.units.map fun t =>
      (t, { val := some (dqntValue (elemTy (srcType w)).f (read64 v.c v.w t v.h.a)).1,
            flags := (dqntValue (elemTy (srcType w)).f (read64 v.c v.w t v.h.a)).2 : AluOut })
    (raisedFlags outs &&& v.c.fpte = 0 → exec (.dqnt w) s = .next (v.ended .straight s (v.results s .w64 outs))) ∧
    (raisedFlags outs &&& v.c.fpte ≠ 0 → exec (.dqnt w) s = .next (v.fpTrapped s outs))) ∧
  (∀ (w : KWord) (s : State) (v : View), IssuesK encOfDqnt w .straight s v →
    let bad := v.c.parts.filter fun t => !scaleOk ((read64 v.c v.w t v.h.a).extractLsb' 32 32) true
    bad ≠ [] → exec (.dqnt w) s = .next (v.trapped s { cause := .decodeScale, mask := maskOf bad })) ∧
  (∀ (w : KWord) (s : State) (v : View), IssuesK encOfQnt w .straight s v → v.c.parts ≠ [] →
    let mode := Mode.ofCode w.mode
    let q := quantise (qntBlock v.c v.w v.h.a) (elemTy w.tyN).f (w.hi.testBit 0) (w.hi.testBit 1) mode (qntDraws v.c v.w mode)
    q.flags &&& v.c.fpte ≠ 0 → exec (.qnt w) s = .next (s.guarded ((v.onWarp s fun x => x.orFlags q.flags).takeFault v.c.task
      v.c.warp v.c.pc { cause := .fpTrap, mask := qntRaisers v.c q, extra := q.flags.toNat }))) ∧
  (∀ (w : KWord) (s : State) (v : View), IssuesK encOfQnt w .straight s v → v.c.parts ≠ [] →
    let f := (elemTy w.tyN).f
    let mode := Mode.ofCode w.mode
    let r := quantiseBlock (qntBlock v.c v.w v.h.a) f (w.hi.testBit 0) (w.hi.testBit 1) mode (qntDraws v.c v.w mode)
    let outs := v.c.parts.map fun t =>
      (t, { val := some (r.2.1 ++ BitVec.ofNat 32 (r.1.getD (2 * t.val) 0 + r.1.getD (2 * t.val + 1) 0 * 2 ^ codeShift f)),
            seed := if mode = .rsr then some (srands 2 (v.w.thread t).seed).2 else none : AluOut })
    r.2.2 &&& v.c.fpte = 0 → exec (.qnt w) s = .next (v.ended .straight s
      (v.onWarp (if r.2.2 = 0 then s else v.onWarp s fun x => x.orFlags r.2.2) (applyAll v.c v.h .w64 outs))))

/-- SHFL gives each participant the value of the participant it names, or its own; VOTE, WRED and WSCAN fold the participants' values in
increasing tid (R95). -/
def Obligations.CrossThreadInstructionsComplete : Prop :=
  (∀ (w : KWord) (s : State) (v : View), IssuesK encOfShfl w .straight s v →
    exec (.shfl w) s = .next (v.ended .straight s (v.onWarp s fun x =>
      (shflGives v.c (v.seenK w) v.w).foldl (fun x o => putResult v.c v.h (tyWidth w.tyN) x o.1 o.2) x))) ∧
  (∀ (w : KWord) (s : State) (v : View), IssuesK encOfVote w .straight s v →
    exec (.vote w) s = .next (v.ended .straight s (if v.c.executing = [] then s else v.onWarp s fun x =>
      (v.c.units.map fun t => (t, voteGives v.c (v.seenK w) v.w)).foldl
        (fun x o => putResult v.c v.h (tyWidth w.tyN) x o.1 o.2) x))) ∧
  (∀ (w : KWord) (s : State) (v : View) (y : Tid × W64) (ys : List (Tid × W64)), IssuesK encOfWred w .straight s v →
    crossValues v.c v.w (v.seenK w) v.h.a = y :: ys →
    let xs := reduceSteps (reduceStep w.tyN w.hi w.sat (Mode.ofCode w.mode)) y.2 ys
    let fl := xs.foldl (fun f x => f ||| x.2.2) 0
    fl &&& v.c.fpte = 0 →
    exec (.wred w) s = .next (v.ended .straight s
      (v.onWarp (if fl = 0 then s else v.onWarp s fun x => x.orFlags fl) fun x =>
        (v.c.units.map fun t => (t, (xs.getLast?.map (·.2.1)).getD y.2)).foldl
          (fun x o => putResult v.c v.h (tyWidth w.tyN) x o.1 o.2) x))) ∧
  (∀ (w : KWord) (s : State) (v : View) (y : Tid × W64) (ys : List (Tid × W64)), IssuesK encOfWscan w .straight s v →
    crossValues v.c v.w (v.seenK w) v.h.a = y :: ys →
    let xs := reduceSteps (reduceStep w.tyN w.hi w.sat (Mode.ofCode w.mode)) (scanSeed v.c v.w (v.seenK w) y.1) (y :: ys)
    let fl := xs.foldl (fun f x => f ||| x.2.2) 0
    fl &&& v.c.fpte = 0 →
    exec (.wscan w) s = .next (v.ended .straight s
      (v.onWarp (if fl = 0 then s else v.onWarp s fun x => x.orFlags fl) fun x =>
        (xs.map fun x => (x.1, x.2.1)).foldl (fun x o => putResult v.c v.h (tyWidth w.tyN) x o.1 o.2) x)))

/-! ## Transfers, traps and the bodies of a warp (R86 to R94, R241 to R255) -/

/-- BRA, CALL, BRX, CALLX, RET and LOOP (R88): the targets are checked, the link or count is written, and every unit's threads stand at
their target, the others of the active set at next(PC). -/
def Obligations.TransfersComplete : Prop :=
  (∀ (w : JWord) (s : State) (v : View), IssuesJ jumpEnc w .transfer s v →
    v.Transfers .slot (v.c.units.map fun t => { tid := t, target := jTarget v.c.pc w.off, taken := true }) (fun w _ => w) s
      (exec (.bra w) s)) ∧
  (∀ (w : JWord) (s : State) (v : View), IssuesJ encOfCall w .transfer s v →
    v.Transfers .slot (v.c.units.map fun t => { tid := t, target := jTarget v.c.pc w.off, taken := true })
      (putLink v.c v.h .w64 fun _ => nextPc v.c.pc) s (exec (.call w) s)) ∧
  (∀ (w : KWord) (s : State) (v : View), IssuesK encOfBrx w .transfer s v →
    v.Transfers .byte (v.c.units.map fun t => { tid := t, target := read64 v.c v.w t v.h.a, taken := true }) (fun w _ => w) s
      (exec (.brx w) s)) ∧
  (∀ (w : KWord) (s : State) (v : View), IssuesK encOfCallx w .transfer s v →
    v.Transfers .byte (v.c.units.map fun t => { tid := t, target := read64 v.c v.w t v.h.a, taken := true })
      (putLink v.c v.h .w64 fun _ => nextPc v.c.pc) s (exec (.callx w) s)) ∧
  (∀ (w : KWord) (s : State) (v : View), IssuesK encOfRet w .transfer s v →
    v.Transfers .ret (v.c.units.map fun t => { tid := t, target := read64 v.c v.w t v.h.a, taken := true }) (fun w _ => w) s
      (exec (.ret w) s)) ∧
  (∀ (w : JWord) (s : State) (v : View), IssuesJ encOfLoop w .transfer s v →
    v.Transfers .slot (v.c.units.map fun t =>
        { tid := t, target := if 0 < (read32 v.c v.w t v.h.a - 1).toInt then jTarget v.c.pc w.off else nextPc v.c.pc,
          taken := decide (0 < (read32 v.c v.w t v.h.a - 1).toInt) })
      (putLink v.c v.h .w32 fun x => (read32 v.c v.w x.tid v.h.a - 1).setWidth 64) s (exec (.loop w) s))

/-- NOP, RGN, EXIT, MCALL, IPF and IFENCE (R87, R89 to R91): NOP has no effect; RGN begins a region of every thread of the active set
with the live-in record of its offset; EXIT ends its participants; MCALL enters a body; IPF asks for a line; IFENCE, once the core's
stores are complete, empties the core's instruction cache. -/
def Obligations.ThreadInstructionsComplete : Prop :=
  (∀ (w : KWord) (s : State) (v : View), IssuesK encOfNop w .straight s v → exec (.nop w) s = .next (v.ended .straight s s)) ∧
  (∀ (w : EWord) (s s₁ : State) (v : View) (live : LiveRecord), IssuesE encOfRgn w .boundary s v →
    Runs (Op.liveRecord v.c w.imm) s live s₁ →
    exec (.rgn w) s = .next (v.ended .boundary s ((v.onWarp s₁ fun x =>
      { x.modThreads v.c.active (fun th => th.beginRegion v.c.pc live) with implq := s₁.figures v.c.ctx }).freeSwitch
        v.c.task v.c.warp))) ∧
  (∀ (w : EWord) (s : State) (v : View) (t : Task), IssuesE encOfExit w .boundary s v → s.task? v.c.task = some t →
    v.c.parts ≠ [] → v.w.sump.mode = .inactive → Runs (Op.release v.c (maskOf v.c.parts)) s () s →
    let s₁ := v.onWarp s fun x => x.exitThreads v.c.parts
    let s₂ := if t.counted then s₁.countDown v.c.kid (v.c.parts.filter fun i => !(v.w.thread i).triggered).length else s₁
    exec (.exit w) s = .next (v.ended .boundary s
      ((s₂.wsyncExited v.c.task v.c.warp).endSwitch v.c.task v.c.warp))) ∧
  (∀ (w : EWord) (s : State) (v : View) (t : Task) (n : Nat) (x : InstrWord) (xs : List InstrWord),
    IssuesE encOfMcall w .enter s v → s.task? v.c.task = some t →
    (t.macros.find? fun m => m.1 == w.imm.toNat) = some (n, x :: xs) →
    exec (.mcall w) s = .next (v.ended .enter s (v.onWarp s fun y =>
      { y with mac := some { num := n, slot := 0, body := x :: xs, m0 := v.h.d, m1 := v.h.a, m2 := v.h.b, m3 := v.h.c } }))) ∧
  (∀ (w : JWord) (s : State) (v : View), IssuesJ jumpEnc w .straight s v → v.c.parts ≠ [] →
    exec (.ipf w) s = .next (v.ended .straight s (s.askCode v.c.who v.c.core (jTarget v.c.pc w.off).toNat))) ∧
  (∀ (w : EWord) (s : State) (v : View), IssuesE encOfIfence w .straight s v → v.c.parts ≠ [] →
    s.coreStoresOut v.c.core = false →
    exec (.ifence w) s = .next (v.ended .straight s (s.modCore v.c.core fun k => { k with icache := [], fills := [] })))

/-- TRAP and BKPT (R92): with a thread that passes its predicate, TRAP takes TRAP_SOFTWARE at the instruction, and BKPT takes
BREAKPOINT once the warp has passed it; EXTRA holds IMM32 and TMASK the threads that pass. Without one they have no effect. RESUME
goes on at next(PC): past a TRAP, and where a BREAKPOINT has left the warp. -/
def Obligations.TrapsTakeTheirFault : Prop :=
  (∀ (w : EWord) (s : State) (v : View), IssuesE encOfTrap w .straight s v →
    exec (.trap w) s = .next (if v.c.parts = [] then v.ended .straight s s else
      v.trapped s { cause := .trapSoftware, mask := maskOf v.c.parts, extra := w.imm.toNat, slot := v.c.mslot })) ∧
  (∀ (w : EWord) (s : State) (v : View), IssuesE encOfBkpt w .straight s v →
    exec (.bkpt w) s = .next (if v.c.parts = [] then v.ended .straight s s else
      s.guarded (((v.onWarp (settle v.c .straight v.w s) fun x => { x with touched := [] })).takeFault v.c.task v.c.warp v.c.pc
        { cause := .breakpoint, mask := maskOf v.c.parts, extra := w.imm.toNat, slot := v.c.mslot }))) ∧
  (∀ (s : State) (task warp : Nat) (pc : W64) (x : Trap) (t : Task) (w : Warp), s.task? task = some t → t.warps[warp]? = some w →
    w.mac = none → ∃ z, (s.takeFault task warp pc x).warp? task warp = some z ∧
      (x.cause = .trapSoftware → ∀ i ∈ w.activeSet, (z.continue.thread i).pc = nextPc (w.thread i).pc) ∧
      (x.cause = .breakpoint → ∀ i, (z.continue.thread i).pc = (w.thread i).pc))

/-- SLOOP, YIELD, PDONE and CEND (R242, R243, R247 to R250): a loop begins with every thread at PE; the participants' entries go to the
ring in increasing tid; a thread ends its body; and the warp changes its mode when the ring is full enough, when the last thread has
ended producing, and when the last thread of a round has ended. -/
def Obligations.SumpLoopsComplete : Prop :=
  (∀ (w : EWord) (s s₁ : State) (v : View) (t : Task) (u : Tid) (d : Sump) (lines : List (Hop × Memory)),
    IssuesE encOfSloop w .transfer s v → s.task? v.c.task = some t → v.c.mslot = none → v.c.units = [u] →
    v.w.sump.mode = .inactive → v.c.active.length = 16 →
    let r (i : Nat) : W64 := vget v.w.s (v.h.a.toNat - 0x80 + i) 0
    sumpDescriptor t.spad v.c.regs (r 0) (r 1) (r 2) (r 3) = some d →
    Runs (Op.checkHops v.c .byte ([r 0, r 1, r 2].map fun pc => { tid := u, target := pc, taken := true })) s lines s₁ →
    hopsBad v.c v.w v.w (lines.take 1) = [] → Runs (Op.release v.c (maskOf v.c.active)) s₁ () s₁ →
    exec (.sloop w) s = .next (v.ended .transfer s (s₁.switchMode v.c fun x _ =>
      { x.modThreads allTids (fun th => { th.enterAt d.pe with bank := vfill 32 0 }) with sump := d }))) ∧
  (∀ (w : EWord) (s s₁ : State) (v : View) (live : LiveRecord), IssuesE encOfYield w .body s v → v.c.mslot = none →
    v.c.parts ≠ [] → v.w.sump.mode = .producing → v.h.a.toNat + v.w.sump.width - 1 ≤ 127 →
    v.w.sump.count + v.c.parts.length ≤ v.w.sump.cap → Runs (Op.liveRecord v.c w.imm) s live s₁ →
    (v.w.sump.high ≤ v.w.sump.count + v.c.parts.length → Runs (Op.release v.c (maskOf v.c.active)) s₁ () s₁) →
    exec (.yield w) s = .next (v.ended .body s
      (let s₂ := s₁.yielded v.c v.h.a.toNat v.w live
       if v.w.sump.high ≤ v.w.sump.count + v.c.parts.length then s₂.switchMode v.c Warp.endProducing else s₂))) ∧
  (∀ (w : EWord) (s : State) (v : View), IssuesE encOfPdone w .body s v → v.c.mslot = none → v.w.sump.mode = .producing →
    v.c.parts ≠ [] →
    let d := v.w.sump.done ||| maskOf v.c.parts
    (d = 0xFFFF → Runs (Op.release v.c (maskOf v.c.active)) s () s) →
    let s₁ := v.onWarp s fun x =>
      ({ x.modThreads v.c.parts (fun th => { th with region := .none }) with sump := { v.w.sump with done := d } } : Warp).modThreads
        v.c.active fun th => { th with pc := nextPc v.c.pc }
    exec (.pdone w) s = .next (v.ended .body s (if d = 0xFFFF then s₁.switchMode v.c Warp.endProducing
      else s₁.wsyncParked v.c.task v.c.warp))) ∧
  (∀ (w : EWord) (s : State) (v : View), IssuesE encOfCend w .body s v → v.c.mslot = none →
    (v.w.sump.mode = .consuming ∨ v.w.sump.mode = .draining) → v.c.parts ≠ [] →
    let d := v.w.sump.cmask ||| maskOf v.c.parts
    (d = v.w.sump.rmask → Runs (Op.release v.c (maskOf v.c.active)) s () s) →
    let s₁ := v.onWarp s fun x =>
      ({ x.modThreads v.c.parts (fun th => { th with region := .none }) with sump := { v.w.sump with cmask := d } } : Warp).modThreads
        v.c.active fun th => { th with pc := nextPc v.c.pc }
    exec (.cend w) s = .next (v.ended .body s (if d = v.w.sump.rmask then s₁.switchMode v.c Warp.endRound
      else s₁.wsyncParked v.c.task v.c.warp)))

/-! ## Memory (R200 to R240) -/

/-- LD (R215, R216): the checks of every participant, then every value, then the registers; with ORD = 1 it acquires. A load of the
debug space goes to the object that its address names, and is no acquire (R378). -/
def Obligations.LoadsComplete : Prop :=
  (∀ (w : MWord) (s : State) (v : View), IssuesM encOfLd w .straight s v → v.c.parts = [] →
    exec (.ld w) s = .next (v.ended .straight s s)) ∧
  (∀ (w : MWord) (s s₁ s₂ s₃ : State) (v : View) (as : List Aimed) (vs : List (Tid × Nat)),
    IssuesM encOfLd w .straight s v → v.c.parts ≠ [] → w.space ≠ 3 →
    Runs (Op.aim v.c w.space.toNat .load (bytesOf w) (bytesOf w) (indexed v.c v.w (v.seenM w))) s as s₁ →
    Runs (Op.loadEach v.c (v.seenM w) as) s₁ vs s₂ → Runs (Op.noteLoads v.c (bytesOf w) as) s₂ () s₃ →
    let s₄ := v.onWarp s₃ fun x => vs.foldl (putLoaded v.c (v.seenM w)) x
    exec (.ld w) s = .next (v.ended .straight s (if w.ord = 1 then s₄.acquire v.c.core else s₄))) ∧
  (∀ (w : MWord) (s s₂ : State) (v : View) (as : List (Tid × Nat × DebugAt)) (vs : List (Tid × Nat)),
    IssuesM encOfLd w .straight s v → v.c.parts ≠ [] → w.space = 3 →
    Runs (Op.debugAim v.c (bytesOf w) (w.size == 4) (indexed v.c v.w (v.seenM w))) s as s →
    Runs (Op.debugEach v.c (v.seenM w) as) s vs s₂ →
    exec (.ld w) s = .next (v.ended .straight s (v.onWarp s₂ fun x => vs.foldl (putLoaded v.c (v.seenM w)) x)))

/-- ST and STBM (R215, R217, R219): the checks of every participant, the release of ORD = 2, and then the participants' bytes in
increasing tid, or their bits under the mask of B. A store to the debug space is no release (R378). -/
def Obligations.StoresComplete : Prop :=
  (∀ (w : MWord) (s s₁ s₂ : State) (v : View) (as : List Aimed), IssuesM encOfSt w .straight s v → v.c.parts ≠ [] → w.space ≠ 3 →
    Runs (Op.aim v.c w.space.toNat .store (bytesOf w) (bytesOf w) (indexed v.c v.w (v.seenM w))) s as s₁ →
    (w.ord = 2 → Runs (Op.release v.c (maskOf v.c.executing)) s₁ () s₁) →
    Runs (Op.storeEach v.c (bytesOf w) (fun a => Op.storeAt v.c a (bytesOf w) w.hint.toNat
      (dataOf v.c v.w (v.seenM w) a.tid v.h.c)) as) s₁ () s₂ →
    exec (.st w) s = .next (v.ended .straight s s₂)) ∧
  (∀ (w : MWord) (s s₂ : State) (v : View) (as : List (Tid × Nat × DebugAt)), IssuesM encOfSt w .straight s v →
    v.c.parts ≠ [] → w.space = 3 →
    Runs (Op.debugAim v.c (bytesOf w) (w.size == 4) (indexed v.c v.w (v.seenM w))) s as s →
    Runs (Op.debugStoreEach v.c (bytesOf w) (fun t => dataOf v.c v.w (v.seenM w) t v.h.c) as) s () s₂ →
    exec (.st w) s = .next (v.ended .straight s s₂)) ∧
  (∀ (w : MWord) (s s₁ s₂ : State) (v : View) (as : List Aimed), IssuesM encOfStbm w .straight s v → v.c.parts ≠ [] →
    w.space ≠ 3 →
    Runs (Op.aim v.c w.space.toNat .store (bytesOf w) (bytesOf w) (based v.c v.w (v.seenM w))) s as s₁ →
    (w.ord = 2 → Runs (Op.release v.c (maskOf v.c.executing)) s₁ () s₁) →
    Runs (Op.storeEach v.c (bytesOf w) (fun a => Op.mergeAt v.c (bytesOf w) (dataOf v.c v.w (v.seenM w) a.tid v.h.b)
      (dataOf v.c v.w (v.seenM w) a.tid v.h.c) a) as) s₁ () s₂ →
    exec (.stbm w) s = .next (v.ended .straight s s₂))

/-- A load from the scratchpad or the vaults delivers their bytes, and one from memory that goes to the home the bytes at their home
(R216, R223): a word that a core has registered and holds Owned is forwarded from that core (R210). A load of a core through its L1
delivers the bytes of the words that its L1 holds, and when one of them is Invalid the line as its homes hold it (R209, R210). A store
to the scratchpad or the vaults replaces exactly the bytes of its range; one that goes to the home, and one through L1, which registers
its words, replace exactly them as every later read at the home finds, and the bytes that others have written to a registered word of
the range stay (R206, R210, R217). For memory the range lies in one line, and no word beside it is registered. -/
def Obligations.AccessesReachTheirBytes : Prop :=
  (∀ (c : Ctx) (a : Aimed) (t : Task) (s : State) (key n hint o : Nat), a.target.place = .scratch o → s.task? c.task = some t →
    Runs (Op.loadAt c a key n hint) s (t.scratch.getN o n) s) ∧
  (∀ (c : Ctx) (a : Aimed) (s : State) (key n hint x : Nat), a.target.place = .vault x →
    Runs (Op.loadAt c a key n hint) s (s.vault.getN x n) s) ∧
  (∀ (c : Ctx) (a : Aimed) (s : State) (key n hint pa : Nat), a.target.place = .phys pa →
    (a.target.cacheable = false ∨ hint = 3) →
    let s₁ := s.l2Access a.target.bits pa n
    (∃ s', Runs (Op.loadAt c a key n hint) s (s₁.homeN pa n) s' ∧ s'.mem = s₁.mem ∧ s'.owners = s₁.owners ∧ s'.vault = s.vault ∧
      s'.tasks = s.tasks) ∧
    (pa % 128 + n ≤ 128 → OnlyRegistered s pa n →
      s₁.homeN pa n = s.homeN pa n ∧ s₁.mem = s.mem ∧ s₁.owners = s.owners ∧ ∀ b, s₁.homeByte b = s.homeByte b)) ∧
  (∀ (s : State) (pa core : Nat) (w : L1Word), s.ownerOf pa = some core → (s.core core).word? (wordOf pa) = some w →
    w.owned = true →
    s.homeByte pa = if w.mask.getLsbD (pa % 4) then w.val.extractLsb' (8 * (pa % 4)) 8 else s.mem.get pa) ∧
  (∀ (c : Ctx) (a : Aimed) (s : State) (key n hint pa : Nat), a.target.place = .phys pa → a.target.cacheable = true → hint ≠ 3 →
    (∀ x ∈ wordsOf pa n, ((s.core c.core).word? x).isSome = true) →
    ∃ v s', Runs (Op.loadAt c a key n hint) s v s' ∧ v < 256 ^ n ∧
      (∀ i w, i < n → (s.core c.core).word? (wordOf (pa + i)) = some w →
        v / 256 ^ i % 256 = w.val.toNat / 256 ^ ((pa + i) % 4) % 256) ∧
      s'.mem = s.mem ∧ s'.owners = s.owners ∧ (∀ b, s'.homeByte b = s.homeByte b) ∧ s'.vault = s.vault ∧ s'.tasks = s.tasks) ∧
  (∀ (c : Ctx) (a : Aimed) (s : State) (key n hint pa : Nat), a.target.place = .phys pa → a.target.cacheable = true → hint ≠ 3 →
    c.core < 192 → pa % 128 + n ≤ 128 → OnlyRegistered s pa n → (∀ o ∈ s.owners, o.2 ≠ c.core) →
    (∀ l ∈ (s.core c.core).l1, ∀ w ∈ l.words, w.owned = false) → (∃ x ∈ wordsOf pa n, (s.core c.core).word? x = none) →
    ∃ s', Runs (Op.loadAt c a key n hint) s (s.homeN pa n) s' ∧ s'.mem = s.mem ∧ s'.owners = s.owners ∧
      (∀ b, s'.homeByte b = s.homeByte b) ∧ s'.vault = s.vault ∧ s'.tasks = s.tasks) ∧
  (∀ (c : Ctx) (a : Aimed) (t : Task) (s : State) (n hint v o : Nat), a.target.place = .scratch o → s.task? c.task = some t →
    t.scratch.wf = true → ∃ s' t', Runs (Op.storeAt c a n hint v) s () s' ∧ s'.task? c.task = some t' ∧
      t'.scratch.getN o n = v % 256 ^ n ∧ (∀ x, x < o ∨ o + n ≤ x → t'.scratch.get x = t.scratch.get x) ∧
      s'.mem = s.mem ∧ s'.vault = s.vault ∧ ∀ id, id ≠ c.task → s'.task? id = s.task? id) ∧
  (∀ (c : Ctx) (a : Aimed) (s : State) (n hint v x : Nat), a.target.place = .vault x → s.vault.wf = true →
    ∃ s', Runs (Op.storeAt c a n hint v) s () s' ∧ s'.vault.getN x n = v % 256 ^ n ∧
      (∀ y, y < x ∨ x + n ≤ y → s'.vault.get y = s.vault.get y) ∧ s'.mem = s.mem ∧ s'.tasks = s.tasks) ∧
  (∀ (c : Ctx) (a : Aimed) (s : State) (n hint v pa : Nat), a.target.place = .phys pa → s.mem.wf = true → pa % 128 + n ≤ 128 →
    OnlyRegistered s pa n → (a.target.cacheable = false ∨ hint = 3) →
    ∃ s', Runs (Op.storeAt c a n hint v) s () s' ∧ s'.homeN pa n = v % 256 ^ n ∧
      (∀ y, y < pa ∨ pa + n ≤ y → s'.homeByte y = s.homeByte y) ∧ s'.owners = [] ∧ s'.vault = s.vault ∧ s'.tasks = s.tasks) ∧
  (∀ (c : Ctx) (a : Aimed) (s : State) (n hint v pa : Nat), a.target.place = .phys pa → s.mem.wf = true → pa % 128 + n ≤ 128 →
    OnlyRegistered s pa n → a.target.cacheable = true → hint ≠ 3 → c.core < 192 →
    ∃ s', Runs (Op.storeAt c a n hint v) s () s' ∧ s'.homeN pa n = v % 256 ^ n ∧
      (∀ y, y < pa ∨ pa + n ≤ y → s'.homeByte y = s.homeByte y) ∧ (∀ x ∈ wordsOf pa n, s'.ownerOf x = some c.core) ∧
      s'.vault = s.vault ∧ s'.tasks = s.tasks)

/-- PREF, CLEAN, INVAL, EVH, FENCE and XFENCE (R220 to R222, R235): the lines that the participants name are filled into L1 or their
home slice, cleaned, dropped or given a priority there; a fence waits for the earlier accesses and acquires. -/
def Obligations.CacheInstructionsComplete : Prop :=
  (∀ (w : MWord) (s : State) (v : View), IssuesM encOfPref w .straight s v →
    exec (.pref w) s = .next (v.ended .straight s
      ((indexed v.c v.w (v.seenM w)).foldl (fun (s : State) (x : Tid × Nat) => s.prefetch v.c w.hint.toNat x.2) s))) ∧
  (∀ (w : MWord) (s s₁ : State) (v : View) (as : List Aimed), IssuesM encOfClean w .straight s v →
    Runs (Op.aim v.c 0 .load (bytesOf w) 1 (indexed v.c v.w (v.seenM w))) s as s₁ →
    exec (.clean w) s = .next (v.ended .straight s (as.foldl (fun (s : State) (a : Aimed) => match a.target.place with
      | .phys pa => s.cleanLine v.c.core pa true
      | _ => s) s₁))) ∧
  (∀ (w : MWord) (s s₁ : State) (v : View) (as : List Aimed), IssuesM encOfInval w .straight s v →
    Runs (Op.aim v.c 0 .load (bytesOf w) 1 (indexed v.c v.w (v.seenM w))) s as s₁ →
    exec (.inval w) s = .next (v.ended .straight s (as.foldl (fun (s : State) (a : Aimed) => match a.target.place with
      | .phys pa => s.cleanLine v.c.core pa false
      | _ => s) s₁))) ∧
  (∀ (w : MWord) (s : State) (v : View), IssuesM encOfEvh w .straight s v →
    exec (.evh w) s = .next (v.ended .straight s
      ((indexed v.c v.w (v.seenM w)).foldl (fun (s : State) (x : Tid × Nat) => s.setPriority v.c w.hint.toNat x.2) s))) ∧
  (∀ (w : EWord) (s : State) (v : View), IssuesE encOfFence w .straight s v → v.c.parts ≠ [] →
    (w.sub ≠ 1 → Runs (Op.release v.c (maskOf v.c.executing)) s () s) →
    exec (.fence w) s = .next (v.ended .straight s (if w.sub ≠ 2 then s.acquire v.c.core else s))) ∧
  (∀ (w : EWord) (s : State) (v : View), IssuesE encOfXfence w .straight s v → v.c.parts ≠ [] →
    Runs (Op.release v.c (maskOf v.c.executing)) s () s →
    exec (.xfence w) s = .next (v.ended .straight s (s.acquire v.c.core)))

/-- AMO, AMOCAS and RED run thread by thread (R129, R237, R238, R240): each participant's checks and then its operation, with those
applied named in the done mask. -/
def Obligations.AtomicsComplete : Prop :=
  (∀ (w : MWord) (s t : State) (v : View), IssuesM encOfAmo w .straight s v →
    EachRuns v.c (Op.aimAtomic v.c .rmw (v.seenM w)) (amoAct v.c (v.seenM w)) v.c.units s t →
    exec (.amo w) s = .next (v.ended .straight s t)) ∧
  (∀ (w : MWord) (s t : State) (v : View), IssuesM encOfAmocas w .straight s v →
    EachRuns v.c (Op.aimAtomic v.c .rmw (v.seenM w)) (casAct v.c (v.seenM w)) v.c.units s t →
    exec (.amocas w) s = .next (v.ended .straight s t)) ∧
  (∀ (w : MWord) (s t : State) (v : View), IssuesM encOfRed w .straight s v →
    EachRuns v.c (Op.aimAtomic v.c .red (v.seenM w)) (redAct v.c (v.seenM w)) v.c.units s t →
    exec (.red w) s = .next (v.ended .straight s t))

/-- What a home does with a value (R122, R236 to R238): AMO leaves the sum, the bitwise and, or or exclusive or, the signed or unsigned
minimum or maximum, the operand itself, or the FP32 sum rounded once to nearest even with the canonical NaN of R50; AMOCAS leaves the
new value where the old one was the compare value; both answer with the old value. An add to a stalagmite is exact, or is refused when
the sum passes 2^64 - 1. What a core has written to a registered word counts, every other byte stays, and no other word is registered
(R210). -/
def Obligations.HomeOperationsCombine : Prop :=
  (∀ (s : State) (who : Waiter) (pa n : Nat), s.mem.wf = true → OnlyRegistered s pa n → s.poisoned pa n = false → n = 4 ∨ n = 8 →
      let old := s.homeN pa n
      let keeps (t : Nat × State) : Prop := t.1 = old ∧ ∀ x, x < pa ∨ pa + n ≤ x → t.2.homeByte x = s.homeByte x
      (∀ op v, v < 256 ^ n → keeps (s.homeExec (.amo pa n op v) who) ∧
        let new := (s.homeExec (.amo pa n op v) who).2.homeN pa n
        (op = 0 → new = (old + v) % 256 ^ n) ∧ (op = 1 → new = old &&& v) ∧ (op = 2 → new = old ||| v) ∧
        (op = 3 → new = old ^^^ v) ∧
        (op = 4 → signedOf (8 * n) new = min (signedOf (8 * n) old) (signedOf (8 * n) v)) ∧
        (op = 5 → signedOf (8 * n) new = max (signedOf (8 * n) old) (signedOf (8 * n) v)) ∧
        (op = 6 → new = min old v) ∧ (op = 7 → new = max old v) ∧ (op = 8 → new = v) ∧
        (op = 9 → n = 4 →
          let x := Fmt.fp32.value old
          let y := Fmt.fp32.value v
          new = if x.isNan || y.isNan then 0x7FC00000 else match x.add .rne y with
            | none => 0x7FC00000
            | some z => (Fmt.fp32.round z false .rne false 0).1 % 256 ^ n)) ∧
      (∀ cmp new, keeps (s.homeExec (.cas pa n cmp new) who) ∧
        (s.homeExec (.cas pa n cmp new) who).2.homeN pa n = (if old = cmp then new else old) % 256 ^ n)) ∧
  (∀ (s : State) (pa amt : Nat), s.mem.wf = true → OnlyRegistered s pa 8 →
      (2 ^ 64 ≤ s.homeN pa 8 + amt → s.sgAddAt pa amt = (refused, s)) ∧
      (s.homeN pa 8 + amt < 2 ^ 64 → (s.sgAddAt pa amt).1 = s.homeN pa 8 ∧
        (s.sgAddAt pa amt).2.homeN pa 8 = s.homeN pa 8 + amt ∧
        ∀ x, x < pa ∨ pa + 8 ≤ x → (s.sgAddAt pa amt).2.homeByte x = s.homeByte x))

/-! ## Stalagmites, rings, barriers and groups (R120 to R135, R168 to R182) -/

/-- SGADD, RGPUB and RGREL run thread by thread: each participant's checks and then its add as a release (R121, R122, R129, R135). -/
def Obligations.AddsComplete : Prop :=
  (∀ (w : EWord) (s t : State) (v : View), IssuesE addEnc w .straight s v →
    EachRuns v.c (fun i => do
      let x ← Op.warp v.c
      Op.aimSg v.c .sgAdd i (sgAddr v.c x (v.seenE w) i)) (Op.addAt v.c (v.seenE w)) v.c.units s t →
    exec (.sgadd w) s = .next (v.ended .straight s t)) ∧
  (∀ (w : EWord) (s t : State) (v : View), IssuesE addEnc w .straight s v →
    EachRuns v.c (fun i => do
      let x ← Op.warp v.c
      let d ← Op.ringDesc v.c i (sgAddr v.c x (v.seenE w) i)
      Op.aimSg v.c .sgAdd i d.fill) (Op.addAt v.c (v.seenE w)) v.c.units s t →
    exec (.rgpub w) s = .next (v.ended .straight s t)) ∧
  (∀ (w : EWord) (s t : State) (v : View), IssuesE addEnc w .straight s v →
    EachRuns v.c (fun i => do
      let x ← Op.warp v.c
      let d ← Op.ringDesc v.c i (sgAddr v.c x (v.seenE w) i)
      Op.aimSg v.c .sgAdd i d.rel) (Op.addAt v.c (v.seenE w)) v.c.units s t →
    exec (.rgrel w) s = .next (v.ended .straight s t))

/-- SGWAIT, SGTEST, SGREAD, SGSET, RGRESV and RGAWAIT (R123, R130, R131, R135): a wait whose participants' stalagmites have all reached
their targets acquires and goes on, its reads noted for the watchpoints (R380), and one that has not leaves its warp Blocked; the
others read or set once. -/
def Obligations.StalagmiteInstructionsComplete : Prop :=
  (∀ (w : EWord) (s s₁ s₂ : State) (v : View) (as : List (Tid × Aimed)), IssuesE encOfSgwait w .wait s v → as ≠ [] →
    Runs (Op.gather v.c fun t => Op.aimSg v.c .sgRead t (sgAddr v.c v.w (v.seenE w) t)) s as s₁ →
    Waited v.c 0 (sgwaitFor v.c (v.seenE w) v.w as) s₁ s₂ →
    exec (.sgwait w) s = .next (v.ended .wait s (s₂.waited v.c (sgwaitFor v.c (v.seenE w) v.w as)))) ∧
  (∀ (w : EWord) (s s₁ s₂ : State) (v : View) (as : List (Tid × Aimed)) (x : WaitItem) (xs : List WaitItem),
    IssuesE encOfSgwait w .wait s v → as ≠ [] →
    Runs (Op.gather v.c fun t => Op.aimSg v.c .sgRead t (sgAddr v.c v.w (v.seenE w) t)) s as s₁ →
    let fs := sgwaitFor v.c (v.seenE w) v.w as
    (∀ y, s₁.warp? v.c.task v.c.warp = some y → y.wait = none) →
    Runs (Op.unmet v.c 0 (waitItems fs)) s₁ (x :: xs) s₂ → s₂.unanswered v.c.asker = false →
    exec (.sgwait w) s = .next (s.guarded (s₂.block v.c.task v.c.warp 3 (x :: xs) (partsOf v.c fs)))) ∧
  (∀ (w : EWord) (s s₁ s₂ : State) (v : View) (as : List (Tid × Aimed)) (vs : List (Tid × Nat)),
    IssuesE encOfSgtest w .straight s v →
    Runs (Op.gather v.c fun t => Op.aimSg v.c .sgRead t (sgAddr v.c v.w (v.seenE w) t)) s as s₁ →
    Runs (Op.readAll v.c as) s₁ vs s₂ →
    let yes (x : Tid × Nat) : Bool := decide ((read64 v.c v.w x.1 v.h.b).toNat ≤ x.2)
    exec (.sgtest w) s = .next (v.ended .straight s (v.onWarp (if vs.any yes then s₂.acquire v.c.core else s₂) fun x =>
      vs.foldl (fun x y => putPred v.c w.pi.toNat x y.1 (yes y)) x))) ∧
  (∀ (w : EWord) (s s₁ s₂ : State) (v : View) (as : List (Tid × Aimed)) (vs : List (Tid × Nat)),
    IssuesE encOfSgread w .straight s v → as ≠ [] →
    Runs (Op.gather v.c fun t => Op.aimSg v.c .sgRead t (sgAddr v.c v.w (v.seenE w) t)) s as s₁ →
    Runs (Op.readAll v.c as) s₁ vs s₂ →
    exec (.sgread w) s = .next (v.ended .straight s (v.onWarp (s₂.acquire v.c.core) fun x =>
      vs.foldl (fun x y => putResult v.c v.h .w64 x y.1 (BitVec.ofNat 64 y.2)) x))) ∧
  (∀ (w : EWord) (s s₁ s₂ : State) (v : View) (as : List (Tid × Aimed)), IssuesE encOfSgset w .straight s v →
    Runs (Op.gather v.c fun t => Op.aimSg v.c .sgAdd t (sgAddr v.c v.w (v.seenE w) t)) s as s₁ →
    Runs (Op.setAll v.c (v.seenE w) v.w as) s₁ () s₂ →
    exec (.sgset w) s = .next (v.ended .straight s s₂)) ∧
  (∀ (w : EWord) (s s₁ s₂ : State) (v : View) (ds : List (Tid × RingDesc × Aimed)), IssuesE ringEnc w .wait s v → ds ≠ [] →
    Runs (Op.gather v.c fun t => do
      let d ← Op.ringDesc v.c t (sgAddr v.c v.w (v.seenE w) t)
      let a ← Op.aimSg v.c .sgRead t d.rel
      return (d, a)) s ds s₁ →
    let fs := ringFor (fun d n => n + 1 - 2 ^ d.logcap) v.c (v.seenE w) v.w ds
    Waited v.c 0 fs s₁ s₂ →
    exec (.rgresv w) s = .next (v.ended .wait s (v.onWarp (s₂.waited v.c fs) (putSlots v.c (v.seenE w) v.w ds)))) ∧
  (∀ (w : EWord) (s s₁ s₂ : State) (v : View) (ds : List (Tid × RingDesc × Aimed)), IssuesE ringEnc w .wait s v → ds ≠ [] →
    Runs (Op.gather v.c fun t => do
      let d ← Op.ringDesc v.c t (sgAddr v.c v.w (v.seenE w) t)
      let a ← Op.aimSg v.c .sgRead t d.fill
      return (d, a)) s ds s₁ →
    let fs := ringFor (fun _ n => n + 1) v.c (v.seenE w) v.w ds
    Waited v.c 0 fs s₁ s₂ →
    exec (.rgawait w) s = .next (v.ended .wait s (v.onWarp (s₂.waited v.c fs) (putSlots v.c (v.seenE w) v.w ds))))

/-- BJOIN, BLEAVE, BARRIVE and BWAIT (R169, R171, R172): the first three run thread by thread; BWAIT goes on, with its observations
made, once every participant's phase has come. A BWAIT that a wake has sent on makes its checks again: the model's choice (log 153). -/
def Obligations.BarrierInstructionsComplete : Prop :=
  (∀ (w : EWord) (s t : State) (v : View), IssuesE encOfBjoin w .straight s v →
    EachRuns v.c (fun i => do
      let x ← Op.warp v.c
      Op.aimBarrier v.c .sgAdd i (sgAddr v.c x (v.seenE w) i)) (bjoinAct v.c (v.seenE w)) v.c.units s t →
    exec (.bjoin w) s = .next (v.ended .straight s t)) ∧
  (∀ (w : EWord) (s t : State) (v : View), IssuesE encOfBleave w .straight s v →
    EachRuns v.c (fun i => do
      let x ← Op.warp v.c
      Op.aimBarrier v.c .sgAdd i (sgAddr v.c x (v.seenE w) i)) (bleaveAct v.c (v.seenE w)) v.c.units s t →
    exec (.bleave w) s = .next (v.ended .straight s t)) ∧
  (∀ (w : EWord) (s t : State) (v : View), IssuesE encOfBarrive w .straight s v →
    EachRuns v.c (fun i => do
      let x ← Op.warp v.c
      Op.aimBarrier v.c .sgAdd i (sgAddr v.c x (v.seenE w) i)) (barriveAct v.c (v.seenE w)) v.c.units s t →
    exec (.barrive w) s = .next (v.ended .straight s t)) ∧
  (∀ (w : EWord) (s s₁ s₂ s₃ s₄ : State) (v : View) (as : List (Tid × Aimed)), IssuesE encOfBwait w .wait s v → as ≠ [] →
    Runs (Op.gather v.c fun t => Op.aimBarrier v.c .sgRead t (sgAddr v.c v.w (v.seenE w) t)) s as s₁ →
    Runs (Op.bwaitChecks v.c (v.seenE w) v.w as) s₁ () s₂ →
    Waited v.c 1 (bwaitFor v.c (v.seenE w) v.w as) s₂ s₃ →
    Runs (Op.observe v.c (v.seenE w) v.w as) (s₃.waited v.c (bwaitFor v.c (v.seenE w) v.w as)) () s₄ →
    exec (.bwait w) s = .next (v.ended .wait s s₄))

/-- The arrival of R170 keeps the invariants of R169: phase = floor(arrive / expect), with the observations of
the old phase cleared when the next one comes. -/
def Obligations.ArrivalsKeepBarriers : Prop :=
  ∀ b : Barrier, b.ok = true →
    b.arrival.ok = true ∧ b.arrival.arrive = b.arrive + 1 ∧ b.arrival.phase = (b.arrive + 1) / b.expect ∧
    b.arrival.reg = b.reg ∧ b.arrival.expect = b.expect ∧
    b.arrival.obs = (if (b.arrive + 1) / b.expect = b.phase then b.obs else 0)

/-- GINFO, GBAR and WSYNC (R180 to R182): GINFO answers from the group slot, or all ones for the number of an empty one; the wait
half of GBAR goes on when its phase has come; the participants of WSYNC wait, and those all of whose members wait go on. -/
def Obligations.GroupInstructionsComplete : Prop :=
  (∀ (w : EWord) (s : State) (v : View), IssuesE encOfGinfo w .straight s v → v.c.parts ≠ [] →
    (vget v.w.groups w.imm.toNat none = none → w.sub = 0) →
    exec (.ginfo w) s = .next (v.ended .straight s (v.onWarp s fun x => v.c.units.foldl (fun x t => putResult v.c v.h .w64 x t
      (match vget v.w.groups w.imm.toNat none with
        | some g => g.query w.sub.toNat
        | none => BitVec.allOnes 64)) x))) ∧
  (∀ (w : EWord) (s s₁ s₂ s₃ : State) (v : View) (t : Tid) (g : GroupSlot) (a : Aimed) (b : Barrier),
    IssuesE encOfGbar w .boundary s v → v.w.atHalf v.c.active = true → v.c.active.take 1 = [t] →
    vget v.w.groups w.sub.toNat none = some g → Runs (Op.aimBarrier v.c .sgAdd t g.bar.toNat) s a s₁ →
    Runs (Op.readBarrier v.c t a 0) s₁ b s₂ → b.reg = 0 → b.expect = g.nmem → s₂.warp? v.c.task v.c.warp = some v.w →
    let fs : List WaitFor := [{ tid := t, va := a.ea + 8, place := a.target.place.after 8, target := v.w.gwt.toNat, timeout := 0 }]
    Waited v.c 2 fs s₂ s₃ →
    exec (.gbar w) s = .next (v.ended .boundary s
      (v.onWarp (s₃.waited v.c fs) fun x => x.leaveHalf v.c.active))) ∧
  (∀ (w : EWord) (s s₁ s₂ s₃ s₄ : State) (v : View) (t : Tid) (g : GroupSlot) (a : Aimed) (b : Barrier) (x : Warp),
    IssuesE encOfGbar w .boundary s v → v.w.atHalf v.c.active = false → v.c.units = [t] →
    vget v.w.groups w.sub.toNat none = some g → Runs (Op.aimBarrier v.c .sgAdd t g.bar.toNat) s a s₁ →
    Runs (Op.readBarrier v.c t a 0) s₁ b s₂ → b.reg = 0 → b.expect = g.nmem → Runs (Op.gbarArrive v.c (v.seenE w) t a) s₂ () s₃ →
    s₃.warp? v.c.task v.c.warp = some x →
    let fs : List WaitFor := [{ tid := t, va := a.ea + 8, place := a.target.place.after 8, target := x.gwt.toNat, timeout := 0 }]
    Waited v.c 2 fs s₃ s₄ →
    exec (.gbar w) s = .next (v.ended .boundary s
      ((v.onWarp (s₄.waited v.c fs) fun x => x.leaveHalf v.c.active).freeSwitch v.c.task v.c.warp))) ∧
  (∀ (w : EWord) (s : State) (v : View), IssuesE encOfWsync w .sync s v → v.c.parts ≠ [] →
    Runs (Op.release v.c (maskOf v.c.parts)) s () s → (∀ t, v.w.parked t = false) →
    exec (.wsync w) s = .next (v.ended .sync s
      (((v.onWarp s fun x => v.c.parts.foldl (fun x t => x.modThread t fun th =>
          { th with wsync := some (read32 v.c v.w t v.h.a, w.sel.toNat) })
        (x.modThreads (v.c.active.filter fun t => !v.c.parts.contains t) fun th => { th with pc := nextPc th.pc })).wsyncSettle
          v.c).switchPoint v.c.task v.c.warp)))

/-! ## Kernels, grace periods and special registers (R142, R161 to R167, R256 to R269, R341 to R351) -/

/-- LAUNCH, SPAWN, TRIG and TASKQ run thread by thread (R129, R142, R165 to R167): each unit's checks and then its append, its push, its
trigger or its read. -/
def Obligations.KernelInstructionsComplete : Prop :=
  (∀ (w : EWord) (s t : State) (v : View), IssuesE encOfLaunch w .straight s v →
    EachRuns v.c (Op.checkQueue v.c w.imm.toNat) (fun i _ => launchAct v.c (v.seenE w) i) v.c.units s t →
    exec (.launch w) s = .next (v.ended .straight s t)) ∧
  (∀ (w : EWord) (s t : State) (v : View), IssuesE encOfSpawn w .straight s v →
    EachRuns v.c (Op.checkRecord v.c (v.seenE w)) (spawnAct v.c (v.seenE w)) v.c.units s t →
    exec (.spawn w) s = .next (v.ended .straight s t)) ∧
  (∀ (w : EWord) (s t : State) (v : View), IssuesE encOfTrig w .straight s v →
    EachRuns v.c (Op.checkTrigger v.c) (fun i _ => trigAct v.c i) v.c.units s t →
    exec (.trig w) s = .next (v.ended .straight s t)) ∧
  (∀ (w : EWord) (s t : State) (v : View), IssuesE encOfTaskq w .straight s v →
    EachRuns v.c (fun _ => pure ()) (fun i (_ : Unit) => taskqAct v.c (v.seenE w) i) v.c.units s t →
    exec (.taskq w) s = .next (v.ended .straight s t))

/-- A spawned task has the next index after the grid's points and the tasks spawned before it, and joins the end of the continuation
queue (R151, R158, R165). A kernel that has faulted counts it all the same, answers with its index, and discards it at once, owing its
JOIN add: the model's reading of R158 (log 88). -/
def Obligations.SpawnsJoinTheQueue : Prop :=
  ∀ (s : State) (ctx : Nat) (k : Kernel) (r : Cont) (counted : Bool), ctx < 64 → s.kernel? k.id = some k →
    let u := s.spawn ctx k r counted
    let key (x : Cont) := (x.id, x.kid, x.w0, x.w1, x.w2, x.w3, x.index, x.counted)
    u.1 = (k.lr.points + k.spawns) % 2 ^ 32 ∧
    (k.st ≠ 8 →
      (∃ x : Cont, (u.2.ctx ctx).cq.map key = (s.ctx ctx).cq.map key ++ [key x] ∧ x.index = (k.lr.points + k.spawns) % 2 ^ 32 ∧
        x.kid = r.kid ∧ x.w1 = r.w1 ∧ x.counted = counted) ∧
      ∃ y : Kernel, u.2.kernel? k.id = some y ∧ y.spawns = k.spawns + 1 ∧ y.live = k.live + 1) ∧
    (k.st = 8 → (u.2.ctx ctx).cq = (s.ctx ctx).cq ∧ ∃ y : Kernel, u.2.kernel? k.id = some y ∧ y.spawns = k.spawns + 1 ∧
      y.live = k.live ∧ y.joins = k.joins ++ if r.join = 0 then [] else [r.join])

/-- RSB, RSE, GPNUM, GPWAIT and DFREE (R263 to R267): a section is entered and left, with a region that begins at next(PC); GPNUM reads
the number of the period, or asks for one; GPWAIT goes on once GPDONE has reached its target; DFREE runs thread by thread. -/
def Obligations.GraceInstructionsComplete : Prop :=
  (∀ (w : EWord) (s s₁ : State) (v : View) (live : LiveRecord), IssuesE sectionEnc w .boundary s v → v.w.depth ≠ 15 →
    Runs (Op.liveRecord v.c w.imm) s live s₁ →
    exec (.rsb w) s = .next (v.ended .boundary s
      ((s₁.acquire v.c.core).endSection v.c live fun x => { x with depth := x.depth + 1 }))) ∧
  (∀ (w : EWord) (s s₁ : State) (v : View) (live : LiveRecord), IssuesE sectionEnc w .boundary s v → v.w.depth ≠ 0 →
    Runs (Op.liveRecord v.c w.imm) s live s₁ → Runs (Op.release v.c (maskOf v.c.active)) s₁ () s₁ →
    exec (.rse w) s = .next (v.ended .boundary s
      (s₁.endSection v.c live fun x => ({ x with depth := x.depth - 1 } : Warp).leaveSection))) ∧
  (∀ (w : EWord) (s : State) (v : View), IssuesE encOfGpnum w .straight s v → v.c.parts ≠ [] → w.sub = 0 →
    exec (.gpnum w) s = .next (v.ended .straight s (v.onWarp s fun x =>
      v.c.units.foldl (fun x t => putResult v.c v.h .w64 x t (s.ctx v.c.ctx).gpreq) x))) ∧
  (∀ (w : EWord) (s : State) (v : View), IssuesE encOfGpnum w .straight s v → v.c.parts ≠ [] → w.sub = 1 → v.c.ctx < 64 →
    s.graceBad v.c.ctx = none → Runs (Op.release v.c (maskOf v.c.parts)) s () s →
    exec (.gpnum w) s = .next (v.ended .straight s (v.onWarp (s.requestGrace v.c.ctx) fun x =>
      v.c.units.foldl (fun x t => putResult v.c v.h .w64 x t ((s.ctx v.c.ctx).gpreq + 1)) x))) ∧
  (∀ (w : EWord) (s s₁ s₂ : State) (v : View) (p : Place), IssuesE encOfGpwait w .wait s v → v.c.parts ≠ [] →
    s.graceBad v.c.ctx = none → v.w.depth = 0 → v.w.held = 0 →
    let va := (s.ctx v.c.ctx).graceVa + 8
    s.agentAccess (s.agentWho v.c.ctx) .sgRead va 8 8 = (.ok p, s₁) →
    Waited v.c 0 (gpwaitFor v.c (v.seenE w) v.w va p) s₁ s₂ →
    exec (.gpwait w) s = .next (v.ended .wait s (s₂.waited v.c (gpwaitFor v.c (v.seenE w) v.w va p)))) ∧
  (∀ (w : EWord) (s t : State) (v : View), IssuesE encOfDfree w .straight s v →
    EachRuns v.c (Op.freeCheck v.c (v.seenE w)) (dfreeAct v.c (v.seenE w)) v.c.units s t →
    exec (.dfree w) s = .next (v.ended .straight s t))

/-- FEAT, IMPLQ, CLK, PERFRD and LNKQ give each unit one value (R348, R350, R375, R388), and TRCMK writes a MARK frame for each
(R384). -/
def Obligations.ReadsComplete : Prop :=
  let gives (v : View) (s : State) (x : W64) : State := v.ended .straight s (v.onWarp s fun y =>
    v.c.units.foldl (fun y t => putResult v.c v.h .w64 y t x) y)
  (∀ (w : EWord) (s : State) (v : View), IssuesE encOfFeat w .straight s v →
    exec (.feat w) s = .next (gives v s (BitVec.ofNat 64 v.c.prof))) ∧
  (∀ (w : EWord) (s : State) (v : View), IssuesE encOfImplq w .straight s v →
    exec (.implq w) s = .next (gives v s (vget v.w.implq w.imm.toNat 0))) ∧
  (∀ (w : EWord) (s : State) (v : View), IssuesE encOfClk w .straight s v →
    exec (.clk w) s = .next (gives v s (BitVec.ofNat 64
      (if w.sub = 0 then (s.core v.c.core).cycles else s.time / 2 ^ 20)))) ∧
  (∀ (w : EWord) (s : State) (v : View), IssuesE encOfPerfrd w .straight s v →
    exec (.perfrd w) s = .next (gives v s (BitVec.ofNat 64 (perfValue v.c s v.w (v.seenE w))))) ∧
  (∀ (w : EWord) (s : State) (v : View), IssuesE encOfLnkq w .straight s v →
    exec (.lnkq w) s = .next (gives v s (BitVec.ofNat 64 ((s.port w.imm.toNat).query w.sub.toNat)))) ∧
  (∀ (w : EWord) (s : State) (v : View), IssuesE encOfTrcmk w .straight s v →
    exec (.trcmk w) s = .next (v.ended .straight s (v.c.units.foldl (fun (x : State) t =>
      x.traceFrame v.c.task v.c.warp 6
        (markBody (read64 v.c v.w t v.h.a).toNat w.imm.toNat (if v.c.u then 0xFF else t.val) v.c.pc.toNat)) s)))

/-- SRRD and SRWR (R341, R349): a register that the context may read is read for every unit at once, and SUB 1 then clears the flags
returned; the units of SRWR write in increasing tid, and a write of TLBINV queues every unit's command. -/
def Obligations.SpecialRegistersComplete : Prop :=
  (∀ (w : EWord) (s : State) (v : View) (t : Task) (is : List (Tid × Nat)), IssuesE encOfSrrd w .straight s v →
    s.task? v.c.task = some t → is ≠ [] →
    Runs (Op.sysIndexes v.c (v.seenE w) fun s i => s.srrdFault v.c (sysNumber w) i w.sub.toNat) s is s →
    let s₁ := v.onWarp s fun x =>
      let x := is.foldl (fun (x : Warp) (p : Tid × Nat) => putResult v.c v.h .w64 x p.1 (s.sysRead t v.w (sysNumber w) p.2)) x
      if w.sub = 1 then { x with flags := x.flags &&& ~~~v.w.flags } else x
    exec (.srrd w) s = .next (v.ended .straight s (if w.sub = 1 then
      v.onWarp s₁ fun x => x.modThreads (if v.c.u then v.c.active else is.map (·.1)) .commit else s₁))) ∧
  (∀ (w : EWord) (s t : State) (v : View) (is : List (Tid × Nat)), IssuesE encOfSrwr w .straight s v → is ≠ [] →
    sysNumber w ≠ 0x06 → Runs (Op.sysIndexes v.c (v.seenE w) fun s i => s.srwrFault v.c (sysNumber w) i) s is s →
    EachRuns v.c (Op.sysIndexOf v.c (v.seenE w)) (srwrAct v.c (sysNumber w) fun t => read64 v.c v.w t v.h.a) v.c.units s t →
    exec (.srwr w) s = .next (v.ended .straight s t)) ∧
  (∀ (w : EWord) (s s₁ : State) (v : View) (is xs : List (Tid × Nat)), IssuesE encOfSrwr w .straight s v → is ≠ [] →
    sysNumber w = 0x06 → Runs (Op.sysIndexes v.c (v.seenE w) fun s i => s.srwrFault v.c (sysNumber w) i) s is s →
    Runs (Op.gatherFrom (fun t => Op.invRead v.c t (read64 v.c v.w t v.h.a).toNat) (is.map (·.1))) s xs s₁ →
    s₁.invq.length + xs.length ≤ invCap →
    exec (.srwr w) s = .next (v.ended .straight s (v.onWarp
      (xs.foldl (fun (s : State) (x : Tid × Nat) => s.queueInvalidation (Invalidation.parse x.2 (some v.c.ctx) v.c.priv))
        (s₁.acquire v.c.core))
      fun x => x.modThreads (if v.c.u then v.c.active else is.map (·.1)) .commit)))

/-- SGSET, SRWR, RESUME and KILL of a warp that is not privileged have no effect: the warp takes PRIVILEGED (R31, R42). That its mask is
the active set is the model's reading (log 29). SRRD is not privileged as an instruction. -/
def Obligations.PrivilegedWordsTrap : Prop :=
  (∀ w : EWord, (encOfSrrd w).priv = false) ∧
  ∀ (i : Instr) (s : State) (v : View),
    ((∃ w : EWord, i = .resume w ∧ issueView (fun h => encOfResume { w with h := h }) w.h w.imm s = some v) ∨
      (∃ w : EWord, i = .kill w ∧ issueView (fun h => encOfKill { w with h := h }) w.h w.imm s = some v) ∨
      (∃ w : EWord, i = .srwr w ∧ issueView (fun h => encOfSrwr { w with h := h }) w.h w.imm s = some v) ∨
      (∃ w : EWord, i = .sgset w ∧ issueView (fun h => encOfSgset { w with h := h }) w.h w.imm s = some v)) →
    v.c.priv = false → 1 ≤ v.c.prof →
    exec i s = .next (v.trapped s { cause := .privileged, mask := maskOf v.c.active })

/-- RESUME and KILL (R351): each unit's handle is resumed or killed in increasing tid, and its predicate says whether it was. -/
def Obligations.HandleInstructionsComplete : Prop :=
  let runs (act : State → Nat → Bool × State) (w : EWord) (v : View) (s : State) : State :=
    v.c.units.foldl (fun (x : State) t =>
      (act x (read64 v.c v.w t v.h.a).toNat).2.modWarp v.c.task v.c.warp fun y =>
        putPred v.c w.pi.toNat y t (act x (read64 v.c v.w t v.h.a).toNat).1)
      (v.onWarp s fun y => y.modThreads (if v.c.u then v.c.active else v.c.parts) .commit)
  (∀ (w : EWord) (s : State) (v : View), IssuesE encOfResume w .straight s v →
    exec (.resume w) s = .next (v.ended .straight s (runs (fun s h => s.resumeHandle v.c.ctx h) w v s))) ∧
  (∀ (w : EWord) (s : State) (v : View), IssuesE encOfKill w .straight s v →
    exec (.kill w) s = .next (v.ended .straight s (runs (fun s h => s.killHandle v.c.ctx h) w v s)))

/-! ## The matrix array, the codec and the engines (R270 to R334) -/

/-- WLOAD makes its plane Loading and waits, and goes on once the rows of its shape record, scales and metadata are latched in the plane
(R275, R285); the metadata come from the address that B had at the issue. WFREE makes a plane Empty (R286). On a plane that another
WLOAD loads, neither has an effect: the model's reading of R7 and R275 (log 56). -/
def Obligations.PlaneInstructionsComplete : Prop :=
  (∀ (w : TWord) (s s₁ : State) (v : View) (y : Plane) (t : Task) (x : Shape × Option TDesc), IssuesT wloadEnc w .straight s v →
    v.c.parts ≠ [] → s.task? v.c.task = some t → s.pendingOp v.c.core { task := v.c.task, warp := v.c.warp } 2 = none →
    Runs (Op.ownPlane v.c w.plane.toNat) s y s → Runs (Op.shape v.c v.w w.osrq.toNat) s x s₁ →
    x.1.rows ≤ 128 → x.1.cols ≤ largestK x.1.format → (v.h.b = 0xC8 ∨ x.1.cols % 2 = 0) →
    (∀ d, x.2 = some d → Runs (Op.coordinate v.c.whole v.w d x.1.tx x.1.ty) s₁ () s₁) →
    exec (.wload w) s = .next (if y.st = .loading then v.ended .straight s s₁ else v.stalled s
      ((s₁.modCore v.c.core fun q => q.issueOp (wloadOp v.c (v.seenT w) v.w t)).modPlane
        v.c.task w.plane.toNat fun p => { p with st := .loading })
      (s.loadStall v.c.core v.c.task (s.core v.c.core).nextOp w.plane.toNat))) ∧
  (∀ (i : WarpId) (s s₁ s₂ : State) (r : WarpRef) (o : MatOp) (k : TWord) (v : View) (t : Task) (x : Shape × Option TDesc)
      (rows : List Row × Option (List Byte)) (cols : List (List (Nat × Nat))), s.warpAt i.core i.warp = some r →
    s.pendingOp i.core r 2 = some o → o.word = some k → s.planeWaits i.core r.task o.n k.plane.toNat = false →
    s.coreRuns i.core = true → s.tableWaits i.core o = false →
    let s₀ : State := { s with issuer := some r }
    IssuesT wloadEnc k .straight s₀ v → s₀.task? v.c.task = some t → Runs (Op.shape v.c v.w k.osrq.toNat) s₀ x s₁ →
    Runs (Op.asWarp v.c.whole (Op.planeRows v.c (v.seenT k) o.maddr t x)) s₁ rows s₂ →
    planeColumns rows.1 rows.2 = some cols →
    let y : Plane :=
      { st := .loaded, fmt := x.1.fmt, k := if v.h.b = 0xC8 then x.1.cols else 2 * x.1.cols, n := x.1.rows,
        sparse := v.h.b != 0xC8, bs32 := x.1.bs32, unit := x.1.unit, cols := cols, scales := rows.1.map fun (row : Row) => row.2 }
    exec (.planeLoadComplete i) s = .next (s.guarded (v.ended .straight s₀
      (((s₂.dropOp v.c.core o.n).modPlane v.c.task k.plane.toNat fun _ => y).modCore v.c.core fun q =>
        { q.planeReady v.c.task k.plane.toNat y with idle := 0 })))) ∧
  (∀ (w : TWord) (s : State) (v : View) (y : Plane), IssuesT encOfWfree w .straight s v → v.c.parts ≠ [] →
    Runs (Op.ownPlane v.c w.plane.toNat) s y s →
    exec (.wfree w) s = .next (v.ended .straight s (if y.st = .loading then s else
      s.modPlane v.c.task w.plane.toNat fun _ => .empty_)))

/-- MMA (R274, R277, R287): one of register rows or of a tile takes a place in its quarter's port with its operands and goes on; one
of a shape record waits for its operands, and MMA_PORT_ENTRY lets it go on when they are held in the port. -/
def Obligations.MatrixMultiplyCompletes : Prop :=
  (∀ (w : TWord) (s s₁ : State) (v : View) (p : Plane) (t : Task), IssuesT mmaRegEnc w .straight s v → v.c.parts ≠ [] →
    s.task? v.c.task = some t → Runs (Op.ownTile v.c w.tile.toNat) s () s →
    Runs (Op.loadedPlane v.c w.plane.toNat (mmaPlace v.c (v.seenT w))) s p s → accepts p.fmt v.h.b.toNat = true →
    let f := (Fmt.ofCode v.h.b.toNat).getD .fp32
    let ns := if f.scaled && !w.md.getLsbD 3 then (p.k + 31) / 32 else 0
    v.h.a.toNat + (p.k * f.bits + 31) / 32 + ns ≤ v.c.regs →
    let rows := v.c.parts.map fun i => registerRow v.w i v.h.a.toNat f.bits p.k ns
    ((v.c.parts.zip rows).filter fun x => x.2.2.any fun y => !scaleOk y true) = [] →
    (s.core v.c.core).portLoad (v.c.lane / 8) < 4 →
    Runs (Op.tileWrite v.c w.tile.toNat (!w.md.getLsbD 0)) (s.takePlace v.c
      { mmaOp v.c t (v.seenT w) p with afmt := v.h.b.toNat, m := v.c.parts.length, kA := p.k, rows := rows, inPort := true }) () s₁ →
    exec (.mmaRegisters w) s = .next (v.ended .straight s s₁)) ∧
  (∀ (w : TWord) (s s₁ s₂ : State) (v : View) (p : Plane) (t : Task), IssuesT mmaTileEnc w .straight s v → v.c.parts ≠ [] →
    s.task? v.c.task = some t → Runs (Op.ownTile v.c w.tile.toNat) s () s → Runs (Op.ownTile v.c w.atile.toNat) s () s →
    Runs (Op.loadedPlane v.c w.plane.toNat (mmaPlace v.c (v.seenT w))) s p s → accepts p.fmt v.h.b.toNat = true → p.k ≤ 128 →
    (s.core v.c.core).portLoad (v.c.lane / 8) < 4 →
    Runs (Op.tileWrite v.c w.tile.toNat (!w.md.getLsbD 0 || w.atile == w.tile)) (s.takePlace v.c
      { mmaOp v.c t (v.seenT w) p with
        afmt := v.h.b.toNat, atile := some w.atile.toNat, m := v.h.c.toNat % 16 + 1, kA := p.k, inPort := true }) () s₁ →
    Runs (Op.tileRead v.c w.atile.toNat) s₁ () s₂ →
    exec (.mmaTile w) s = .next (v.ended .straight s s₂)) ∧
  (∀ (w : TWord) (s s₁ : State) (v : View) (p : Plane) (t : Task) (x : Shape × Option TDesc),
    IssuesT mmaShapeEnc w .straight s v → v.c.parts ≠ [] → s.task? v.c.task = some t →
    s.pendingOp v.c.core { task := v.c.task, warp := v.c.warp } 0 = none →
    Runs (Op.ownTile v.c w.tile.toNat) s () s →
    Runs (Op.loadedPlane v.c w.plane.toNat ((mmaPlace v.c (v.seenT w)).shaped v.w t w.osrq.toNat)) s p s →
    Runs (Op.shape v.c v.w w.osrq.toNat) s x s₁ → accepts p.fmt x.1.fmt = true → x.1.rows ≤ 16 → x.1.cols ≤ p.k →
    (∀ d, x.2 = some d → Runs (Op.coordinate v.c.whole v.w d x.1.tx x.1.ty) s₁ () s₁) →
    let held := (s₁.heldOp v.c).getD ((mmaOp v.c t (v.seenT w) p).shaped v.w t w.osrq.toNat)
    exec (.mmaShapeRecord w) s = .next (v.stalled s (s₁.takePlace v.c
      { mmaOp v.c t (v.seenT w) p with
        afmt := x.1.fmt, m := x.1.rows, kA := x.1.cols, coded := x.1.coded, bs32 := x.1.bs32, osr := held.osr, td := held.td })
      .memory)) ∧
  (∀ (i : WarpId) (s s₂ s₃ : State) (r : WarpRef) (o : MatOp) (k : TWord) (v : View) (t : Task),
    s.warpAt i.core i.warp = some r → s.pendingOp i.core r 0 = some o → o.word = some k →
    s.coreRuns i.core = true → s.tableWaits i.core o = false →
    let s₀ : State := { s with issuer := some r }
    IssuesT mmaShapeEnc k .straight s₀ v → s₀.task? v.c.task = some t →
    (if o.rows.isEmpty then ∃ x s₁ rows s', Runs (Op.shape v.c v.w k.osrq.toNat) s₀ x s₁ ∧
        Runs (Op.asWarp v.c.whole (Op.operandRows v.c.mover x.1 x.2 t.table)) s₁ rows s' ∧
        s₂ = (s'.modOp v.c.core o.n fun y => { y with rows := rows }).modCore v.c.core fun q => { q with idle := 0 }
      else s₂ = s₀) →
    (s₂.core v.c.core).portLoad o.quarter < 4 →
    Runs (Op.tileWrite v.c k.tile.toNat (!k.md.getLsbD 0)) (s₂.modOp v.c.core o.n fun y => { y with inPort := true }) () s₃ →
    exec (.mmaPortEntry i) s = .next (s.guarded (v.ended .straight s₀ s₃)))

/-- ACCRD, ACCWR and ACCZ, once every earlier operation that names their tile has retired (R280, R288, R289): the window of a row is
converted to registers, or written from them, and a tile is cleared. -/
def Obligations.TileInstructionsComplete : Prop :=
  (∀ (w : TWord) (s s₁ s₂ : State) (v : View) (t : Task), IssuesT accrdEnc w .straight s v → v.c.parts ≠ [] →
    Runs (Op.ownTile v.c w.tile.toNat) s () s → v.h.b.toNat + (v.seenT w).cols ≤ 128 →
    Runs (Op.tileTurn v.c w.tile.toNat) s () s₁ → s₁.task? v.c.task = some t →
    let outs := accrdGives v.c (v.seenT w) t
    let fl := outs.foldl (fun f x => f ||| rowFlags x) 0
    fl &&& v.c.fpte = 0 →
    let s₃ := if fl = 0 then s₁ else v.onWarp s₁ fun x => x.orFlags fl
    Runs (Op.tileRead v.c w.tile.toNat) (v.onWarp s₃ fun x => outs.foldl (fun x y =>
      x.modThread y.1 fun th => th.putRegs v.h.d.toNat (packWindow (v.seenT w).conv (y.2.map (·.1)))) x) () s₂ →
    exec (.accrd w) s = .next (v.ended .straight s s₂)) ∧
  (∀ (w : TWord) (s s₁ s₂ : State) (v : View) (x : Warp), IssuesT accwrEnc w .straight s v → v.c.parts ≠ [] →
    Runs (Op.ownTile v.c w.tile.toNat) s () s → v.h.b.toNat + (v.seenT w).cols ≤ 128 →
    Runs (Op.tileTurn v.c w.tile.toNat) s () s₁ → s₁.warp? v.c.task v.c.warp = some x →
    Runs (Op.tileWrite v.c w.tile.toNat false) s₁ () s₂ →
    exec (.accwr w) s = .next (v.ended .straight s (s₂.modTask v.c.task fun t =>
      v.c.parts.foldl (fun t i => t.putTile w.tile.toNat i.val v.h.b.toNat (accIn x i (v.seenT w))) t))) ∧
  (∀ (w : TWord) (s s₁ s₂ : State) (v : View), IssuesT encOfAccz w .straight s v → v.c.parts ≠ [] →
    Runs (Op.ownTile v.c w.tile.toNat) s () s → Runs (Op.tileTurn v.c w.tile.toNat) s () s₁ →
    Runs (Op.tileWrite v.c w.tile.toNat false) s₁ () s₂ →
    exec (.accz w) s = .next (v.ended .straight s (s₂.modTask v.c.task fun t => t.zeroTile w.tile.toNat)))

/-- ACCZ writes +0 to all 16 rows and 128 columns of TILE (R289), and to no other tile of its task. The word that the spec prints, accz c7,
names tile 7. -/
def Obligations.AcczClearsItsTile : Prop :=
  (∀ (w : TWord) (s s₁ s₂ : State) (v : View) (t : Task), IssuesT encOfAccz w .straight s v → v.c.parts ≠ [] →
    s.task? v.c.task = some t → Runs (Op.ownTile v.c w.tile.toNat) s () s → Runs (Op.tileTurn v.c w.tile.toNat) s () s₁ →
    Runs (Op.tileWrite v.c w.tile.toNat false) s₁ () s₂ →
    ∃ z t', exec (.accz w) s = .next z ∧ z.task? v.c.task = some t' ∧ ∀ row col, row < 16 → col < 128 →
      t'.tileAt w.tile.toNat row col = 0 ∧ ∀ n, n ≠ w.tile.toNat → t'.tileAt n row col = t.tileAt n row col) ∧
  decodeTableWord 96 0x0000_0000_0073_2323_2321_C685 = some (.accz
    { h := { plainHead with u := true }, plane := 0, tile := 7, osrq := 0, td := 0, ct := 0, asrc := 0, atile := 0, md := 0, z := 0 })

/-- DRAIN, TDLD, TLD, TST, CTLD, CTINV, BIXRD and POOLQ (R290, R328 to R333): a DRAIN takes its storage and goes on beside its warp; a
descriptor and a code table enter their slots; a window of a tile is decoded to registers, or replaced and published; entries of an
index and the counts of a pool are read. -/
def Obligations.CodecInstructionsComplete : Prop :=
  (∀ (w : TWord) (s s₁ s₂ s₃ : State) (v : View) (x : TDesc × Nat × CodeTable) (t t' : Task) (p : Placing),
    IssuesT drainEnc w .straight s v → v.c.parts ≠ [] → s.task? v.c.task = some t → Runs (Op.tableTurn v.c) s () s →
    Runs (Op.drainChecks v.c (v.seenT w) v.w) s x s₁ → Runs (Op.turnOf v.c w.tile.toNat) s₁ () s₁ →
    Runs (Op.encoderTurn v.c) s₁ () s₁ → Runs (Op.entryFree v.c x.2.1) s₁ () s₂ → Runs (Op.release v.c v.c.whole) s₂ () s₂ →
    s₂.task? v.c.task = some t' →
    let q := drainMakes (v.seenT w) v.w t' (v.c.active.headD 0) x.1
    Runs (Op.asWarp v.c.whole (Op.placeDrain v.c (v.seenT w) x (drainSg v.c (v.seenT w) v.w) q.1.1)) s₂ p s₃ →
    let s₄ := s₃.leavePlace v.c
    exec (.drain w) s = .next (v.ended .straight s ((v.onWarp s₄ fun y => y.modThreads v.c.active .commit).keepDrain v.c
      (v.c.drainOp s₄ t v.w x.1 p (drainSg v.c (v.seenT w) v.w) (q.1.2 &&& (flagSU ||| flagSN))) (v.c.active.headD 0) q.2))) ∧
  (∀ (w : TWord) (s s₁ : State) (v : View) (bs : List Byte), IssuesT encOfTdld w .straight s v → v.c.parts ≠ [] →
    Runs (Op.plainRecord v.c 64 1 (read64 v.c v.w (v.c.active.headD 0) v.h.a).toNat) s bs s₁ → tdescOk (ofBytes bs) = true →
    exec (.tdld w) s = .next (v.ended .straight s (s₁.modTask v.c.task fun t =>
      { t with td := vset t.td w.td.toNat (BitVec.ofNat 512 (ofBytes bs)) }))) ∧
  (∀ (w : TWord) (s s₁ s₂ : State) (v : View) (r : Shape × TDesc) (t : Task) (y : TileData),
    IssuesT tldEnc w .straight s v → v.c.parts ≠ [] → (s.task? v.c.task).isSome = true → Runs (Op.tableTurn v.c) s () s →
    Runs (Op.windowChecks v.c v.w (v.seenT w) (tldWindow (v.seenT w)) v.h.d.toNat fun _ => false) s r s₁ →
    s₁.task? v.c.task = some t →
    Runs (Op.asWarp v.c.whole (Op.decode v.c.mover 8 r.2 r.1.td r.1.tx r.1.ty t.table)) s₁ y s₂ →
    let s₃ := s₂.leavePlace v.c
    let outs := tldGives v.c (tldWindow (v.seenT w)) r.2 y
    let fl := outs.foldl (fun f x => f ||| rowFlags x) 0
    fl &&& v.c.fpte = 0 →
    exec (.tld w) s = .next (v.ended .straight s
      (v.onWarp (if fl = 0 then s₃ else v.onWarp s₃ fun x => x.orFlags fl) fun x => outs.foldl (fun x z =>
        x.modThread z.1 fun th => th.putRegs v.h.d.toNat (z.2.map (·.1))) x))) ∧
  (∀ (w : TWord) (s s₁ s₂ s₃ : State) (v : View) (r : Shape × TDesc) (t : Task) (ct : CodeTable) (old : Nat × TileData),
    IssuesT tstEnc w .straight s v → v.c.parts ≠ [] → (s.task? v.c.task).isSome = true → Runs (Op.tableTurn v.c) s () s →
    Runs (Op.windowChecks v.c v.w (v.seenT w) (tstWindow (v.seenT w)) v.h.a.toNat
      fun d => d.fmt == 6 && (tstCode (v.seenT w) == 1 || tstCode (v.seenT w) == 2)) s r s₁ →
    s₁.task? v.c.task = some t → t.table r.2.dct = some ct → Runs (Op.encoderTurn v.c) s₁ () s₁ →
    ((s₁.core v.c.core).drains.any fun (o : DrainOp) => !o.published) = false →
    Runs (Op.release v.c v.c.whole) s₁ () s₁ → Runs (Op.asWarp v.c.whole (Op.oldTile v.c r.1 r.2 t.table)) s₁ old s₂ →
    let xs := tstGives v.c (v.seenT w) v.w r.2
    ((tstWindow (v.seenT w)).raw = true → ∀ y ∈ xs, ∀ z ∈ y.2.2.words, scaleOk z r.2.bs32 = true) →
    tstFlags xs &&& v.c.fpte = 0 →
    Runs (Op.storeTile v.c r.1 r.2 ct old.1 (xs.foldl (fun t y => t.supply r.2 y.2.1 (tstWindow (v.seenT w)).w y.2.2) old.2))
      s₂ () s₃ →
    exec (.tst w) s = .next (v.ended .straight s (v.onWarp (s₃.leavePlace v.c) fun x =>
      (xs.foldl (fun x y => x.modThread y.1 fun th => { th with seed := y.2.2.seed })
        (x.modThreads (if v.c.u then v.c.active else v.c.parts) .commit)).orFlags (tstFlags xs)))) ∧
  (∀ (w : TWord) (s s₁ : State) (v : View) (bs : List Byte) (x : CodeTable) (t : Task), IssuesT encOfCtld w .straight s v →
    v.c.parts ≠ [] → Runs (Op.tablesFree v.c) s () s →
    Runs (Op.plainRecord v.c 32 9 (read64 v.c v.w (v.c.active.headD 0) v.h.a).toNat) s bs s₁ → tableOfRecord bs = some x →
    s₁.task? v.c.task = some t → w.ct.toNat < t.ctn →
    exec (.ctld w) s = .next (v.ended .straight s ((s₁.modTask v.c.task fun t =>
      { t with ctSlots := t.ctSlots.set w.ct.toNat (some x) }).leavePlace v.c))) ∧
  (∀ (w : TWord) (s : State) (v : View) (t : Task), IssuesT encOfCtinv w .straight s v → v.c.parts ≠ [] →
    Runs (Op.tablesFree v.c) s () s → s.task? v.c.task = some t → w.ct.toNat < t.ctn →
    exec (.ctinv w) s = .next (v.ended .straight s ((s.modTask v.c.task fun t =>
      { t with ctSlots := t.ctSlots.set w.ct.toNat none }).leavePlace v.c))) ∧
  (∀ (w : TWord) (s s₁ s₂ s₃ : State) (v : View) (d : TDesc) (as : List (Tid × Aimed)) (vs : List (Tid × Nat)),
    IssuesT encOfBixrd w .straight s v → v.c.parts ≠ [] → Runs (Op.keptDescriptor v.c w.td.toNat) s d s₁ →
    (w.md.getLsbD 3 = true → d.rbix ≠ 0) → Runs (Op.gather v.c (Op.aimEntry v.c (v.seenT w) v.w d)) s₁ as s₂ →
    Runs (Op.readEntries v.c as) s₂ vs s₃ →
    exec (.bixrd w) s = .next (v.ended .straight s (v.onWarp (s₃.acquire v.c.core) fun x => vs.foldl (fun x y =>
      putWide v.c v.h.d x y.1 (BitVec.ofNat 64 y.2) (BitVec.ofNat 64 (y.2 / 2 ^ 64))) x))) ∧
  (∀ (w : EWord) (s s₁ : State) (v : View) (vs : List (Tid × W64)), IssuesE encOfPoolq w .straight s v →
    Runs (Op.gather v.c fun t => Op.asWarp (v.c.maskAt t) (Op.poolCount v.c (v.seenE w) v.w t)) s vs s₁ →
    exec (.poolq w) s = .next (v.ended .straight s (v.onWarp s₁ fun x =>
      vs.foldl (fun x y => putBare v.c v.h.d .w64 x y.1 y.2) x)))

/-- CPY, CPY2, CPYT and XFORM place commands thread by thread (R296, R299, R334); GSET and GCLR set and clear a guard (R303); STADV adds
to the stage of the task and releases what has come due (R306). -/
def Obligations.EngineInstructionsComplete : Prop :=
  (∀ (w : EWord) (s t : State) (v : View), IssuesE encOfCpy w .straight s v →
    EachRuns v.c (Op.copyCheck cpyKind (fun _ _ _ _ => true) v.c (v.seenE w)) (copyAct v.c (v.seenE w)) v.c.units s t →
    exec (.cpy w) s = .next (v.ended .straight s t)) ∧
  (∀ (w : EWord) (s t : State) (v : View), IssuesE encOfCpy2 w .straight s v →
    EachRuns v.c (Op.copyCheck cpy2Kind cpy2Plain v.c (v.seenE w)) (copyAct v.c (v.seenE w)) v.c.units s t →
    exec (.cpy2 w) s = .next (v.ended .straight s t)) ∧
  (∀ (w : EWord) (s t : State) (v : View), IssuesE encOfCpyt w .straight s v →
    EachRuns v.c (Op.copyCheck cpytKind (fun _ _ _ _ => true) v.c (v.seenE w)) (copyAct v.c (v.seenE w)) v.c.units s t →
    exec (.cpyt w) s = .next (v.ended .straight s t)) ∧
  (∀ (w : EWord) (s t : State) (v : View), IssuesE xformEnc w .straight s v →
    EachRuns v.c (Op.xfCommand v.c (v.seenE w)) (xformAct v.c (v.seenE w)) v.c.units s t →
    exec (.xform w) s = .next (v.ended .straight s t)) ∧
  (∀ (w : EWord) (s : State) (v : View) (t : Task), IssuesE encOfGset w .straight s v → v.c.parts ≠ [] →
    s.task? v.c.task = some t → vget t.gd (w.imm.toNat % 32) .unresolved = .unresolved →
    let yes := if w.sub = 1 then vget v.w.s (v.h.a.toNat - 0x80) 0 != 0 else w.imm.getLsbD 8
    exec (.gset w) s = .next (v.ended .straight s (s.modTask v.c.task fun t =>
      { t with gd := vset t.gd (w.imm.toNat % 32) (if yes then .isTrue else .isFalse) }))) ∧
  (∀ (w : EWord) (s : State) (v : View), IssuesE encOfGclr w .straight s v → v.c.parts ≠ [] →
    exec (.gclr w) s = .next (v.ended .straight s (s.modTask v.c.task fun t =>
      { t with gd := vset t.gd (w.imm.toNat % 32) .unresolved }))) ∧
  (∀ (w : EWord) (s s₁ : State) (v : View) (t : Task), IssuesE encOfStadv w .straight s v → v.c.parts ≠ [] →
    s.task? v.c.task = some t → t.sched ≠ [] → t.stage + w.imm.toNat < 2 ^ 32 → Runs (Op.commit v.c v.c.active) s () s₁ →
    exec (.stadv w) s = .next (v.ended .straight s (v.onWarp
      ((s₁.modTask v.c.task fun t => { t with stage := t.stage + w.imm.toNat }).releaseSchedule v.c.task v.c.warp v.c.pc.toNat)
      fun x => putUniform v.c v.h .w64 x (BitVec.ofNat 64 t.stage))))

/-! ## Queues and engines (R138 to R141, R294 to R308) -/

/-- The commands of a queue (R141): each transition of the table, with DRAIN stopping at the value that FILL has, at once when the
queue has read that far, ENABLE waiting for the queue's record to be taken (R358) and counting the appends from FILL (log 140, the
model's choice), and SKIP and RETRY acting once the record has been taken (R358): SKIP retires the head, and a ring that was overrun as
it began then makes the queue Errored again (R140). A command that the table does not list for the state is ignored; and one that comes
while an entry is being retired waits until it has been (log 141, the model's reading). -/
def Obligations.QueueCommandsFollowTheTable : Prop :=
  (∀ (q : Nat) (s : State), s.mgmt.boot = 3 → q < 64 →
      let x := s.queue q
      let quiet (t : State) : Prop := (t.queue q).retiring = 0 ∧ (t.queue q).later = []
      let gives (i : Instr) (t : State) : Prop := exec i s = .next (s.guarded (t.dropAnswers (.queue q)))
      let serving := x.st = .enabled ∨ x.st = .running ∨ x.st = .blocked
      (∀ d s₁ rel s₂ fill s₃, quiet s → x.st = .disabled → s.queueRecorded q = false → x.appending = none → Runs (Op.queueRing q) s d s₁ → Runs (Op.queueSg q 20 d.rel) s₁ rel s₂ →
        Runs (Op.queueSg q 21 d.fill) s₂ fill s₃ → quiet s₃ →
        gives (.queueEnable q) (s₃.modQueue q fun y =>
          { y with st := .enabled, rdpos := BitVec.ofNat 64 rel, appends := fill, drain := none, head := none, age := 0,
                   served := 0 })) ∧
      (quiet s → x.st = .drained → gives (.queueEnable q) (s.modQueue q fun y => { y with st := .enabled })) ∧
      (quiet s → x.st ≠ .disabled →
        gives (.queueDisable q) (s.dropHead q fun y => { y with st := .disabled, drain := none })) ∧
      (quiet s → serving → gives (.queueSuspend q) (s.dropHead q fun y => { y with st := .suspended })) ∧
      (quiet s → x.st = .suspended → gives (.queueResume q) (s.modQueue q fun y => { y with st := .enabled })) ∧
      (∀ how s₁ s₂, quiet s → x.st = .errored → x.told = true → Runs (Op.skipHow q) s how s₁ →
        Runs (Op.retireHead q how) s₁ () s₂ → quiet s₂ →
        let s₃ := s₂.modQueue q fun y => if y.st = .drained then y else { y with st := .enabled }
        (how = 2 ∨ how = 3) ∧ gives (.queueSkip q) (if how = 3 then s₃.queueError q .queueEntry 0 0 else s₃)) ∧
      (quiet s → x.st = .errored → x.told = true → gives (.queueRetry q) (s.modQueue q fun y => { y with st := .enabled })) ∧
      (quiet s → x.st = .errored → x.told = false → gives (.queueSkip q) (s.modQueue q fun y => { y with todo := 1 }) ∧
        gives (.queueRetry q) (s.modQueue q fun y => { y with todo := 2 })) ∧
      (∀ d s₁ fill s₂, quiet s → serving ∨ x.st = .suspended → Runs (Op.queueRing q) s d s₁ →
        Runs (Op.queueSg q 23 d.fill) s₁ fill s₂ → quiet s₂ →
        gives (.queueDrain q) (if fill = x.rdpos.toNat then s₂.dropHead q fun y => { y with st := .drained, drain := none }
          else s₂.modQueue q fun y => { y with st := .running, drain := some fill })) ∧
      (x.retiring ≠ 0 →
        let waits (i : Instr) (n : Nat) : Prop := exec i s = .next (s.guarded (s.modQueue q fun y => { y with later := y.later ++ [n] }))
        waits (.queueEnable q) 1 ∧ waits (.queueDisable q) 2 ∧ waits (.queueSuspend q) 3 ∧ waits (.queueResume q) 4 ∧
        waits (.queueSkip q) 5 ∧ waits (.queueRetry q) 6 ∧ waits (.queueDrain q) 7)) ∧
  (∀ (q : Nat) (s : State), s.mgmt.boot = 3 → q < 64 → (s.queue q).retiring = 0 → (s.queue q).later = [] →
      let x := s.queue q
      let ignored (i : Instr) : Prop := exec i s = .next (s.dropAnswers (.queue q))
      let serving := x.st = .enabled ∨ x.st = .running ∨ x.st = .blocked
      (x.st ≠ .disabled → x.st ≠ .drained → ignored (.queueEnable q)) ∧ (x.st = .disabled → ignored (.queueDisable q)) ∧
      (¬ serving → ignored (.queueSuspend q)) ∧ (x.st ≠ .suspended → ignored (.queueResume q)) ∧
      (x.st ≠ .errored → ignored (.queueSkip q)) ∧ (x.st ≠ .errored → ignored (.queueRetry q)) ∧
      (¬ serving → x.st ≠ .suspended → ignored (.queueDrain q)))

/-- The head of a queue (R138 to R141, R147): a served queue looks at its ring, reading an entry when it holds none and judging the one
that it holds; a retirement that awaits a peer goes on, and so do the commands that wait; the priority of a ready head grows with each full millisecond of waiting; the
queue that the distributor selects, its ring looked at once more, submits its head, which is retired and becomes a Ready kernel with the
next number. -/
def Obligations.QueueHeadsComplete : Prop :=
  (∀ (q : Nat) (s t : State), (t.queue q).retiring = 0 → (t.queue q).later = [] →
    ((s.mayLook q = true ∧ Runs (Op.lookAt q) s () t) ∨ (s.retires q = true ∧ Runs (Op.goOnRetiring q) s () t)) →
    exec (.queueHeadRead q) s = .next (s.guarded (t.dropAnswers (.queue q)))) ∧
  (∀ (q : Nat) (s : State), s.mayLook q = false → s.retires q = false → s.mgmt.boot = 3 → q < 64 →
    exec (.queueHeadRead q) s = .next (s.guarded (s.goOnCommands q))) ∧
  (∀ (q : Nat) (s s₁ s₂ : State) (h : QueueHead) (x : RingDesc × Nat), s.headReady q = true → s.mayLook q = true →
    s.selected = some q → Runs (Op.checkFill q) s x s₁ → s₁.headReady q = true → (s₁.queue q).head = some h →
    Runs (Op.retireHead q 1) (s₁.countTurn q) () s₂ → (s₂.queue q).retiring = 0 → (s₂.queue q).later = [] →
    exec (.queueHeadSubmit q) s = .next (s.guarded (({ s₂ with
      kernels := s₂.kernels ++ [h.kernel s₂.nextId (s₂.queue q).ctx q], nextId := s₂.nextId + 1 } : State).dropAnswers
        (.queue q)))) ∧
  (∀ (q : Nat) (s : State), s.headReady q = true →
    s.priority q = min 7 ((s.queue q).pri + s.readyFor q) ∧
    (s.turn ≠ some q ∨ s.priority q = min 7 ((s.queue q).pri + (s.queue q).age) →
      exec (.queuePriorityAge q) s = .next (s.guarded (s.modQueue q fun y => { y with age := s.readyFor q }))) ∧
    (s.turn = some q → s.priority q ≠ min 7 ((s.queue q).pri + (s.queue q).age) →
      exec (.queuePriorityAge q) s = .next (s.guarded ((s.endTurn q).modQueue q fun y => { y with age := s.readyFor q })))) ∧
  (∀ (h : QueueHead) (id ctx q : Nat), (h.kernel id ctx q).st = 2 ∧ (h.kernel id ctx q).handle = none ∧
    (h.kernel id ctx q).args = h.args ∧ (h.kernel id ctx q).lrec = h.lrec)

/-- The engines (R294, R297, R298, R300, R302, R307, R308, R334): in state 3, with its record taken, RETRY makes the head run again
and DROP discards it (what a ring copy does again after its add to FILL: log 144); an idle engine's head runs, is held on an
unresolved guard, or is discarded on a False one with its completion add; a running head whose work is done leaves with its
completion; and one that fails stops its engine in state 3, with the commands as they were. -/
def Obligations.EnginesComplete : Prop :=
  (∀ (core : Nat) (s : State),
      ((s.engine core false).st = 3 → (s.engine core false).pushed = true →
        exec (.copyEngineRetry core) s = .next (s.guarded ((s.modHead core false fun c => c.again false).modEngine core false fun e =>
          { e with st := 0, pushed := false, todo := 0 })) ∧
        exec (.copyEngineDrop core) s = .next (s.guarded (s.endHead core false 3))) ∧
      ((s.engine core true).st = 3 → (s.engine core true).pushed = true →
        exec (.xformEngineRetry core) s = .next (s.guarded ((s.modHead core true fun c => c.again true).modEngine core true
          fun e => { e with st := 0, pushed := false, todo := 0 })) ∧
        exec (.xformEngineDrop core) s = .next (s.guarded (s.endHead core true 3)))) ∧
  ((∀ (core : Nat) (s : State) (cmd : EngineCmd) (rest : List EngineCmd), core < 192 → (s.engine core false).queue = cmd :: rest →
      (s.engine core false).st = 0 ∨ (s.engine core false).st = 2 → s.mayRun cmd.ctx = true → cmd.stopped = none →
      (s.guardOf cmd = .run →
        exec (.copyCommandStart core) s = .next (s.guarded (s.modEngine core false fun e => { e with st := 1 }))) ∧
      (s.guardOf cmd = .held →
        exec (.copyCommandStart core) s = .next (s.guarded (s.modEngine core false fun e => { e with st := 2 }))) ∧
      ∀ s₁, s.guardOf cmd = .discard → Runs (Op.completionAdd (cmd.mover core false) 0 cmd)
          (s.modHead core false fun c => { c with dropped := true }) () s₁ →
        exec (.copyCommandStart core) s = .next (s.guarded ((s₁.endHead core false 3).dropAnswers (.copy core)))) ∧
    (∀ (core : Nat) (s s₁ : State) (cmd : EngineCmd), s.copyRuns core = some cmd →
      (cmd.kind.isRing = false → Runs (Op.copyWork core (cmd.mover core false) cmd) s true s₁ →
        exec (.copyCommandComplete core) s = .next (s.guarded ((s₁.endHead core false 1).dropAnswers (.copy core)))) ∧
      (cmd.kind.isRing = true → Runs (Op.ringWork core (cmd.mover core false) cmd) s true s₁ →
        exec (.ringCopyWrite core) s = .next (s.guarded ((s₁.endHead core false 1).dropAnswers (.copy core)))) ∧
      ∀ x : Trap, cmd.kind.isRing = false → Op.copyWork core (cmd.mover core false) cmd s = .error (.trapAt s₁ x) → core < 192 →
        (s₁.engine core false).queue ≠ [] →
        ∃ u, exec (.copyCommandComplete core) s = .next u ∧ (u.engine core false).st = 3 ∧
          (u.engine core false).queue = (s₁.engine core false).queue) ∧
    (∀ (cluster core : Nat) (s : State), (∀ c ∈ coresOf cluster, ((s.xfHold cluster).engine c true).st ≠ 1) →
      (s.xfHold cluster).xfNext cluster = some core →
      exec (.xformCommandStart cluster) s = .next (s.guarded
        (({ s.xfHold cluster with xfTurn := vset (s.xfHold cluster).xfTurn cluster (core % 4) } : State).startHead core true))) ∧
    (∀ (cluster core : Nat) (s s₁ : State) (cmd : EngineCmd) (rest : List EngineCmd) (fin : Bool),
      ((coresOf cluster).find? fun c => (s.engine c true).st == 1) = some core → (s.engine core true).queue = cmd :: rest →
      s.mayRun cmd.ctx = true → Runs (Op.xfWork core (cmd.mover core true) cmd) s fin s₁ →
      exec (.xformCommandComplete cluster) s = .next (s.guarded
        ((if fin then s₁.endHead core true 1 else s₁).dropAnswers (.xform core)))))


/-! ## Kernels, tasks and grace periods (R147 to R162, R261 to R269) -/

/-- The life of a kernel (R147, R149 to R151, R158, R159, R162): a Ready kernel takes the lowest free handle and expands, or is
Cancelled when its condition word holds 0; it expands while the continuation queue has room, at most `curveSteps` places of its curve in
one step (log 83, the model's choice); a core brings back a saved task of its context that waits for room (log 33, the model's choice),
goes on with the task it places, or takes the record it may; a task whose timer has run out is suspended; a task whose warps are all Done ends; and a kernel whose tasks
are gone is completed. -/
def Obligations.KernelEventsComplete : Prop :=
  (∀ (kid h : Nat) (s : State) (k : Kernel), s.kernel? kid = some k → s.freeHandle = some h → k.st = 2 → s.mayRun k.ctx = true →
    s.recordRoom k.ctx = true →
    (k.lr.cond = 0 → exec (.kernelStart kid) s = .next (s.guarded (s.modKernel kid fun k =>
      { k with handle := some h, st := 3, live := k.lr.points, counted := 16 * (k.lr.warps + 1) * k.lr.points }))) ∧
    ∀ x s₁, k.lr.cond ≠ 0 → s.agentRead (.kernel kid) 0 k.ctx .load k.lr.cond.toNat 4 4 = (.ok x, s₁) →
      (x ≠ 0 → exec (.kernelStart kid) s = .next (s.guarded ((s₁.modKernel kid fun k =>
        { k with handle := some h, st := 3, live := k.lr.points, counted := 16 * (k.lr.warps + 1) * k.lr.points }).dropAnswers
          (.kernel kid)))) ∧
      (x = 0 → exec (.kernelStart kid) s = .next (s.guarded ((s₁.modKernel kid fun k =>
        { k with handle := some h, st := 9 }).dropAnswers (.kernel kid))))) ∧
  (∀ (kid : Nat) (s : State) (k : Kernel), s.kernel? kid = some k → k.st = 3 → s.mayRun k.ctx = true →
    s.recordRoom k.ctx = true →
    (k.lr.points ≤ k.pushed →
      exec (.kernelExpansion kid) s = .next (s.guarded (((s.modKernel kid fun k => { k with st := 4 }).trigger kid).lastEnded kid))) ∧
    (k.pushed < k.lr.points → (s.ctx k.ctx).cqCap ≤ (s.ctx k.ctx).cq.length → exec (.kernelExpansion kid) s = .next s) ∧
    exec (.kernelExpansion kid) s = .next (s.guarded (s.expand kid curveSteps))) ∧
  (∀ (core ctx : Nat) (s : State), s.ctxOfCore core = some ctx → core < 192 → s.mayRun ctx = true → (s.ctx ctx).moving = false →
    (∀ t r, s.waitingBack core ctx = some (t, r) → exec (.corePlacement core) s = .next (s.guarded (s.putBack core t r))) ∧
    (∀ t, s.waitingBack core ctx = none → s.placing core = some t →
      exec (.corePlacement core) s = .next (s.guarded (s.runPlacing core t.id))) ∧
    ∀ k x room k' room' s₁ s₂, s.waitingBack core ctx = none → s.placing core = none →
      Runs (Op.chooseRecord core ctx (s.byPriority ctx)) s (some (k, x, room)) s₁ → Runs (Op.rereadRecord core k) s₁ k' s₂ →
      s₂.roomFor core k'.lr = some room' →
      exec (.corePlacement core) s =
        .next (s.guarded (((s₂.takeRecord core k' x room').dropPlaceAnswers core).runPlacing core s₂.nextId))) ∧
  (∀ (task : Nat) (s : State) (t : Task), s.task? task = some t → t.timer = some 0 → t.core ≠ none → t.ended = false →
    s.mayRun t.ctx = true →
    exec (.taskTimeout task) s = .next (s.guarded ((s.modTask task fun t =>
      { t with timer := none,
               warps := t.warps.map fun w => if w.st = .done then w else { w with pendTimeout := true } }).takePending task))) ∧
  (∀ (task : Nat) (s : State) (t : Task), s.task? task = some t → s.agentsRun t.ctx = true → s.recordRoom t.ctx = true →
    t.ended = false → t.core ≠ none → (∀ w ∈ t.warps, w.st = .done) →
    exec (.taskEnd task) s = .next (s.guarded ((s.endTask t).clearTask task))) ∧
  (∀ (kid : Nat) (s : State) (k : Kernel), s.kernel? kid = some k → s.agentsRun k.ctx = true → k.joins = [] → s.kernelOver k = true →
    exec (.kernelComplete kid) s = .next (s.guarded (s.completeKernel k)))

/-- A grace period starts when one is asked for and none runs: every warp in a section is marked, and GPREQ grows. It ends when no
mark is left and no store of an ended warp nor a word of the engine's own is still on its way to a peer (R370): GPDONE grows, and
what is due is freed (R261, R267 to R269). -/
def Obligations.GraceEventsComplete : Prop :=
  (∀ (ctx : Nat) (s : State), s.agentsRun ctx = true → (s.ctx ctx).req = true → (s.ctx ctx).run = false → s.recordRoom ctx = true →
    exec (.gracePeriodStart ctx) s = .next (s.guarded (((({ s with tasks := s.tasks.map fun t => if t.ctx = ctx then
        { t with warps := t.warps.map fun w => if w.depth != 0 || w.held != 0 then { w with mark := true } else w } else t } :
      State).modCtx ctx fun c => { c with req := false, run := true, gpreq := c.gpreq + 1 }).graceAdd ctx 0)))) ∧
  (∀ (ctx : Nat) (s : State), s.agentsRun ctx = true → (s.ctx ctx).run = true →
    (∀ t ∈ s.tasks, t.ctx = ctx → ∀ w ∈ t.warps, w.mark = false) → s.endedStores ctx = false → s.graceOut ctx = false →
    s.recordRoom ctx = true →
    exec (.gracePeriodEnd ctx) s = .next (s.guarded
      (((s.modCtx ctx fun c => { c with run := false, gpdone := c.gpdone + 1 }).graceAdd ctx 8).freeEntries ctx))) ∧
  (∀ (ctx : Nat) (s : State), s.agentsRun ctx = true →
    exec (.deferredFreeDeliver ctx) s = .next (s.guarded (s.freeEntries ctx)))

/-! ## The matrix array (R276 to R278, R290, R291) -/

/-- The matrix array: an idle array takes the next pass, which holds at most 64 rows, of heads that name one plane, one task and one
format; the pass leaves it; the oldest pass that has left retires its rows into their
tiles (R278). A drained tile is published with its entry and its completion add (R290). An engine without an advance for 2^20 cycles is
reset (R291), once the deferred-free queues have room for the extents of the DRAINs that it gives up: the model's choice (log 158). -/
def Obligations.MatrixEventsComplete : Prop :=
  (∀ (k : Core) (o x : MatOp), (∀ y ∈ k.ops, y.m ≤ 64) → o ∈ k.nextPass → x ∈ k.nextPass →
    o.physPlane = x.physPlane ∧ o.task = x.task ∧ o.afmt = x.afmt ∧ (k.nextPass.map (·.m)).sum ≤ 64) ∧
  ∀ (core : Nat) (s : State), s.coreRuns core = true →
    (∀ lead rest, (s.core core).inArray = [] → (s.core core).nextPass = lead :: rest →
      exec (.matrixPass core) s = .next (s.guarded (s.modCore core fun k =>
        { k with
          ops := k.ops.map fun o => if (lead :: rest).any (fun x => x.n == o.n) then o.takeRows s else o,
          inArray := (lead :: rest).map fun o => o.n, lastLead := lead.quarter, idle := 0 }))) ∧
    ((s.core core).inArray ≠ [] →
      exec (.passLeavesArray core) s = .next (s.guarded (s.modCore core fun k =>
        { k with
          ops := k.ops.map fun o => if k.inArray.contains o.n then { o with left := true } else o,
          inArray := [], leaving := k.leaving ++ [k.inArray], idle := 0 }))) ∧
    (∀ ns rest, (s.core core).leaving = ns :: rest →
      exec (.passRetire core) s = .next (s.guarded
        ((((s.core core).ops.filter fun o => ns.contains o.n).foldl
          (fun (x : State) (o : MatOp) => x.modTask o.task fun t => t.retireMma o) s).modCore core fun k =>
            { k with ops := k.ops.filter (fun o => !ns.contains o.n), leaving := rest }))) ∧
    (∀ o rest, (s.core core).drains = o :: rest → o.published = false → s.poisonedPiece (o.block ++ o.entry) = none →
      exec (.drainPublish core) s = .next (s.guarded
        (((((s.writePieces o.block).writePieces o.entry).unreserve o).tryDefer o.ctx o.pool o.old).finishDrain core o))) ∧
    (2 ^ 20 ≤ (s.core core).idle → s.abandonsAll core (s.core core).drains = true → exec (.matrixReset core) s = .next (s.guarded (s.resetEngine core)))

/-! ## Other steps of the device -/

/-- Steps of a warp that no instruction makes: a switch on a memory or fetch stall of more than 64 cycles, a lane's quantum (R73),
the delivery of a wake (R127), which stops a warp whose record is outside its limits (R378; log 94, the model's choice) and before the
last stalagmite is satisfied frees the entries of the others, a wait that is presented again (R124), and one that runs out of time, which
takes SG_WAIT_TIMEOUT for every participant still unmet (R126). The model's choices: a wait that a peer refused is presented again there
(log 116), from its start when its address no longer leads to its stalagmite (R198), and a participant at a peer is judged by the value
that the peer has answered last, asked for at the timeout where other participants of the stalagmite wait for more (log 139). -/
def Obligations.WarpEventsComplete : Prop :=
  ∀ (i : WarpId) (s : State) (r : WarpRef) (w : Warp), s.warpAt i.core i.warp = some r → s.warp? r.task r.warp = some w →
    (w.st = .running → w.mac = none → w.stall.map Stall.ofMemory = some true → 64 < w.stalled → s.mayRun (s.ctxOf r.task) = true →
      exec (.stallSwitch i) s = .next (s.guarded (s.freeSwitch r.task r.warp))) ∧
    exec (.warpQuantum i) s = .next (s.guarded (s.modWarp r.task r.warp fun x =>
      if x.st = .running ∧ 512 ≤ x.since then { x with quantum := true } else x)) ∧
    (∀ y, w.st = .blocked → w.wait = some y → y.woken = true →
      let u : State := { s with waiters := s.waiters.filter fun z => z.who != .warp r.task r.warp }
      exec (.wakeDelivery i) s = .next (s.guarded (if w.bad then u.stopBad (u.ctxOf r.task) r.task r.warp
        else u.modWarp r.task r.warp fun x => { x with st := .ready }))) ∧
    (w.st = .blocked → (∀ y, w.wait = some y → y.woken = false) →
      exec (.wakeDelivery i) s = .next (s.guarded (s.wakesReach r))) ∧
    (∀ y s', w.st = .blocked → w.wait = some y → y.woken = false → s.mgmt.boot = 3 →
      s.walkAgain (s.warpWho r i.core w) (s.itemsAgain r y) = (false, s') →
      exec (.waitRepresent i) s = .next (s.guarded ((s'.withdrawWaits r.task r.warp).modWarp r.task r.warp fun x =>
        { x with st := .ready, wait := none }))) ∧
    (∀ y s', w.st = .blocked → w.wait = some y → y.woken = false → s.mgmt.boot = 3 →
      s.walkAgain (s.warpWho r i.core w) (s.itemsAgain r y) = (true, s') →
      let u := s'.presentAgain r.task r.warp
      let p := if y.entered then (true, u) else u.present r.task r.warp (y.items.filter fun z => !u.itemMet z)
      exec (.waitRepresent i) s = .next (s.guarded (p.2.modWarp r.task r.warp fun x =>
        { x with wait := x.wait.map fun y => { y with entered := p.1, woken := p.1 && p.2.allWoken r.task r.warp } }))) ∧
    (∀ y, w.st = .blocked → w.wait = some y → y.woken = false → s.mayRun (s.ctxOf r.task) = true →
      (∀ x ∈ s.unsure r y, s.valueKnown r x = true) →
      let u := s.learn r (s.unsure r y)
      let late (z : State) : Prop := ∃ p ∈ y.parts, z.partUnmet r y p = true ∧ p.2.2.2 ≠ 0 ∧ p.2.2.2 ≤ y.elapsed
      late s → late u →
      exec (.sgWaitTimeout i) s = .next (s.guarded (u.takeFault r.task r.warp (w.lowestPc.getD 0)
        { cause := .sgWaitTimeout,
          mask := (y.parts.filter fun z => u.partUnmet r y z).foldl (fun (m : BitVec 16) z => m ||| BitVec.ofNat 16 z.1) 0 })))

/-- Steps of the device: a line arrives in an instruction cache (R224), an add at the home of its stalagmite (R120, R122), a word is
recalled from its owner (R210), a fault record goes to its ring (R356 to R358), the state of a context is lost (R339), a cycle passes
(R350, R387), and a slot without an instruction takes ILLEGAL_OPCODE (R41). The model's own: the unit and the rounding of the time of a
cycle (log 20, its choice), and that the mask of ILLEGAL_OPCODE is the active set (log 29, its reading). -/
def Obligations.DeviceEventsComplete : Prop :=
  (∀ (core n : Nat) (s : State) (f : IFill), s.coreRuns core = true → (s.core core).fills[n]? = some f →
    exec (.icacheFill core n) s = .next (s.guarded (s.modCore core fun c =>
      let c := { c with fills := c.fills.eraseIdx n }
      if s.poisoned f.pa 256 then c
      else c.putILine { ctx := f.ctx, va := f.va, pa := f.pa, bytes := s.codeBytes f.pa }))) ∧
  (∀ (pa : Nat) (amt : W64) (s : State), s.mgmt.boot = 3 → pa % 8 = 0 → pa < hbmEnd →
    exec (.stalagmiteAddApply pa amt) s = .next (s.guarded (s.sgAddAt pa amt.toNat).2)) ∧
  (∀ (core pa : Nat) (s : State), s.mgmt.boot = 3 → s.ownerOf pa = some core →
    exec (.ownershipRecall core pa) s = .next (s.guarded (s.release pa false))) ∧
  (∀ (ctx : Nat) (s s₁ : State) (r : Bool × FaultRec), s.mayRun ctx = true → (s.ctx ctx).fringTold = false →
    s.nextRecord ctx = some r → (s.ctx ctx).fringVa ≠ 0 → Runs (Op.pushRecord ctx r) s () s₁ →
    exec (.faultRecordPush ctx) s = .next (s.guarded (s₁.dropAnswers (.ring ctx)))) ∧
  (∀ (ctx : Nat) (s : State), s.mgmt.boot = 3 → ctx < 64 → 2 ≤ (s.ctx ctx).st → (s.ctx ctx).st ≤ 5 →
    exec (.contextStateError ctx) s = .next (s.guarded (s.faultContext ctx))) ∧
  (∀ s : State, s.mgmt.boot = 3 →
    ∃ t, exec .profileCycle s = .next t ∧ t.time = s.time + cycleTime s.mgmt.clkLvl ∧
      ∀ core, core < 192 → s.coreRuns core = true → (t.core core).cycles = (s.core core).cycles + 1) ∧
  (∀ (x : InstrWord) (s : State) (r : WarpRef) (w : Warp), s.issuer = some r → s.warp? r.task r.warp = some w →
    exec (.unassignedOpcode x) s = .next (s.guarded (s.takeFault r.task r.warp (w.lowestPc.getD 0)
      { cause := .illegalOpcode, mask := maskOf w.activeSet })))

/-! ## The fabric (R365 to R373) -/

/-- The events of a Karst port (R365 to R372): it trains, times out or trains anew; a flit arrives, with its CRC right or wrong, and
the eighth failure in succession starts a retraining; a control flit returns allowances and acknowledges every flit below a number,
which leaves the replay buffer. The model's own: a control flit is answered by one that returns the allowances of free buffers (log 114,
its choice), and one without an allowance that acknowledges up to a flit of the replay buffer asks for it again (log 138, its reading). A
request executes at its
home, a wait is withdrawn, and a response reaches who asked; and a merged reduction or a host access reaches the memory that it
names. A request of a peer outside the ranges exported to it is refused, and changes no byte of memory (R369). -/
def Obligations.LinkEventsComplete : Prop :=
  (∀ (port : Nat) (s : State), port < 18 → s.mgmt.boot = 3 →
      let p := s.port port
      let carries := p.st = 2 ∨ p.st = 3 ∨ p.st = 4
      (∀ lanes rate peer, p.st = 1 ∨ p.st = 5 → lanes = 1 ∨ lanes = 2 ∨ lanes = 4 ∨ lanes = 8 → rate ≤ 2 → peer < 64 →
        exec (.portTrained port lanes rate peer) s = .next (s.guarded (s.modPort port fun p => p.trained s.frozen lanes rate peer))) ∧
      (p.st = 1 ∨ p.st = 5 → s.loserRoom port = true →
        exec (.portTrainingTimeout port) s = .next (s.guarded (s.losePort port 6))) ∧
      (p.st = 2 ∨ p.st = 3 → exec (.portRetrain port) s = .next (s.guarded (s.retrain port)) ∧
        ((∀ o ∈ s.outstanding, o.port ≠ port) → s.retrain port = s.modPort port fun p => { p with st := 5, was := 5, fails := 0 })) ∧
      (∀ f : Flit, carries →
        let bad := s.modPort port fun p => { p with crcFails := min (p.crcFails + 1) (2 ^ 32 - 1), fails := p.fails + 1 }
        exec (.flitReceive port f false) s = .next (s.guarded (if 7 ≤ p.fails ∧ p.st ≠ 4 then bad.retrain port else bad)) ∧
        (f.seq = p.rxSeq → exec (.flitReceive port f true) s = .next (s.guarded (s.modPort port fun p =>
          { p with rxSeq := p.rxSeq + 1, fails := 0, inbox := p.inbox ++ (f.msg.map fun m => (f.cls, m)).toList,
                   granted := vmod p.granted f.cls fun n => n - 1,
                   owed := if f.msg.isNone then vmod p.owed f.cls fun n => n + 1 else p.owed }))) ∧
        (f.seq ≠ p.rxSeq →
          exec (.flitReceive port f true) s = .next (s.guarded (if 8 ≤ p.fails ∧ p.st ≠ 4 then s.retrain port else s)))) ∧
      (∀ allow cls ack, cls < 3 → carries →
        let u := (p.replay.filter fun f => decide (f.seq < ack)).foldl (fun (z : State) (f : Flit) => z.acknowledged f) s
        let rest := p.replay.filter fun f => decide (ack ≤ f.seq)
        exec (.controlFlit port allow cls ack) s = .next (s.guarded (u.modPort port fun p =>
          let x : Port := { p with allow := vmod p.allow cls fun n => n + allow, replay := rest }
          (if allow = 0 ∧ ∃ f ∈ rest, f.seq = ack then x.replayed rest.length else x).control.pump))) ∧
      (∀ cls peer tag op, p.first msgAsks = some (cls, .request peer tag op) →
        exec (.remoteRequest port) s = .next (s.guarded ((s.take port (cls, .request peer tag op)).serve peer tag op))) ∧
      (∀ cls peer tag, p.first msgAsks = some (cls, .withdraw peer tag) →
        exec (.remoteRequest port) s = .next (s.guarded ((s.take port (cls, .withdraw peer tag)).freeWait peer tag))) ∧
      (∀ cls peer tag ok v o, (p.first fun m => !msgAsks m) = some (cls, .response peer tag ok v) →
        (s.outstanding.find? fun o => o.tag == tag) = some o → s.answerRoom o ok v = true →
        exec (.remoteResponse port) s = .next (s.guarded ((s.take port (cls, .response peer tag ok v)).answered o ok v))) ∧
      (∀ pa size op v, exec (.reductionResult pa size op v) s = .next (s.guarded (s.contribute pa size op v.toNat))) ∧
      (∀ pa len v, len ≤ 8 → localRange pa len = true →
        exec (.cxlMemAccess true pa len v) s = .next (s.guarded (s.homeWrite pa (toBytes len v.toNat))) ∧
        exec (.cxlMemAccess false pa len v) s = .next s)) ∧
  (∀ (s : State) (peer tag : Nat) (op : HomeOp), s.knownTag peer tag = false →
      s.exported peer (homeRange op).1 (homeRange op).2 = false →
      s.serve peer tag op = s.respond peer tag false 1 ∧ ∀ a, (s.serve peer tag op).homeByte a = s.homeByte a)

/-! ## The management interface (R367 to R397) -/

/-- Writes of registers by the host. A register of BAR 0 takes its writable fields (R6, R397); a special register of a context that no
warp owns takes them too, DBGCTL only through the debug context (R341, R376), and so does a debug register of a core (R379). BOOTGO in
Boot copies the image from host memory and starts its verification, and is ignored in every other state (R392). MCCFG with EN = 1 and a
legal LOGCAP sets MCFILL and MCDONE to 0 (R389); with EN = 0, or with a LOGCAP outside 4 to 12, the ring stops, and the counts stay as
they were: the model's choice (log 112). MCFILL only grows, up to 2^LOGCAP above MCDONE (R389). A TLBINV write whose record can be read
queues its command while there is room (R194). FRING takes its ring (R356). DRES resumes a Suspended warp, or kills its task (R379); in a
freeze the kill of a task that is not of the debug context waits for the thaw: the model's choice (log 97). TRCCFG of a running device
starts a trace, with its frame 0, or ends it (R383). DBGCTL freezes the device, when a debug context is named, and thaws it (R381). -/
def Obligations.RegisterWritesComplete : Prop :=
  (∀ (off : Nat) (v : W64) (s : State), exec (.registerWrite (.bar off) v) s = .next (s.writeBar off v)) ∧
  (∀ (ctx n i : Nat) (v : W64) (s : State), s.mgmt.boot = 3 → ctx < 64 → sysListed n = true → sysOwned n = false →
    sysManaged n = false → s.sysIndexOk ctx n i = true → (n = 0x40 → s.debugSlot = some ctx) →
    exec (.registerWrite (.system ctx n i) v) s = .next (s.guarded (s.sysStore ctx n i v))) ∧
  (∀ (core off : Nat) (v : W64) (s : State), s.mgmt.boot = 3 → core < 192 → off % 8 = 0 →
    exec (.registerWrite (.debug core off) v) s = .next (s.guarded (s.writeDebugReg core off v true))) ∧
  (∀ (a : W64) (s : State),
    (s.mgmt.boot = 1 → exec (.bootgo a) s = .next { s with mgmt := { s.mgmt with
      boot := 2, bootAddr := a,
      image := Memory.setBytes [] 0 (s.host.bytes a.toNat (512 + min (s.host.getN (a.toNat + 12) 4) (2 ^ 24))) } }) ∧
    (s.mgmt.boot ≠ 1 → exec (.bootgo a) s = .next s)) ∧
  (∀ (v : W64) (s : State), v.getLsbD 8 = true → 4 ≤ (v.extractLsb' 0 4).toNat → (v.extractLsb' 0 4).toNat ≤ 12 →
    exec (.mccfgEnable v) s = .next { s with mgmt := { s.mgmt with
      mcIrq := v.getLsbD 16, mcLog := (v.extractLsb' 0 4).toNat, mcEn := true, mcFill := 0, mcDone := 0, busyCounts := false } }) ∧
  (∀ (v : W64) (s : State), v.getLsbD 8 = false ∨ (v.extractLsb' 0 4).toNat < 4 ∨ 12 < (v.extractLsb' 0 4).toNat →
    exec (.mccfgEnable v) s = .next { s with mgmt := { s.mgmt with
      mcIrq := v.getLsbD 16, mcLog := (v.extractLsb' 0 4).toNat, mcEn := false } }) ∧
  (∀ (v : W64) (s : State), s.mgmt.mcFill.toNat ≤ v.toNat → v.toNat ≤ s.mgmt.mcDone.toNat + 2 ^ s.mgmt.mcLog →
    exec (.mcfill v) s = .next { s with mgmt := { s.mgmt with mcFill := v } }) ∧
  (∀ (v : W64) (s : State), v.toNat < s.mgmt.mcFill.toNat ∨ s.mgmt.mcDone.toNat + 2 ^ s.mgmt.mcLog < v.toNat →
    exec (.mcfill v) s = .next s) ∧
  (∀ (ctx : Nat) (va : W64) (s s₁ : State) (x : Nat), s.mgmt.boot = 3 → ctx < 64 → s.invq.length < invCap →
    s.agentRead (.context ctx) 0 ctx .load va.toNat 32 32 = (.ok x, s₁) →
    exec (.tlbinvWrite ctx va) s = .next (s.guarded
      ((s₁.queueInvalidation (Invalidation.parse x (some ctx) (s₁.privCtx ctx))).dropAnswers (.context ctx)))) ∧
  (∀ (ctx : Nat) (v : W64) (s : State), s.mgmt.boot = 3 →
    exec (.fringWrite ctx v) s = .next (s.guarded (s.writeFring ctx v))) ∧
  (∀ (w : WarpId) (s : State) (r : WarpRef) (t : Task), s.suspendedAt w.core w.warp = some r → s.task? r.task = some t →
    exec (.dresResume w) s = .next (s.guarded (s.resumeWarp r.task r.warp).2) ∧
    (s.frozen = false → exec (.dresKill w) s = .next (s.guarded (s.killTask r.task).2)) ∧
    (s.frozen = true → s.debugSlot ≠ some t.ctx →
      exec (.dresKill w) s = .next (s.guarded { s with doomed := s.doomed ++ [r.task] }))) ∧
  (∀ (core : Nat) (v : W64) (s : State), core < 192 → s.mgmt.boot = 3 →
    exec (.traceEnable core v) s = .next (s.guarded (s.writeTrccfg core v true)) ∧
    (v.getLsbD 63 = false → exec (.traceEnable core v) s = .next (s.guarded (s.modCore core fun c =>
      { c with dbg := { c.dbg with trccfg := v &&& trccfgMask } })))) ∧
  (∀ s : State, (s.debugSlot ≠ none → exec .dbgctlFreeze s = .next (s.guarded s.freeze)) ∧
    exec .dbgctlThaw s = .next (s.guarded s.thaw))

/-- Before the device is Running a command of the ring has no effect and ends with STATUS 1, its TAG and a result of 0 (R391). -/
def Obligations.CommandsRefusedEarly : Prop :=
  ∀ (c : Command) (i : Instr) (s : State), Decode.command c = some i → s.ringCommand = some c → s.mgmt.boot ≠ 3 →
    exec i s = .next (s.finishCommand (commandTag c) 1 0 0)

/-- THE COMMANDS OF THE RING (R339 to R346, R351, R367 to R376, R389 to R391): each with legal operands and no unused byte set ends with
STATUS 0 and its result, or begins what completes it later, with the slot of its status kept. The model's choices: ASSIGN replaces the
clusters of the partition that it names, and refuses no partition number that another context uses (log 34); MIGRATE-IN gives the free
clusters of the image's map as one partition (log 38); and DEBUGSET accepts any slot (log 107). -/
def Obligations.ManagementCommandsComplete : Prop :=
  ∀ (c : Command) (s : State), s.ringCommand = some c → s.mgmt.boot = 3 →
    let n := namedSlot c
    let x := s.ctx n
    let ends (i : Instr) (used : List (Nat × Nat)) (t : State) (r : Nat) : Prop := unusedZero c used = true →
      exec i s = .next (({ t with mgmt := s.mgmt } : State).finishCommand (commandTag c) 0 0 r)
    let begins (i : Instr) (used : List (Nat × Nat)) (t : State) (b : Busy) : Prop := unusedZero c used = true →
      exec i s = .next { t with mgmt :=
        { s.mgmt with busy := some (commandTag c, b), busySlot := s.ringSlot s.mgmt.mcDone.toNat, busyCounts := true } }
    let free (k : Nat) : Prop := ∀ i, k.testBit i = true → s.heldElsewhere n i = false
    (n < 64 → field c 9 1 ≤ 1 → rootOk (field c 16 8) = true → rootOk (field c 24 8) = true → x.st = 0 →
      ends (.create c) [(8, 2), (16, 16)] (s.modCtx n fun _ =>
        { Context.reset with
          st := 1, priv := field c 9 1 == 1, ptroot0 := BitVec.ofNat 64 (field c 16 8),
          ptroot1 := BitVec.ofNat 64 (field c 24 8) }) 0) ∧
    (n < 64 → field c 9 1 < 48 → field c 16 8 < 2 ^ 48 → x.st = 1 ∨ x.st = 2 → free (field c 16 8) →
      ends (.assign c) [(8, 2), (16, 8)] (s.modCtx n fun y => { y with parts := y.assigned (field c 9 1) (field c 16 8) }) 0) ∧
    (n < 64 → x.st = 1 → 1 ≤ field c 9 1 → field c 9 1 ≤ 3 →
      ends (.negotiate c) [(8, 2)] (s.modCtx n fun y => { y with prof := field c 9 1, st := 2 }) (field c 9 1)) ∧
    (n < 64 → x.st = 2 → x.cqOk = true → ends (.start c) [(8, 1)] (s.modCtx n fun y => { y with st := 3 }) 0) ∧
    (n < 64 → x.st = 3 → s.freezeHolds n = false → begins (.preempt c) [(8, 1)] (s.beginPreempt n) (.preempt n)) ∧
    (n < 64 → x.st = 4 → field c 16 8 % 64 = 0 → localRange (field c 16 8) (field c 24 8) = true →
      (s.saveImage n).length ≤ field c 24 8 →
      begins (.save c) [(8, 1), (16, 16)] (s.modCtx n fun y =>
        { y with image := some (field c 16 8, field c 24 8), moving := true }) (.save n)) ∧
    (∀ t, n < 64 → x.st = 4 ∨ x.st = 5 → s.freezeHolds n = false → s.readBack n = some t →
      ends (.restore c) [(8, 1)] (t.resumeContext n) 0) ∧
    (n < 64 → x.st ≠ 0 → ends (.teardown c) [(8, 1)] (s.tearDown n) 0) ∧
    (∀ off p, n < 64 → field c 9 1 < 64 → x.st = 5 → field c 16 8 % 64 = 0 → remoteOffset (field c 9 1) (field c 16 8) = some off →
      s.routeTo (field c 9 1) = some p →
      begins (.migrateOut c) [(8, 2), (16, 8)]
        ((s.postImage n (field c 9 1) off (s.imageBytes n ++ s.extentBytes n)).modCtx n fun y =>
          { y with st := 6, moving := true }) (.migrate n (field c 9 1))) ∧
    (∀ im, n < 64 → field c 9 1 < 64 → x.st = 0 → field c 16 8 % 64 = 0 → localRange (field c 16 8) 256 = true →
      s.judgeImage n (field c 16 8) = .ok im → unusedZero c [(8, 2), (16, 8)] = true →
      ∃ t : State, exec (.migrateIn c) s = .next (({ t with mgmt := s.mgmt } : State).finishCommand (commandTag c) 0 0 0) ∧
        (t.ctx n).st = 5 ∧ (t.ctx n).parts = s.migratedParts n im.regs) ∧
    (s.sysNamed c = true → sysManaged (field c 10 2) = false → (field c 10 2 = 0x40 → s.debugSlot = some n) → field c 10 2 ≠ 0x06 →
      ends (.srwrite c) [(8, 1), (10, 3), (16, 8)]
        (s.sysStore n (field c 10 2) (field c 12 1) (BitVec.ofNat 64 (field c 16 8))) 0) ∧
    (s.sysNamed c = true →
      ends (.srread c) [(8, 1), (10, 3)] s (s.sysValue n (field c 10 2) (field c 12 1)).toNat) ∧
    (n < 64 →
      let r := s.onSaved n fun s => s.resumeHandle n (field c 16 4)
      ends (.warpresume c) [(8, 1), (16, 4)] r.2 r.1.toNat) ∧
    (n < 64 → s.freezeHolds n = false →
      let r := s.onSaved n fun s => s.killHandle n (field c 16 4)
      ends (.warpkill c) [(8, 1), (16, 4)] r.2 r.1.toNat) ∧
    (n < 18 → (s.port n).st = 0 ∨ (s.port n).st = 6 →
      ends (.portenable c) [(8, 1)] (s.modPort n fun p => { p with st := 1, was := 1 }) 0) ∧
    (n < 18 → (s.port n).st ≠ 0 → s.loserRoom n = true → ends (.portdisable c) [(8, 1)] (s.losePort n 0) 0) ∧
    (n < 64 → field c 16 4 < 2 ^ 18 →
      ends (.route c) [(8, 1), (16, 4)] { s with routes := vset s.routes n (BitVec.ofNat 18 (field c 16 4)) } 0) ∧
    (n < 64 → field c 9 1 < 16 → field c 16 8 % 65536 = 0 → field c 24 8 % 65536 = 0 →
      localRange (field c 16 8) (field c 24 8) = true →
      let rest := s.exports.filter fun e => !(e.1 == n && e.2.1 == field c 9 1)
      ends (.exportRange c) [(8, 2), (16, 16)]
        { s with exports := if field c 24 8 = 0 then rest else rest ++ [(n, field c 9 1, field c 16 8, field c 24 8)] } 0) ∧
    (n < 64 →
      let w := BitVec.ofNat 64 (field c 16 8) &&& rwinMask
      let g := BitVec.ofNat 64 (field c 24 8) &&& rwrngMask
      s.windowOk n w g = true →
      ends (.window c) [(8, 1), (16, 16)] { s with rwin := vset s.rwin n w, rwrng := vset s.rwrng n g } 0) ∧
    (n = 0xFF → ends (.debugset c) [(8, 1)] { s with debugSlot := none } 0) ∧
    (n < 64 → ends (.debugset c) [(8, 1)] { s with debugSlot := some n } 0) ∧
    (s.invq.length < invCap →
      begins (.tlbinv c) [(8, 32)] (s.queueInvalidation (Invalidation.parse (field c 8 32) none true)) .tlbinv) ∧
    (field c 20 1 ≤ 1 → field c 32 8 % 8 = 0 → localRange (field c 32 8) 8 = true →
      (∀ r ∈ s.rangeList (field c 8 8) (field c 16 4), rangeOk r = true) →
      begins (.checkpoint c) [(8, 13), (24, 20)] s
        (.checkpoint (field c 8 8) (field c 16 4) (field c 24 8) (field c 20 1 == 1) (field c 32 8) (field c 40 4)))

/-- What completes the commands that go on after they begin (R195, R343 to R346, R374, R390). That a refused completion add ends a
checkpoint with STATUS 3 and SG_OVERFLOW, without any effect, is the model's choice (log 45), and so is what follows a refused completion
add of an invalidation (log 154). -/
def Obligations.CommandsComplete : Prop :=
  (∀ (ctx : Nat) (tag : W32) (s : State), s.mgmt.busy = some (tag, .preempt ctx) → s.mgmt.boot = 3 → (s.ctx ctx).st = 3 →
    s.freezeHolds ctx = false →
    let h := s.haltAll ctx
    (h.queuesQuiet ctx = true → (∀ t ∈ h.residentTasks ctx, h.canLeave t = true) →
      exec (.preemptComplete ctx) s = .next ((s.guarded (h.swapOut ctx)).finishCommand tag 0 0 0)) ∧
    (h.queuesQuiet ctx = false ∨ (∃ t ∈ h.residentTasks ctx, h.canLeave t = false) → exec (.preemptComplete ctx) s = .next (s.guarded h))) ∧
  (∀ (ctx pa n : Nat) (tag : W32) (s : State), s.mgmt.busy = some (tag, .save ctx) → s.mgmt.boot = 3 → (s.ctx ctx).st = 4 →
    (s.ctx ctx).image = some (pa, n) →
    let x := s.modCtx ctx fun x => { x with st := 5, moving := false }
    exec (.saveComplete ctx) s = .next
      ((s.guarded (x.homeWrite pa (x.saveImage ctx))).finishCommand tag 0 0 (x.saveImage ctx).length)) ∧
  (∀ (ctx cause peer : Nat) (tag : W32) (s : State), s.mgmt.busy = some (tag, .migrate ctx peer) → s.mgmt.boot = 3 → (s.ctx ctx).st = 6 →
    (cause = 0 → exec (.migrationAnswer ctx cause) s = .next ((s.guarded (s.tearDown ctx)).finishCommand tag 0 0 0)) ∧
    (cause ≠ 0 → exec (.migrationAnswer ctx cause) s = .next
      ((s.guarded (s.modCtx ctx fun x => { x with st := 5, moving := false })).finishCommand tag 3 cause 0))) ∧
  (∀ (ctx : Nat) (s : State), ctx < 64 → (s.ctx ctx).st = 9 → s.mgmt.boot = 3 →
    exec (.teardownRelease ctx) s = .next (s.guarded
      (({ s with queues := vmapAll s.queues fun q => if q.ctx = ctx then .reset else q } : State).modCtx ctx fun _ => .reset))) ∧
  (∀ (s : State) (x : Invalidation) (rest : List Invalidation) (tag : W32), s.invq = x :: rest → x.from_ = none →
    s.mgmt.busy = some (tag, .tlbinv) → s.frozen = false ∨ x.begun = true → (s.began x).usesCovered x = false →
    (s.began x).recordRoom x.ctx = true →
    let r := ((s.guarded (s.began x)).cleanPages x).invalidationAdd x
    exec .invalidationComplete s = .next
      (((s.guarded (s.began x)).guarded { r.2 with invq := rest }).finishCommand tag 0 0 r.1)) ∧
  (∀ (s : State) (tag : W32) (list n target sga : Nat) (cxl : Bool) (a : Nat),
    s.mgmt.busy = some (tag, .checkpoint list n target cxl sga a) → s.mgmt.boot = 3 →
    let x := s.copyOut target ((s.rangeList list n).filter rangeOk)
    let r := x.2.sgAddAt sga a
    exec .checkpointComplete s = .next (if r.1 = refused then s.finishCommand tag 3 Cause.sgOverflow.code 0
      else (s.guarded r.2).finishCommand tag 0 0 x.1))

/-- Reset, boot and the clock (R12, R392, R393, R396): power-good and a host reset in Reset enter Boot, a host reset and a thermal trip
of a running device enter Reset, and a verified image runs with HBM at zero; the clock moves one level at most each millisecond, and to
its lowest at once at 115 °C. The requests of a function's SPDM mailbox (R395): each sends its response, and a negotiation without ECDSA
P-521 and SHA-512, or a measurement that the device does not have, is refused. The model's own: the response codes are those of SPDM 1.3
(log 42, presumed); a verified image sets ERR to 0 (log 110, its choice); and requests are answered in any order (log 113, its choice). -/
def Obligations.BootAndAttestationComplete : Prop :=
  (∀ s : State,
      (s.mgmt.boot = 0 → exec .powerGood s = .next (s.cleared 1 false) ∧ exec .hostReset s = .next (s.cleared 1 s.mgmt.therm)) ∧
      (s.mgmt.boot = 3 → exec .hostReset s = .next (s.cleared 0 s.mgmt.therm) ∧
        (100 ≤ s.mgmt.hot → exec .thermalTrip s = .next (s.cleared 0 true))) ∧
      (s.mgmt.boot = 2 →
        (imageError s.mgmt.image = 0 →
          exec .imageVerify s = .next { s with
            mem := [], poison := [],
            mgmt := { s.mgmt with boot := 3, err := 0, svn := BitVec.ofNat 32 (s.mgmt.image.getN 8 4), verified := s.mgmt.image } }) ∧
        (imageError s.mgmt.image ≠ 0 →
          exec .imageVerify s = .next { s with mgmt := { s.mgmt with boot := 1, err := imageError s.mgmt.image, image := [] } })) ∧
      (s.mgmt.boot ≠ 0 → ∀ draw temp,
        (∃ t, exec (.powerControlTick draw temp) s = .next t ∧
          ((s.mgmt.pwrCap < draw ∨ 1050 ≤ temp) → t.mgmt.clkLvl = s.mgmt.clkLvl - 1) ∧
          (draw + 50 ≤ s.mgmt.pwrCap → temp < 1000 → s.mgmt.clkLvl < s.mgmt.clkMax → t.mgmt.clkLvl = s.mgmt.clkLvl + 1) ∧
          t.mgmt.hot = if 1200 ≤ temp then s.mgmt.hot + 1 else 0) ∧
        (1150 ≤ temp → exec (.thermalEmergency temp) s = .next
          { s with mgmt := { s.mgmt with temp := cap16 temp, clkLvl := 0 } }))) ∧
  (∀ (fn : Nat) (s : State),
      let sends (i : Instr) (code : Nat) (bs : List Byte) : Prop := exec i s = .next { s with spdm := s.spdm ++ [(fn, code, bs)] }
      sends (.getVersion fn) 0x04 (Config.spdmResponse 0x84 0) ∧
      sends (.getCapabilities fn) 0x61 (Config.spdmResponse 0xE1 0) ∧
      (∀ asym hash : W32,
        (asym &&& asymP521 ≠ 0 → hash &&& hashSha512 ≠ 0 →
          exec (.negotiateAlgorithms fn asym hash) s = .next { s with
            mgmt := { s.mgmt with spdmAgreed := true },
            spdm := s.spdm ++ [(fn, 0x63, toBytes 4 asymP521.toNat ++ toBytes 4 hashSha512.toNat)] }) ∧
        (asym &&& asymP521 = 0 ∨ hash &&& hashSha512 = 0 → sends (.negotiateAlgorithms fn asym hash) spdmError [])) ∧
      sends (.getDigests fn) 0x01 (digestBytes (Config.sha512 Config.certificate)) ∧
      (∀ off len, sends (.getCertificate fn off len) 0x02 ((Config.certificate.drop off).take len)) ∧
      (∀ nonce : BitVec 256, sends (.challenge fn nonce) 0x03 (Config.identitySign (toBytes 32 nonce.toNat))) ∧
      (∀ index, (∀ bs, s.measurement index = some bs → sends (.getMeasurements fn index) 0x60 bs) ∧
        (s.measurement index = none → sends (.getMeasurements fn index) spdmError [])))

/-! ## What instructions and faults leave unchanged -/

/-- AN INSTRUCTION THAT COMPUTES CHANGES ONLY ITS RESULTS: every byte of memory, of the host's memory and of the scratchpads and tiles,
and the registers of management, read as before, and so do the vaults while no core traces; every task keeps its tensor descriptors,
code tables and guards, every other warp its registers, and the issuing warp its own but for D, the registers that a wider result takes,
the predicates that it writes, the latch LT, FLAGS and the PC; its other latches stay unless a debug cause stops it (R380). A thread that
takes no part keeps its registers, predicates, latches and stochastic state. -/
def Obligations.ComputingChangesOnlyResults : Prop :=
  ∀ (i : KWord → Instr) (x : KWord → Enc) (wd : KWord → Width) (f : Ctx → KWord → Warp → Tid → AluOut), Computes i x wd f →
    ∀ (w : KWord) (s t : State) (v : View), IssuesK x w .straight s v →
      let outs := v.c.units.map fun u => (u, f v.c (v.seenK w) v.w u)
      let span := if outs.any (fun o => o.2.high.isSome) then 4 else match wd (v.seenK w) with
        | .w32 => 1
        | _ => 2
      let writes (n : Nat) : Bool := outs.any fun o => o.2.pred.any fun p => p.1 == n
      raisedFlags outs &&& v.c.fpte = 0 → exec (i w) s = .next t →
      SameManagement s t ∧ t.host = s.host ∧ (∀ a, t.homeByte a = s.homeByte a) ∧
      (∀ task warp y, task ≠ v.c.task ∨ warp ≠ v.c.warp → s.warp? task warp = some y →
        ∃ z, t.warp? task warp = some z ∧ z.s = y.s ∧ z.q = y.q ∧ z.flags = y.flags ∧ ∀ tid,
          (z.thread tid).g = (y.thread tid).g ∧ (z.thread tid).p = (y.thread tid).p ∧ (z.thread tid).pc = (y.thread tid).pc) ∧
      (∀ task x, s.task? task = some x → ∃ y, t.task? task = some y ∧ y.scratch = x.scratch ∧ y.tileMem = x.tileMem ∧ y.td = x.td ∧
        y.ctSlots = x.ctSlots ∧ y.gd = x.gd) ∧
      ((∀ core, (s.core core).dbg.traceOn = false) → t.vault = s.vault) ∧
      ∃ z, t.warp? v.c.task v.c.warp = some z ∧ z.flags = v.w.flags ||| raisedFlags outs ∧
        (∀ n, v.c.u = false ∨ v.h.d.toNat - 0x80 ≠ n → v.c.u = false ∨ span ≠ 4 ∨ v.h.d.toNat - 0x80 + 1 ≠ n →
          vget z.s n 0 = vget v.w.s n 0) ∧
        (∀ tid n, v.c.u = true ∨ n < v.h.d.toNat ∨ v.h.d.toNat + span ≤ n →
          vget (z.thread tid).g n 0 = vget (v.w.thread tid).g n 0) ∧
        (∀ n, v.c.u = false ∨ writes n = false → z.q.getLsbD n = v.w.q.getLsbD n) ∧
        (∀ tid n, v.c.u = true ∨ writes n = false → (z.thread tid).p.getLsbD n = (v.w.thread tid).p.getLsbD n) ∧
        (v.c.u = false → ∀ tid, tid ∉ v.c.parts → (z.thread tid).g = (v.w.thread tid).g ∧ (z.thread tid).p = (v.w.thread tid).p ∧
          (z.thread tid).seed = (v.w.thread tid).seed) ∧
        ((∀ b xs, debugCause (s.core v.c.core) v.c.ctx v.c.wid v.c.pc b xs = none) → ∀ tid,
          (∀ n, v.h.lt.toNat ≠ n → vget (z.thread tid).k n .cleared = vget (v.w.thread tid).k n .cleared) ∧
          (v.c.u = false → tid ∉ v.c.parts → (z.thread tid).k = (v.w.thread tid).k))

/-- TAKING A FAULT (R79, R352, R355): the warp is Suspended with its registers, its PCs, its regions and its done mask as they were,
and a record with the cause, the PC and the threads waits for the fault ring of its context; no byte of memory changes. -/
def Obligations.FaultsSuspendTheirWarp : Prop :=
  ∀ (s : State) (task warp : Nat) (pc : W64) (x : Trap) (t : Task) (w : Warp), s.task? task = some t → t.warps[warp]? = some w →
    t.ctx < 64 → x.cause.isDebug = false →
    let u := s.takeFault task warp pc x
    (∃ z, u.warp? task warp = some z ∧ z.st = .suspended ∧ z.threads = w.threads ∧ z.s = w.s ∧ z.q = w.q ∧ z.flags = w.flags ∧
      z.done = w.done ∧ z.mac = w.mac ∧ z.depth = w.depth) ∧
    (∃ r, (u.ctx t.ctx).pend = (s.ctx t.ctx).pend ++ [r] ∧ r.cause = x.cause ∧ r.pc = pc.toNat ∧ r.tmask = x.mask ∧
      r.addr = x.addr ∧ r.extra = x.extra ∧ r.done = w.done) ∧
    SameManagement s u ∧ ∀ a, u.homeByte a = s.homeByte a
end

