-- ==== Sys2Proof/Laws/State.lean ====
section
/-!
SUPPORT. What each update of a part of the state leaves as it was: one lemma for every field.
-/

namespace Sys2Proof.Machine

open Sys2Proof

variable (s s' : State)

@[simp] theorem State.modCore_mgmt (c : Nat) (f : Core → Core) : (s.modCore c f).mgmt = s.mgmt := rfl
@[simp] theorem State.modCore_mem (c : Nat) (f : Core → Core) : (s.modCore c f).mem = s.mem := rfl
@[simp] theorem State.modCore_vault (c : Nat) (f : Core → Core) : (s.modCore c f).vault = s.vault := rfl
@[simp] theorem State.modCore_host (c : Nat) (f : Core → Core) : (s.modCore c f).host = s.host := rfl
@[simp] theorem State.modCore_msix (c : Nat) (f : Core → Core) : (s.modCore c f).msix = s.msix := rfl
@[simp] theorem State.modCore_reports (c : Nat) (f : Core → Core) : (s.modCore c f).reports = s.reports := rfl
@[simp] theorem State.modCore_spdm (c : Nat) (f : Core → Core) : (s.modCore c f).spdm = s.spdm := rfl
@[simp] theorem State.modCore_poison (c : Nat) (f : Core → Core) : (s.modCore c f).poison = s.poison := rfl
@[simp] theorem State.modCore_owners (c : Nat) (f : Core → Core) : (s.modCore c f).owners = s.owners := rfl
@[simp] theorem State.modCore_l2 (c : Nat) (f : Core → Core) : (s.modCore c f).l2 = s.l2 := rfl
@[simp] theorem State.modCore_waiters (c : Nat) (f : Core → Core) : (s.modCore c f).waiters = s.waiters := rfl
@[simp] theorem State.modCore_tlb (c : Nat) (f : Core → Core) : (s.modCore c f).tlb = s.tlb := rfl
@[simp] theorem State.modCore_walks (c : Nat) (f : Core → Core) : (s.modCore c f).walks = s.walks := rfl
@[simp] theorem State.modCore_invq (c : Nat) (f : Core → Core) : (s.modCore c f).invq = s.invq := rfl
@[simp] theorem State.modCore_tlbBad (c : Nat) (f : Core → Core) : (s.modCore c f).tlbBad = s.tlbBad := rfl
@[simp] theorem State.modCore_contexts (c : Nat) (f : Core → Core) : (s.modCore c f).contexts = s.contexts := rfl
@[simp] theorem State.modCore_queues (c : Nat) (f : Core → Core) : (s.modCore c f).queues = s.queues := rfl
@[simp] theorem State.modCore_serving (c : Nat) (f : Core → Core) : (s.modCore c f).serving = s.serving := rfl
@[simp] theorem State.modCore_turn (c : Nat) (f : Core → Core) : (s.modCore c f).turn = s.turn := rfl
@[simp] theorem State.modCore_kernels (c : Nat) (f : Core → Core) : (s.modCore c f).kernels = s.kernels := rfl
@[simp] theorem State.modCore_tasks (c : Nat) (f : Core → Core) : (s.modCore c f).tasks = s.tasks := rfl
@[simp] theorem State.modCore_xfTurn (c : Nat) (f : Core → Core) : (s.modCore c f).xfTurn = s.xfTurn := rfl
@[simp] theorem State.modCore_ports (c : Nat) (f : Core → Core) : (s.modCore c f).ports = s.ports := rfl
@[simp] theorem State.modCore_routes (c : Nat) (f : Core → Core) : (s.modCore c f).routes = s.routes := rfl
@[simp] theorem State.modCore_exports (c : Nat) (f : Core → Core) : (s.modCore c f).exports = s.exports := rfl
@[simp] theorem State.modCore_rwin (c : Nat) (f : Core → Core) : (s.modCore c f).rwin = s.rwin := rfl
@[simp] theorem State.modCore_rwrng (c : Nat) (f : Core → Core) : (s.modCore c f).rwrng = s.rwrng := rfl
@[simp] theorem State.modCore_outstanding (c : Nat) (f : Core → Core) : (s.modCore c f).outstanding = s.outstanding := rfl
@[simp] theorem State.modCore_answers (c : Nat) (f : Core → Core) : (s.modCore c f).answers = s.answers := rfl
@[simp] theorem State.modCore_nextTag (c : Nat) (f : Core → Core) : (s.modCore c f).nextTag = s.nextTag := rfl
@[simp] theorem State.modCore_served (c : Nat) (f : Core → Core) : (s.modCore c f).served = s.served := rfl
@[simp] theorem State.modCore_spent (c : Nat) (f : Core → Core) : (s.modCore c f).spent = s.spent := rfl
@[simp] theorem State.modCore_att (c : Nat) (f : Core → Core) : (s.modCore c f).att = s.att := rfl
@[simp] theorem State.modCore_atten (c : Nat) (f : Core → Core) : (s.modCore c f).atten = s.atten := rfl
@[simp] theorem State.modCore_frozen (c : Nat) (f : Core → Core) : (s.modCore c f).frozen = s.frozen := rfl
@[simp] theorem State.modCore_debugSlot (c : Nat) (f : Core → Core) : (s.modCore c f).debugSlot = s.debugSlot := rfl
@[simp] theorem State.modCore_doomed (c : Nat) (f : Core → Core) : (s.modCore c f).doomed = s.doomed := rfl
@[simp] theorem State.modCore_time (c : Nat) (f : Core → Core) : (s.modCore c f).time = s.time := rfl
@[simp] theorem State.modCore_agenda (c : Nat) (f : Core → Core) : (s.modCore c f).agenda = s.agenda := rfl
@[simp] theorem State.modCore_issuer (c : Nat) (f : Core → Core) : (s.modCore c f).issuer = s.issuer := rfl
@[simp] theorem State.modCore_freeCtr (c : Nat) (f : Core → Core) : (s.modCore c f).freeCtr = s.freeCtr := rfl
@[simp] theorem State.modCore_nextId (c : Nat) (f : Core → Core) : (s.modCore c f).nextId = s.nextId := rfl

@[simp] theorem State.modCtx_mgmt (c : Nat) (f : Context → Context) : (s.modCtx c f).mgmt = s.mgmt := rfl
@[simp] theorem State.modCtx_mem (c : Nat) (f : Context → Context) : (s.modCtx c f).mem = s.mem := rfl
@[simp] theorem State.modCtx_vault (c : Nat) (f : Context → Context) : (s.modCtx c f).vault = s.vault := rfl
@[simp] theorem State.modCtx_host (c : Nat) (f : Context → Context) : (s.modCtx c f).host = s.host := rfl
@[simp] theorem State.modCtx_msix (c : Nat) (f : Context → Context) : (s.modCtx c f).msix = s.msix := rfl
@[simp] theorem State.modCtx_reports (c : Nat) (f : Context → Context) : (s.modCtx c f).reports = s.reports := rfl
@[simp] theorem State.modCtx_spdm (c : Nat) (f : Context → Context) : (s.modCtx c f).spdm = s.spdm := rfl
@[simp] theorem State.modCtx_poison (c : Nat) (f : Context → Context) : (s.modCtx c f).poison = s.poison := rfl
@[simp] theorem State.modCtx_owners (c : Nat) (f : Context → Context) : (s.modCtx c f).owners = s.owners := rfl
@[simp] theorem State.modCtx_l2 (c : Nat) (f : Context → Context) : (s.modCtx c f).l2 = s.l2 := rfl
@[simp] theorem State.modCtx_waiters (c : Nat) (f : Context → Context) : (s.modCtx c f).waiters = s.waiters := rfl
@[simp] theorem State.modCtx_tlb (c : Nat) (f : Context → Context) : (s.modCtx c f).tlb = s.tlb := rfl
@[simp] theorem State.modCtx_walks (c : Nat) (f : Context → Context) : (s.modCtx c f).walks = s.walks := rfl
@[simp] theorem State.modCtx_invq (c : Nat) (f : Context → Context) : (s.modCtx c f).invq = s.invq := rfl
@[simp] theorem State.modCtx_tlbBad (c : Nat) (f : Context → Context) : (s.modCtx c f).tlbBad = s.tlbBad := rfl
@[simp] theorem State.modCtx_queues (c : Nat) (f : Context → Context) : (s.modCtx c f).queues = s.queues := rfl
@[simp] theorem State.modCtx_serving (c : Nat) (f : Context → Context) : (s.modCtx c f).serving = s.serving := rfl
@[simp] theorem State.modCtx_turn (c : Nat) (f : Context → Context) : (s.modCtx c f).turn = s.turn := rfl
@[simp] theorem State.modCtx_kernels (c : Nat) (f : Context → Context) : (s.modCtx c f).kernels = s.kernels := rfl
@[simp] theorem State.modCtx_tasks (c : Nat) (f : Context → Context) : (s.modCtx c f).tasks = s.tasks := rfl
@[simp] theorem State.modCtx_cores (c : Nat) (f : Context → Context) : (s.modCtx c f).cores = s.cores := rfl
@[simp] theorem State.modCtx_xfTurn (c : Nat) (f : Context → Context) : (s.modCtx c f).xfTurn = s.xfTurn := rfl
@[simp] theorem State.modCtx_ports (c : Nat) (f : Context → Context) : (s.modCtx c f).ports = s.ports := rfl
@[simp] theorem State.modCtx_routes (c : Nat) (f : Context → Context) : (s.modCtx c f).routes = s.routes := rfl
@[simp] theorem State.modCtx_exports (c : Nat) (f : Context → Context) : (s.modCtx c f).exports = s.exports := rfl
@[simp] theorem State.modCtx_rwin (c : Nat) (f : Context → Context) : (s.modCtx c f).rwin = s.rwin := rfl
@[simp] theorem State.modCtx_rwrng (c : Nat) (f : Context → Context) : (s.modCtx c f).rwrng = s.rwrng := rfl
@[simp] theorem State.modCtx_outstanding (c : Nat) (f : Context → Context) : (s.modCtx c f).outstanding = s.outstanding := rfl
@[simp] theorem State.modCtx_answers (c : Nat) (f : Context → Context) : (s.modCtx c f).answers = s.answers := rfl
@[simp] theorem State.modCtx_nextTag (c : Nat) (f : Context → Context) : (s.modCtx c f).nextTag = s.nextTag := rfl
@[simp] theorem State.modCtx_served (c : Nat) (f : Context → Context) : (s.modCtx c f).served = s.served := rfl
@[simp] theorem State.modCtx_spent (c : Nat) (f : Context → Context) : (s.modCtx c f).spent = s.spent := rfl
@[simp] theorem State.modCtx_att (c : Nat) (f : Context → Context) : (s.modCtx c f).att = s.att := rfl
@[simp] theorem State.modCtx_atten (c : Nat) (f : Context → Context) : (s.modCtx c f).atten = s.atten := rfl
@[simp] theorem State.modCtx_frozen (c : Nat) (f : Context → Context) : (s.modCtx c f).frozen = s.frozen := rfl
@[simp] theorem State.modCtx_debugSlot (c : Nat) (f : Context → Context) : (s.modCtx c f).debugSlot = s.debugSlot := rfl
@[simp] theorem State.modCtx_doomed (c : Nat) (f : Context → Context) : (s.modCtx c f).doomed = s.doomed := rfl
@[simp] theorem State.modCtx_time (c : Nat) (f : Context → Context) : (s.modCtx c f).time = s.time := rfl
@[simp] theorem State.modCtx_agenda (c : Nat) (f : Context → Context) : (s.modCtx c f).agenda = s.agenda := rfl
@[simp] theorem State.modCtx_issuer (c : Nat) (f : Context → Context) : (s.modCtx c f).issuer = s.issuer := rfl
@[simp] theorem State.modCtx_freeCtr (c : Nat) (f : Context → Context) : (s.modCtx c f).freeCtr = s.freeCtr := rfl
@[simp] theorem State.modCtx_nextId (c : Nat) (f : Context → Context) : (s.modCtx c f).nextId = s.nextId := rfl

@[simp] theorem State.modQueue_mgmt (q : Nat) (f : Queue → Queue) : (s.modQueue q f).mgmt = s.mgmt := rfl
@[simp] theorem State.modQueue_mem (q : Nat) (f : Queue → Queue) : (s.modQueue q f).mem = s.mem := rfl
@[simp] theorem State.modQueue_vault (q : Nat) (f : Queue → Queue) : (s.modQueue q f).vault = s.vault := rfl
@[simp] theorem State.modQueue_host (q : Nat) (f : Queue → Queue) : (s.modQueue q f).host = s.host := rfl
@[simp] theorem State.modQueue_msix (q : Nat) (f : Queue → Queue) : (s.modQueue q f).msix = s.msix := rfl
@[simp] theorem State.modQueue_reports (q : Nat) (f : Queue → Queue) : (s.modQueue q f).reports = s.reports := rfl
@[simp] theorem State.modQueue_spdm (q : Nat) (f : Queue → Queue) : (s.modQueue q f).spdm = s.spdm := rfl
@[simp] theorem State.modQueue_poison (q : Nat) (f : Queue → Queue) : (s.modQueue q f).poison = s.poison := rfl
@[simp] theorem State.modQueue_owners (q : Nat) (f : Queue → Queue) : (s.modQueue q f).owners = s.owners := rfl
@[simp] theorem State.modQueue_l2 (q : Nat) (f : Queue → Queue) : (s.modQueue q f).l2 = s.l2 := rfl
@[simp] theorem State.modQueue_waiters (q : Nat) (f : Queue → Queue) : (s.modQueue q f).waiters = s.waiters := rfl
@[simp] theorem State.modQueue_tlb (q : Nat) (f : Queue → Queue) : (s.modQueue q f).tlb = s.tlb := rfl
@[simp] theorem State.modQueue_walks (q : Nat) (f : Queue → Queue) : (s.modQueue q f).walks = s.walks := rfl
@[simp] theorem State.modQueue_invq (q : Nat) (f : Queue → Queue) : (s.modQueue q f).invq = s.invq := rfl
@[simp] theorem State.modQueue_tlbBad (q : Nat) (f : Queue → Queue) : (s.modQueue q f).tlbBad = s.tlbBad := rfl
@[simp] theorem State.modQueue_contexts (q : Nat) (f : Queue → Queue) : (s.modQueue q f).contexts = s.contexts := rfl
@[simp] theorem State.modQueue_serving (q : Nat) (f : Queue → Queue) : (s.modQueue q f).serving = s.serving := rfl
@[simp] theorem State.modQueue_turn (q : Nat) (f : Queue → Queue) : (s.modQueue q f).turn = s.turn := rfl
@[simp] theorem State.modQueue_kernels (q : Nat) (f : Queue → Queue) : (s.modQueue q f).kernels = s.kernels := rfl
@[simp] theorem State.modQueue_tasks (q : Nat) (f : Queue → Queue) : (s.modQueue q f).tasks = s.tasks := rfl
@[simp] theorem State.modQueue_cores (q : Nat) (f : Queue → Queue) : (s.modQueue q f).cores = s.cores := rfl
@[simp] theorem State.modQueue_xfTurn (q : Nat) (f : Queue → Queue) : (s.modQueue q f).xfTurn = s.xfTurn := rfl
@[simp] theorem State.modQueue_ports (q : Nat) (f : Queue → Queue) : (s.modQueue q f).ports = s.ports := rfl
@[simp] theorem State.modQueue_routes (q : Nat) (f : Queue → Queue) : (s.modQueue q f).routes = s.routes := rfl
@[simp] theorem State.modQueue_exports (q : Nat) (f : Queue → Queue) : (s.modQueue q f).exports = s.exports := rfl
@[simp] theorem State.modQueue_rwin (q : Nat) (f : Queue → Queue) : (s.modQueue q f).rwin = s.rwin := rfl
@[simp] theorem State.modQueue_rwrng (q : Nat) (f : Queue → Queue) : (s.modQueue q f).rwrng = s.rwrng := rfl
@[simp] theorem State.modQueue_outstanding (q : Nat) (f : Queue → Queue) : (s.modQueue q f).outstanding = s.outstanding := rfl
@[simp] theorem State.modQueue_answers (q : Nat) (f : Queue → Queue) : (s.modQueue q f).answers = s.answers := rfl
@[simp] theorem State.modQueue_nextTag (q : Nat) (f : Queue → Queue) : (s.modQueue q f).nextTag = s.nextTag := rfl
@[simp] theorem State.modQueue_served (q : Nat) (f : Queue → Queue) : (s.modQueue q f).served = s.served := rfl
@[simp] theorem State.modQueue_spent (q : Nat) (f : Queue → Queue) : (s.modQueue q f).spent = s.spent := rfl
@[simp] theorem State.modQueue_att (q : Nat) (f : Queue → Queue) : (s.modQueue q f).att = s.att := rfl
@[simp] theorem State.modQueue_atten (q : Nat) (f : Queue → Queue) : (s.modQueue q f).atten = s.atten := rfl
@[simp] theorem State.modQueue_frozen (q : Nat) (f : Queue → Queue) : (s.modQueue q f).frozen = s.frozen := rfl
@[simp] theorem State.modQueue_debugSlot (q : Nat) (f : Queue → Queue) : (s.modQueue q f).debugSlot = s.debugSlot := rfl
@[simp] theorem State.modQueue_doomed (q : Nat) (f : Queue → Queue) : (s.modQueue q f).doomed = s.doomed := rfl
@[simp] theorem State.modQueue_time (q : Nat) (f : Queue → Queue) : (s.modQueue q f).time = s.time := rfl
@[simp] theorem State.modQueue_agenda (q : Nat) (f : Queue → Queue) : (s.modQueue q f).agenda = s.agenda := rfl
@[simp] theorem State.modQueue_issuer (q : Nat) (f : Queue → Queue) : (s.modQueue q f).issuer = s.issuer := rfl
@[simp] theorem State.modQueue_freeCtr (q : Nat) (f : Queue → Queue) : (s.modQueue q f).freeCtr = s.freeCtr := rfl
@[simp] theorem State.modQueue_nextId (q : Nat) (f : Queue → Queue) : (s.modQueue q f).nextId = s.nextId := rfl

@[simp] theorem State.modPort_mgmt (p : Nat) (f : Port → Port) : (s.modPort p f).mgmt = s.mgmt := rfl
@[simp] theorem State.modPort_mem (p : Nat) (f : Port → Port) : (s.modPort p f).mem = s.mem := rfl
@[simp] theorem State.modPort_vault (p : Nat) (f : Port → Port) : (s.modPort p f).vault = s.vault := rfl
@[simp] theorem State.modPort_host (p : Nat) (f : Port → Port) : (s.modPort p f).host = s.host := rfl
@[simp] theorem State.modPort_msix (p : Nat) (f : Port → Port) : (s.modPort p f).msix = s.msix := rfl
@[simp] theorem State.modPort_reports (p : Nat) (f : Port → Port) : (s.modPort p f).reports = s.reports := rfl
@[simp] theorem State.modPort_spdm (p : Nat) (f : Port → Port) : (s.modPort p f).spdm = s.spdm := rfl
@[simp] theorem State.modPort_poison (p : Nat) (f : Port → Port) : (s.modPort p f).poison = s.poison := rfl
@[simp] theorem State.modPort_owners (p : Nat) (f : Port → Port) : (s.modPort p f).owners = s.owners := rfl
@[simp] theorem State.modPort_l2 (p : Nat) (f : Port → Port) : (s.modPort p f).l2 = s.l2 := rfl
@[simp] theorem State.modPort_waiters (p : Nat) (f : Port → Port) : (s.modPort p f).waiters = s.waiters := rfl
@[simp] theorem State.modPort_tlb (p : Nat) (f : Port → Port) : (s.modPort p f).tlb = s.tlb := rfl
@[simp] theorem State.modPort_walks (p : Nat) (f : Port → Port) : (s.modPort p f).walks = s.walks := rfl
@[simp] theorem State.modPort_invq (p : Nat) (f : Port → Port) : (s.modPort p f).invq = s.invq := rfl
@[simp] theorem State.modPort_tlbBad (p : Nat) (f : Port → Port) : (s.modPort p f).tlbBad = s.tlbBad := rfl
@[simp] theorem State.modPort_contexts (p : Nat) (f : Port → Port) : (s.modPort p f).contexts = s.contexts := rfl
@[simp] theorem State.modPort_queues (p : Nat) (f : Port → Port) : (s.modPort p f).queues = s.queues := rfl
@[simp] theorem State.modPort_serving (p : Nat) (f : Port → Port) : (s.modPort p f).serving = s.serving := rfl
@[simp] theorem State.modPort_turn (p : Nat) (f : Port → Port) : (s.modPort p f).turn = s.turn := rfl
@[simp] theorem State.modPort_kernels (p : Nat) (f : Port → Port) : (s.modPort p f).kernels = s.kernels := rfl
@[simp] theorem State.modPort_tasks (p : Nat) (f : Port → Port) : (s.modPort p f).tasks = s.tasks := rfl
@[simp] theorem State.modPort_cores (p : Nat) (f : Port → Port) : (s.modPort p f).cores = s.cores := rfl
@[simp] theorem State.modPort_xfTurn (p : Nat) (f : Port → Port) : (s.modPort p f).xfTurn = s.xfTurn := rfl
@[simp] theorem State.modPort_routes (p : Nat) (f : Port → Port) : (s.modPort p f).routes = s.routes := rfl
@[simp] theorem State.modPort_exports (p : Nat) (f : Port → Port) : (s.modPort p f).exports = s.exports := rfl
@[simp] theorem State.modPort_rwin (p : Nat) (f : Port → Port) : (s.modPort p f).rwin = s.rwin := rfl
@[simp] theorem State.modPort_rwrng (p : Nat) (f : Port → Port) : (s.modPort p f).rwrng = s.rwrng := rfl
@[simp] theorem State.modPort_outstanding (p : Nat) (f : Port → Port) : (s.modPort p f).outstanding = s.outstanding := rfl
@[simp] theorem State.modPort_answers (p : Nat) (f : Port → Port) : (s.modPort p f).answers = s.answers := rfl
@[simp] theorem State.modPort_nextTag (p : Nat) (f : Port → Port) : (s.modPort p f).nextTag = s.nextTag := rfl
@[simp] theorem State.modPort_served (p : Nat) (f : Port → Port) : (s.modPort p f).served = s.served := rfl
@[simp] theorem State.modPort_spent (p : Nat) (f : Port → Port) : (s.modPort p f).spent = s.spent := rfl
@[simp] theorem State.modPort_att (p : Nat) (f : Port → Port) : (s.modPort p f).att = s.att := rfl
@[simp] theorem State.modPort_atten (p : Nat) (f : Port → Port) : (s.modPort p f).atten = s.atten := rfl
@[simp] theorem State.modPort_frozen (p : Nat) (f : Port → Port) : (s.modPort p f).frozen = s.frozen := rfl
@[simp] theorem State.modPort_debugSlot (p : Nat) (f : Port → Port) : (s.modPort p f).debugSlot = s.debugSlot := rfl
@[simp] theorem State.modPort_doomed (p : Nat) (f : Port → Port) : (s.modPort p f).doomed = s.doomed := rfl
@[simp] theorem State.modPort_time (p : Nat) (f : Port → Port) : (s.modPort p f).time = s.time := rfl
@[simp] theorem State.modPort_agenda (p : Nat) (f : Port → Port) : (s.modPort p f).agenda = s.agenda := rfl
@[simp] theorem State.modPort_issuer (p : Nat) (f : Port → Port) : (s.modPort p f).issuer = s.issuer := rfl
@[simp] theorem State.modPort_freeCtr (p : Nat) (f : Port → Port) : (s.modPort p f).freeCtr = s.freeCtr := rfl
@[simp] theorem State.modPort_nextId (p : Nat) (f : Port → Port) : (s.modPort p f).nextId = s.nextId := rfl

@[simp] theorem State.modTask_mgmt (i : Nat) (f : Task → Task) : (s.modTask i f).mgmt = s.mgmt := rfl
@[simp] theorem State.modTask_mem (i : Nat) (f : Task → Task) : (s.modTask i f).mem = s.mem := rfl
@[simp] theorem State.modTask_vault (i : Nat) (f : Task → Task) : (s.modTask i f).vault = s.vault := rfl
@[simp] theorem State.modTask_host (i : Nat) (f : Task → Task) : (s.modTask i f).host = s.host := rfl
@[simp] theorem State.modTask_msix (i : Nat) (f : Task → Task) : (s.modTask i f).msix = s.msix := rfl
@[simp] theorem State.modTask_reports (i : Nat) (f : Task → Task) : (s.modTask i f).reports = s.reports := rfl
@[simp] theorem State.modTask_spdm (i : Nat) (f : Task → Task) : (s.modTask i f).spdm = s.spdm := rfl
@[simp] theorem State.modTask_poison (i : Nat) (f : Task → Task) : (s.modTask i f).poison = s.poison := rfl
@[simp] theorem State.modTask_owners (i : Nat) (f : Task → Task) : (s.modTask i f).owners = s.owners := rfl
@[simp] theorem State.modTask_l2 (i : Nat) (f : Task → Task) : (s.modTask i f).l2 = s.l2 := rfl
@[simp] theorem State.modTask_waiters (i : Nat) (f : Task → Task) : (s.modTask i f).waiters = s.waiters := rfl
@[simp] theorem State.modTask_tlb (i : Nat) (f : Task → Task) : (s.modTask i f).tlb = s.tlb := rfl
@[simp] theorem State.modTask_walks (i : Nat) (f : Task → Task) : (s.modTask i f).walks = s.walks := rfl
@[simp] theorem State.modTask_invq (i : Nat) (f : Task → Task) : (s.modTask i f).invq = s.invq := rfl
@[simp] theorem State.modTask_tlbBad (i : Nat) (f : Task → Task) : (s.modTask i f).tlbBad = s.tlbBad := rfl
@[simp] theorem State.modTask_contexts (i : Nat) (f : Task → Task) : (s.modTask i f).contexts = s.contexts := rfl
@[simp] theorem State.modTask_queues (i : Nat) (f : Task → Task) : (s.modTask i f).queues = s.queues := rfl
@[simp] theorem State.modTask_serving (i : Nat) (f : Task → Task) : (s.modTask i f).serving = s.serving := rfl
@[simp] theorem State.modTask_turn (i : Nat) (f : Task → Task) : (s.modTask i f).turn = s.turn := rfl
@[simp] theorem State.modTask_kernels (i : Nat) (f : Task → Task) : (s.modTask i f).kernels = s.kernels := rfl
@[simp] theorem State.modTask_cores (i : Nat) (f : Task → Task) : (s.modTask i f).cores = s.cores := rfl
@[simp] theorem State.modTask_xfTurn (i : Nat) (f : Task → Task) : (s.modTask i f).xfTurn = s.xfTurn := rfl
@[simp] theorem State.modTask_ports (i : Nat) (f : Task → Task) : (s.modTask i f).ports = s.ports := rfl
@[simp] theorem State.modTask_routes (i : Nat) (f : Task → Task) : (s.modTask i f).routes = s.routes := rfl
@[simp] theorem State.modTask_exports (i : Nat) (f : Task → Task) : (s.modTask i f).exports = s.exports := rfl
@[simp] theorem State.modTask_rwin (i : Nat) (f : Task → Task) : (s.modTask i f).rwin = s.rwin := rfl
@[simp] theorem State.modTask_rwrng (i : Nat) (f : Task → Task) : (s.modTask i f).rwrng = s.rwrng := rfl
@[simp] theorem State.modTask_outstanding (i : Nat) (f : Task → Task) : (s.modTask i f).outstanding = s.outstanding := rfl
@[simp] theorem State.modTask_answers (i : Nat) (f : Task → Task) : (s.modTask i f).answers = s.answers := rfl
@[simp] theorem State.modTask_nextTag (i : Nat) (f : Task → Task) : (s.modTask i f).nextTag = s.nextTag := rfl
@[simp] theorem State.modTask_served (i : Nat) (f : Task → Task) : (s.modTask i f).served = s.served := rfl
@[simp] theorem State.modTask_spent (i : Nat) (f : Task → Task) : (s.modTask i f).spent = s.spent := rfl
@[simp] theorem State.modTask_att (i : Nat) (f : Task → Task) : (s.modTask i f).att = s.att := rfl
@[simp] theorem State.modTask_atten (i : Nat) (f : Task → Task) : (s.modTask i f).atten = s.atten := rfl
@[simp] theorem State.modTask_frozen (i : Nat) (f : Task → Task) : (s.modTask i f).frozen = s.frozen := rfl
@[simp] theorem State.modTask_debugSlot (i : Nat) (f : Task → Task) : (s.modTask i f).debugSlot = s.debugSlot := rfl
@[simp] theorem State.modTask_doomed (i : Nat) (f : Task → Task) : (s.modTask i f).doomed = s.doomed := rfl
@[simp] theorem State.modTask_time (i : Nat) (f : Task → Task) : (s.modTask i f).time = s.time := rfl
@[simp] theorem State.modTask_agenda (i : Nat) (f : Task → Task) : (s.modTask i f).agenda = s.agenda := rfl
@[simp] theorem State.modTask_issuer (i : Nat) (f : Task → Task) : (s.modTask i f).issuer = s.issuer := rfl
@[simp] theorem State.modTask_freeCtr (i : Nat) (f : Task → Task) : (s.modTask i f).freeCtr = s.freeCtr := rfl
@[simp] theorem State.modTask_nextId (i : Nat) (f : Task → Task) : (s.modTask i f).nextId = s.nextId := rfl

@[simp] theorem State.modKernel_mgmt (i : Nat) (f : Kernel → Kernel) : (s.modKernel i f).mgmt = s.mgmt := rfl
@[simp] theorem State.modKernel_mem (i : Nat) (f : Kernel → Kernel) : (s.modKernel i f).mem = s.mem := rfl
@[simp] theorem State.modKernel_vault (i : Nat) (f : Kernel → Kernel) : (s.modKernel i f).vault = s.vault := rfl
@[simp] theorem State.modKernel_host (i : Nat) (f : Kernel → Kernel) : (s.modKernel i f).host = s.host := rfl
@[simp] theorem State.modKernel_msix (i : Nat) (f : Kernel → Kernel) : (s.modKernel i f).msix = s.msix := rfl
@[simp] theorem State.modKernel_reports (i : Nat) (f : Kernel → Kernel) : (s.modKernel i f).reports = s.reports := rfl
@[simp] theorem State.modKernel_spdm (i : Nat) (f : Kernel → Kernel) : (s.modKernel i f).spdm = s.spdm := rfl
@[simp] theorem State.modKernel_poison (i : Nat) (f : Kernel → Kernel) : (s.modKernel i f).poison = s.poison := rfl
@[simp] theorem State.modKernel_owners (i : Nat) (f : Kernel → Kernel) : (s.modKernel i f).owners = s.owners := rfl
@[simp] theorem State.modKernel_l2 (i : Nat) (f : Kernel → Kernel) : (s.modKernel i f).l2 = s.l2 := rfl
@[simp] theorem State.modKernel_waiters (i : Nat) (f : Kernel → Kernel) : (s.modKernel i f).waiters = s.waiters := rfl
@[simp] theorem State.modKernel_tlb (i : Nat) (f : Kernel → Kernel) : (s.modKernel i f).tlb = s.tlb := rfl
@[simp] theorem State.modKernel_walks (i : Nat) (f : Kernel → Kernel) : (s.modKernel i f).walks = s.walks := rfl
@[simp] theorem State.modKernel_invq (i : Nat) (f : Kernel → Kernel) : (s.modKernel i f).invq = s.invq := rfl
@[simp] theorem State.modKernel_tlbBad (i : Nat) (f : Kernel → Kernel) : (s.modKernel i f).tlbBad = s.tlbBad := rfl
@[simp] theorem State.modKernel_contexts (i : Nat) (f : Kernel → Kernel) : (s.modKernel i f).contexts = s.contexts := rfl
@[simp] theorem State.modKernel_queues (i : Nat) (f : Kernel → Kernel) : (s.modKernel i f).queues = s.queues := rfl
@[simp] theorem State.modKernel_serving (i : Nat) (f : Kernel → Kernel) : (s.modKernel i f).serving = s.serving := rfl
@[simp] theorem State.modKernel_turn (i : Nat) (f : Kernel → Kernel) : (s.modKernel i f).turn = s.turn := rfl
@[simp] theorem State.modKernel_tasks (i : Nat) (f : Kernel → Kernel) : (s.modKernel i f).tasks = s.tasks := rfl
@[simp] theorem State.modKernel_cores (i : Nat) (f : Kernel → Kernel) : (s.modKernel i f).cores = s.cores := rfl
@[simp] theorem State.modKernel_xfTurn (i : Nat) (f : Kernel → Kernel) : (s.modKernel i f).xfTurn = s.xfTurn := rfl
@[simp] theorem State.modKernel_ports (i : Nat) (f : Kernel → Kernel) : (s.modKernel i f).ports = s.ports := rfl
@[simp] theorem State.modKernel_routes (i : Nat) (f : Kernel → Kernel) : (s.modKernel i f).routes = s.routes := rfl
@[simp] theorem State.modKernel_exports (i : Nat) (f : Kernel → Kernel) : (s.modKernel i f).exports = s.exports := rfl
@[simp] theorem State.modKernel_rwin (i : Nat) (f : Kernel → Kernel) : (s.modKernel i f).rwin = s.rwin := rfl
@[simp] theorem State.modKernel_rwrng (i : Nat) (f : Kernel → Kernel) : (s.modKernel i f).rwrng = s.rwrng := rfl
@[simp] theorem State.modKernel_outstanding (i : Nat) (f : Kernel → Kernel) : (s.modKernel i f).outstanding = s.outstanding := rfl
@[simp] theorem State.modKernel_answers (i : Nat) (f : Kernel → Kernel) : (s.modKernel i f).answers = s.answers := rfl
@[simp] theorem State.modKernel_nextTag (i : Nat) (f : Kernel → Kernel) : (s.modKernel i f).nextTag = s.nextTag := rfl
@[simp] theorem State.modKernel_served (i : Nat) (f : Kernel → Kernel) : (s.modKernel i f).served = s.served := rfl
@[simp] theorem State.modKernel_spent (i : Nat) (f : Kernel → Kernel) : (s.modKernel i f).spent = s.spent := rfl
@[simp] theorem State.modKernel_att (i : Nat) (f : Kernel → Kernel) : (s.modKernel i f).att = s.att := rfl
@[simp] theorem State.modKernel_atten (i : Nat) (f : Kernel → Kernel) : (s.modKernel i f).atten = s.atten := rfl
@[simp] theorem State.modKernel_frozen (i : Nat) (f : Kernel → Kernel) : (s.modKernel i f).frozen = s.frozen := rfl
@[simp] theorem State.modKernel_debugSlot (i : Nat) (f : Kernel → Kernel) : (s.modKernel i f).debugSlot = s.debugSlot := rfl
@[simp] theorem State.modKernel_doomed (i : Nat) (f : Kernel → Kernel) : (s.modKernel i f).doomed = s.doomed := rfl
@[simp] theorem State.modKernel_time (i : Nat) (f : Kernel → Kernel) : (s.modKernel i f).time = s.time := rfl
@[simp] theorem State.modKernel_agenda (i : Nat) (f : Kernel → Kernel) : (s.modKernel i f).agenda = s.agenda := rfl
@[simp] theorem State.modKernel_issuer (i : Nat) (f : Kernel → Kernel) : (s.modKernel i f).issuer = s.issuer := rfl
@[simp] theorem State.modKernel_freeCtr (i : Nat) (f : Kernel → Kernel) : (s.modKernel i f).freeCtr = s.freeCtr := rfl
@[simp] theorem State.modKernel_nextId (i : Nat) (f : Kernel → Kernel) : (s.modKernel i f).nextId = s.nextId := rfl

@[simp] theorem State.modWarp_mgmt (t w : Nat) (f : Warp → Warp) : (s.modWarp t w f).mgmt = s.mgmt := rfl
@[simp] theorem State.modWarp_mem (t w : Nat) (f : Warp → Warp) : (s.modWarp t w f).mem = s.mem := rfl
@[simp] theorem State.modWarp_vault (t w : Nat) (f : Warp → Warp) : (s.modWarp t w f).vault = s.vault := rfl
@[simp] theorem State.modWarp_host (t w : Nat) (f : Warp → Warp) : (s.modWarp t w f).host = s.host := rfl
@[simp] theorem State.modWarp_msix (t w : Nat) (f : Warp → Warp) : (s.modWarp t w f).msix = s.msix := rfl
@[simp] theorem State.modWarp_reports (t w : Nat) (f : Warp → Warp) : (s.modWarp t w f).reports = s.reports := rfl
@[simp] theorem State.modWarp_spdm (t w : Nat) (f : Warp → Warp) : (s.modWarp t w f).spdm = s.spdm := rfl
@[simp] theorem State.modWarp_poison (t w : Nat) (f : Warp → Warp) : (s.modWarp t w f).poison = s.poison := rfl
@[simp] theorem State.modWarp_owners (t w : Nat) (f : Warp → Warp) : (s.modWarp t w f).owners = s.owners := rfl
@[simp] theorem State.modWarp_l2 (t w : Nat) (f : Warp → Warp) : (s.modWarp t w f).l2 = s.l2 := rfl
@[simp] theorem State.modWarp_waiters (t w : Nat) (f : Warp → Warp) : (s.modWarp t w f).waiters = s.waiters := rfl
@[simp] theorem State.modWarp_tlb (t w : Nat) (f : Warp → Warp) : (s.modWarp t w f).tlb = s.tlb := rfl
@[simp] theorem State.modWarp_walks (t w : Nat) (f : Warp → Warp) : (s.modWarp t w f).walks = s.walks := rfl
@[simp] theorem State.modWarp_invq (t w : Nat) (f : Warp → Warp) : (s.modWarp t w f).invq = s.invq := rfl
@[simp] theorem State.modWarp_tlbBad (t w : Nat) (f : Warp → Warp) : (s.modWarp t w f).tlbBad = s.tlbBad := rfl
@[simp] theorem State.modWarp_contexts (t w : Nat) (f : Warp → Warp) : (s.modWarp t w f).contexts = s.contexts := rfl
@[simp] theorem State.modWarp_queues (t w : Nat) (f : Warp → Warp) : (s.modWarp t w f).queues = s.queues := rfl
@[simp] theorem State.modWarp_serving (t w : Nat) (f : Warp → Warp) : (s.modWarp t w f).serving = s.serving := rfl
@[simp] theorem State.modWarp_turn (t w : Nat) (f : Warp → Warp) : (s.modWarp t w f).turn = s.turn := rfl
@[simp] theorem State.modWarp_kernels (t w : Nat) (f : Warp → Warp) : (s.modWarp t w f).kernels = s.kernels := rfl
@[simp] theorem State.modWarp_cores (t w : Nat) (f : Warp → Warp) : (s.modWarp t w f).cores = s.cores := rfl
@[simp] theorem State.modWarp_xfTurn (t w : Nat) (f : Warp → Warp) : (s.modWarp t w f).xfTurn = s.xfTurn := rfl
@[simp] theorem State.modWarp_ports (t w : Nat) (f : Warp → Warp) : (s.modWarp t w f).ports = s.ports := rfl
@[simp] theorem State.modWarp_routes (t w : Nat) (f : Warp → Warp) : (s.modWarp t w f).routes = s.routes := rfl
@[simp] theorem State.modWarp_exports (t w : Nat) (f : Warp → Warp) : (s.modWarp t w f).exports = s.exports := rfl
@[simp] theorem State.modWarp_rwin (t w : Nat) (f : Warp → Warp) : (s.modWarp t w f).rwin = s.rwin := rfl
@[simp] theorem State.modWarp_rwrng (t w : Nat) (f : Warp → Warp) : (s.modWarp t w f).rwrng = s.rwrng := rfl
@[simp] theorem State.modWarp_outstanding (t w : Nat) (f : Warp → Warp) : (s.modWarp t w f).outstanding = s.outstanding := rfl
@[simp] theorem State.modWarp_answers (t w : Nat) (f : Warp → Warp) : (s.modWarp t w f).answers = s.answers := rfl
@[simp] theorem State.modWarp_nextTag (t w : Nat) (f : Warp → Warp) : (s.modWarp t w f).nextTag = s.nextTag := rfl
@[simp] theorem State.modWarp_served (t w : Nat) (f : Warp → Warp) : (s.modWarp t w f).served = s.served := rfl
@[simp] theorem State.modWarp_spent (t w : Nat) (f : Warp → Warp) : (s.modWarp t w f).spent = s.spent := rfl
@[simp] theorem State.modWarp_att (t w : Nat) (f : Warp → Warp) : (s.modWarp t w f).att = s.att := rfl
@[simp] theorem State.modWarp_atten (t w : Nat) (f : Warp → Warp) : (s.modWarp t w f).atten = s.atten := rfl
@[simp] theorem State.modWarp_frozen (t w : Nat) (f : Warp → Warp) : (s.modWarp t w f).frozen = s.frozen := rfl
@[simp] theorem State.modWarp_debugSlot (t w : Nat) (f : Warp → Warp) : (s.modWarp t w f).debugSlot = s.debugSlot := rfl
@[simp] theorem State.modWarp_doomed (t w : Nat) (f : Warp → Warp) : (s.modWarp t w f).doomed = s.doomed := rfl
@[simp] theorem State.modWarp_time (t w : Nat) (f : Warp → Warp) : (s.modWarp t w f).time = s.time := rfl
@[simp] theorem State.modWarp_agenda (t w : Nat) (f : Warp → Warp) : (s.modWarp t w f).agenda = s.agenda := rfl
@[simp] theorem State.modWarp_issuer (t w : Nat) (f : Warp → Warp) : (s.modWarp t w f).issuer = s.issuer := rfl
@[simp] theorem State.modWarp_freeCtr (t w : Nat) (f : Warp → Warp) : (s.modWarp t w f).freeCtr = s.freeCtr := rfl
@[simp] theorem State.modWarp_nextId (t w : Nat) (f : Warp → Warp) : (s.modWarp t w f).nextId = s.nextId := rfl

@[simp] theorem State.guarded_mgmt : (s.guarded s').mgmt = s.mgmt := rfl
@[simp] theorem State.guarded_mem : (s.guarded s').mem = s'.mem := rfl
@[simp] theorem State.guarded_vault : (s.guarded s').vault = s'.vault := rfl
@[simp] theorem State.guarded_host : (s.guarded s').host = s'.host := rfl
@[simp] theorem State.guarded_msix : (s.guarded s').msix = s'.msix := rfl
@[simp] theorem State.guarded_reports : (s.guarded s').reports = s'.reports := rfl
@[simp] theorem State.guarded_spdm : (s.guarded s').spdm = s'.spdm := rfl
@[simp] theorem State.guarded_poison : (s.guarded s').poison = s'.poison := rfl
@[simp] theorem State.guarded_owners : (s.guarded s').owners = s'.owners := rfl
@[simp] theorem State.guarded_l2 : (s.guarded s').l2 = s'.l2 := rfl
@[simp] theorem State.guarded_waiters : (s.guarded s').waiters = s'.waiters := rfl
@[simp] theorem State.guarded_tlb : (s.guarded s').tlb = s'.tlb := rfl
@[simp] theorem State.guarded_walks : (s.guarded s').walks = s'.walks := rfl
@[simp] theorem State.guarded_invq : (s.guarded s').invq = s'.invq := rfl
@[simp] theorem State.guarded_tlbBad : (s.guarded s').tlbBad = s'.tlbBad := rfl
@[simp] theorem State.guarded_contexts : (s.guarded s').contexts = s'.contexts := rfl
@[simp] theorem State.guarded_queues : (s.guarded s').queues = s'.queues := rfl
@[simp] theorem State.guarded_serving : (s.guarded s').serving = s'.serving := rfl
@[simp] theorem State.guarded_turn : (s.guarded s').turn = s'.turn := rfl
@[simp] theorem State.guarded_kernels : (s.guarded s').kernels = s'.kernels := rfl
@[simp] theorem State.guarded_tasks : (s.guarded s').tasks = s'.tasks := rfl
@[simp] theorem State.guarded_cores : (s.guarded s').cores = s'.cores := rfl
@[simp] theorem State.guarded_xfTurn : (s.guarded s').xfTurn = s'.xfTurn := rfl
@[simp] theorem State.guarded_ports : (s.guarded s').ports = s'.ports := rfl
@[simp] theorem State.guarded_routes : (s.guarded s').routes = s.routes := rfl
@[simp] theorem State.guarded_exports : (s.guarded s').exports = s.exports := rfl
@[simp] theorem State.guarded_rwin : (s.guarded s').rwin = s.rwin := rfl
@[simp] theorem State.guarded_rwrng : (s.guarded s').rwrng = s.rwrng := rfl
@[simp] theorem State.guarded_outstanding : (s.guarded s').outstanding = s'.outstanding := rfl
@[simp] theorem State.guarded_answers : (s.guarded s').answers = s'.answers := rfl
@[simp] theorem State.guarded_nextTag : (s.guarded s').nextTag = s'.nextTag := rfl
@[simp] theorem State.guarded_served : (s.guarded s').served = s'.served := rfl
@[simp] theorem State.guarded_spent : (s.guarded s').spent = s'.spent := rfl
@[simp] theorem State.guarded_att : (s.guarded s').att = s'.att := rfl
@[simp] theorem State.guarded_atten : (s.guarded s').atten = s'.atten := rfl
@[simp] theorem State.guarded_frozen : (s.guarded s').frozen = s'.frozen := rfl
@[simp] theorem State.guarded_debugSlot : (s.guarded s').debugSlot = s'.debugSlot := rfl
@[simp] theorem State.guarded_doomed : (s.guarded s').doomed = s'.doomed := rfl
@[simp] theorem State.guarded_time : (s.guarded s').time = s'.time := rfl
@[simp] theorem State.guarded_agenda : (s.guarded s').agenda = s'.agenda := rfl
@[simp] theorem State.guarded_issuer : (s.guarded s').issuer = s'.issuer := rfl
@[simp] theorem State.guarded_freeCtr : (s.guarded s').freeCtr = s'.freeCtr := rfl
@[simp] theorem State.guarded_nextId : (s.guarded s').nextId = s'.nextId := rfl

end Sys2Proof.Machine
end

