-- ==== Sys2Proof/Laws/Issue.lean ====
section
/-!
SUPPORT. What the operations of a meaning and the issue of a word do, said once.
-/

namespace Sys2Proof.Machine

open Sys2Proof

/-! ## Operations one after another -/

theorem Op.bind_run {α β : Type} (m : Op α) (f : α → Op β) (s : State) :
    (m >>= f) s = match m s with
      | .ok (a, t) => f a t
      | .error e => .error e := by
  show (StateT.bind m f) s = _
  unfold StateT.bind
  cases h : m s with
  | ok x => obtain ⟨a, t⟩ := x; simp [bind, Except.bind]
  | error e => simp [bind, Except.bind]

/-- An operation that runs hands its answer and state to the next. -/
theorem Op.bind_of {α β : Type} {m : Op α} {f : α → Op β} {s t : State} {a : α} (h : Runs m s a t) : (m >>= f) s = f a t := by
  rw [Op.bind_run, show m s = .ok (a, t) from h]

@[simp] theorem Op.pure_run {α : Type} (a : α) (s : State) : (pure a : Op α) s = .ok (a, s) := rfl
@[simp] theorem Op.state_run (s : State) : Op.state s = .ok (s, s) := rfl
@[simp] theorem Op.put_run (s t : State) : Op.put t s = .ok ((), t) := rfl
@[simp] theorem Op.modify_run (f : State → State) (s : State) : Op.modify f s = .ok ((), f s) := rfl
@[simp] theorem Op.modWarp_run (c : Ctx) (f : Warp → Warp) (s : State) :
    Op.modWarp c f s = .ok ((), s.modWarp c.task c.warp f) := rfl
@[simp] theorem Op.commit_run (c : Ctx) (ts : List Tid) (s : State) :
    Op.commit c ts s = .ok ((), s.modWarp c.task c.warp fun w => w.modThreads (if c.u then c.active else ts) .commit) := rfl
@[simp] theorem Op.acquire_run (c : Ctx) (s : State) : Op.acquire c s = .ok ((), s.acquire c.core) := rfl
@[simp] theorem Op.stop_run {α : Type} (x : Stop) (s : State) : (Op.stop x : Op α) s = .error x := rfl

/-- A thread-by-thread instruction runs as its units do (R129). -/
theorem Op.eachFrom_run {α : Type} {c : Ctx} {check : Tid → Op α} {act : Tid → α → Op Unit} {is : List Tid} {s t : State}
    (h : EachRuns c check act is s t) : Runs (Op.eachFrom c check act is) s () t := by
  induction is generalizing s with
  | nil => cases h; rfl
  | cons i is ih =>
    obtain ⟨a, s₁, s₂, h₁, h₂, h₃⟩ := h
    show Op.eachFrom c check act (i :: is) s = _
    unfold Op.eachFrom
    dsimp only
    have run : (do let b ← Op.state; let x ← check i; act i x; Op.modify fun s => s.applied c b i : Op Unit) s
        = .ok ((), s₂.applied c s i) := by
      rw [Op.bind_of (Op.state_run s), Op.bind_of h₁, Op.bind_of h₂, Op.modify_run]
    rw [run]
    exact ih h₃

/-- Two changes of one warp are one change. -/
theorem State.modWarp_modWarp (s : State) (task warp : Nat) (f g : Warp → Warp) :
    (s.modWarp task warp f).modWarp task warp g = s.modWarp task warp fun w => g (f w) := by
  simp only [State.modWarp, State.modTask, List.map_map]
  congr 1
  apply List.map_congr_left
  intro t _
  by_cases h : t.id = task
  · simp only [Function.comp_apply, if_pos h, Task.mk.injEq, true_and, and_true]
    apply List.ext_getElem?
    intro i
    simp only [List.getElem?_modify]
    by_cases e : warp = i <;> cases t.warps[i]? <;> simp [e]
  · simp [h]

/-- The issuing task as an operation. -/
theorem Op.task_run {s : State} {c : Ctx} {t : Task} (h : s.task? c.task = some t) : Runs (Op.task c) s t s := by
  simp [Runs, Op.task, h]

/-! ## The issue of a word -/

/-- The issuing warp is the one that the view shows. -/
theorem issueView_warp {x : Head → Enc} {h : Head} {imm : W32} {s : State} {v : View} (e : issueView x h imm s = some v) :
    s.warp? v.c.task v.c.warp = some v.w := by
  simp only [issueView, Option.bind_eq_some_iff, Option.map_eq_some_iff] at e
  obtain ⟨r, hr, t, ht, w, hw, rfl⟩ := e
  simp [State.warp?, ht, hw]

/-- The view's context is that of the issuing warp. -/
theorem issueView_task {x : Head → Enc} {h : Head} {imm : W32} {s : State} {v : View} (e : issueView x h imm s = some v) :
    ∃ t, s.task? v.c.task = some t ∧ t.warps[v.c.warp]? = some v.w := by
  simp only [issueView, Option.bind_eq_some_iff, Option.map_eq_some_iff] at e
  obtain ⟨r, hr, t, ht, w, hw, rfl⟩ := e
  exact ⟨t, ht, hw⟩

theorem Issues.warp {x : Head → Enc} {h : Head} {imm : W32} {flow : Flow} {s : State} {v : View}
    (i : Issues x h imm flow s v) : Runs (Op.warp v.c) s v.w s := by
  simp [Runs, Op.warp, issueView_warp i.view]

/-- THE ISSUE OF A WORD that nothing stops: its effect, and the end of the instruction. -/
theorem Issues.run {x : Head → Enc} {h : Head} {imm : W32} {flow : Flow} {body : Ctx → Head → Op Unit} {s t : State} {v : View}
    (i : Issues x h imm flow s v) (b : Runs (body v.c v.h) s () t) : issue x h imm flow body s = .next (v.ended flow s t) := by
  have e : body v.c v.h s = .ok ((), t) := b
  simp [issue, i.view, i.clear, e, View.finish, State.keeping, View.ended]

/-- A word whose effect stops with a fault before any change takes that fault. -/
theorem Issues.traps {x : Head → Enc} {h : Head} {imm : W32} {flow : Flow} {body : Ctx → Head → Op Unit} {s : State} {v : View}
    {y : Trap} (i : Issues x h imm flow s v) (b : body v.c v.h s = .error (.trap y)) :
    issue x h imm flow body s = .next (s.guarded (s.takeFault v.c.task v.c.warp v.c.pc y)) := by
  simp [issue, i.view, i.clear, b, View.finish, State.keeping, faultOut]

/-- A word whose effect stops with a fault after changes that stay. -/
theorem Issues.trapsAt {x : Head → Enc} {h : Head} {imm : W32} {flow : Flow} {body : Ctx → Head → Op Unit} {s t : State} {v : View}
    {y : Trap} (i : Issues x h imm flow s v) (b : body v.c v.h s = .error (.trapAt t y)) :
    issue x h imm flow body s = .next (s.guarded (t.takeFault v.c.task v.c.warp v.c.pc y)) := by
  simp [issue, i.view, i.clear, b, View.finish, State.keeping, faultOut]

/-- A word that waits where it stands. -/
theorem Issues.holds {x : Head → Enc} {h : Head} {imm : W32} {flow : Flow} {body : Ctx → Head → Op Unit} {s t : State} {v : View}
    (i : Issues x h imm flow s v) (b : body v.c v.h s = .error (.hold t)) :
    issue x h imm flow body s = .next (s.guarded t) := by
  simp [issue, i.view, i.clear, b, View.finish, State.keeping]

/-- What the outcome of an agent other than the management interface leaves. -/
theorem State.keeping_next {s t : State} {o : Out} (h : s.keeping o = .next t) : SameManagement s t := by
  cases o with
  | next s' =>
    obtain rfl : s.guarded s' = t := by simpa [State.keeping] using h
    exact ⟨rfl, rfl, rfl, rfl, rfl⟩
  | fault f => simp [State.keeping] at h
  | refused r => simp [State.keeping] at h

/-- The issue of a word leaves the registers that only the management interface writes. -/
theorem issue_keeps {x : Head → Enc} {h : Head} {imm : W32} {flow : Flow} {body : Ctx → Head → Op Unit} {s t : State}
    (e : issue x h imm flow body s = .next t) : SameManagement s t := by
  unfold issue at e
  split at e
  · simp at e
  · exact State.keeping_next e

/-- A transfer whose targets pass their checks and that no region forbids (R21, R77, R88). -/
theorem Op.transfer_run {c : Ctx} {k : Aim} {hops : List Hop} {write : Warp → Hop → Warp} {s s₁ : State} {lines : List (Hop × Memory)}
    {w₁ : Warp} (h : Runs (Op.checkHops c k hops) s lines s₁) (hw : s₁.warp? c.task c.warp = some w₁) 
    (hb : hopsBad c w₁ (hops.foldl write w₁) lines = []) :
    Runs (Op.transfer c k hops write) s () (s₁.modWarp c.task c.warp fun w =>
      hops.foldl (fun w h => w.modThreads (c.threadsAt h.tid) fun th => { th with pc := h.target })
        ((hops.foldl write w).modThreads c.active fun th => { th with pc := nextPc c.pc })) := by
  have hw' : Runs (Op.warp c) s₁ w₁ s₁ := by simp [Runs, Op.warp, hw]
  show Op.transfer c k hops write s = _
  unfold Op.transfer
  rw [Op.bind_of h, Op.bind_of hw']
  simp [hb]

/-! ## Instructions that compute from values held (R98) -/

/-- The results of the units of an instruction, formed from the warp as it stands at the start. -/
theorem aluRun_run {x : Head → Enc} {h : Head} {imm : W32} {flow : Flow} {s : State} {v : View} (i : Issues x h imm flow s v)
    (wd : Width) (f : Warp → Tid → AluOut)
    (hf : raisedFlags (v.c.units.map fun t => (t, f v.w t)) &&& v.c.fpte = 0) :
    Runs (aluRun v.c v.h wd f) s () (v.results s wd (v.c.units.map fun t => (t, f v.w t))) := by
  show aluRun v.c v.h wd f s = _
  unfold aluRun
  rw [Op.bind_of i.warp, Op.bind_run]
  simp only [raise, hf, if_true]
  rfl

end Sys2Proof.Machine
end

