-- ==== Sys2Proof/Laws/Memory.lean ====
section
/-!
SUPPORT. Memory: a read after a write of the same place, every other place, and the canonical form, which every operation keeps.
-/

namespace Sys2Proof.Machine

open Sys2Proof

/-- The canonical form from an address up holds from any lower one. -/
theorem Memory.wfFrom_mono {lo lo' : Nat} {m : Memory} (h : Memory.wfFrom lo m = true) (hl : lo' ≤ lo) :
    Memory.wfFrom lo' m = true := by
  cases m with
  | nil => rfl
  | cons x r =>
    obtain ⟨k, b⟩ := x
    simp only [Memory.wfFrom, Bool.and_eq_true, decide_eq_true_eq] at h ⊢
    exact ⟨⟨Nat.le_trans hl h.1.1, h.1.2⟩, h.2⟩

/-- A write at or above the lower end keeps the canonical form. -/
theorem Memory.wfFrom_set {lo a : Nat} {m : Memory} (b : Byte) (h : Memory.wfFrom lo m = true) (ha : lo ≤ a) :
    Memory.wfFrom lo (m.set a b) = true := by
  induction m generalizing lo with
  | nil =>
    by_cases hb : b = 0
    · simp only [Memory.set, hb, if_true, Memory.wfFrom]
    · simp only [Memory.set, hb, if_false, Memory.wfFrom, Bool.and_true, Bool.and_eq_true, decide_eq_true_eq]
      exact ⟨ha, by simpa using hb⟩
  | cons x r ih =>
    obtain ⟨k, c⟩ := x
    simp only [Memory.wfFrom, Bool.and_eq_true, decide_eq_true_eq] at h
    obtain ⟨⟨hk, hc⟩, hr⟩ := h
    simp only [Memory.set]
    split
    · rename_i hlt
      by_cases hb : b = 0
      · simpa [hb, Memory.wfFrom, hk, hr] using hc
      · simp only [hb, if_false, Memory.wfFrom, Bool.and_eq_true, decide_eq_true_eq]
        exact ⟨⟨ha, by simpa using hb⟩, ⟨hlt, hc⟩, hr⟩
    · split
      · rename_i _ he
        subst he
        by_cases hb : b = 0
        · simp only [hb, if_true]
          exact Memory.wfFrom_mono hr (by omega)
        · simp only [hb, if_false, Memory.wfFrom, Bool.and_eq_true, decide_eq_true_eq]
          exact ⟨⟨ha, by simpa using hb⟩, hr⟩
      · simp only [Memory.wfFrom, Bool.and_eq_true, decide_eq_true_eq]
        exact ⟨⟨hk, hc⟩, ih hr (by omega)⟩

/-- A write keeps the canonical form. -/
theorem Memory.wf_set {m : Memory} (a : Nat) (b : Byte) (h : m.wf = true) : (m.set a b).wf = true :=
  Memory.wfFrom_set b h (Nat.zero_le a)

theorem Memory.wf_setBytes {m : Memory} (a : Nat) (bs : List Byte) (h : m.wf = true) : (m.setBytes a bs).wf = true := by
  induction bs generalizing m a with
  | nil => exact h
  | cons b bs ih => exact ih (a + 1) (Memory.wf_set a b h)

theorem Memory.wf_setN {m : Memory} (a n v : Nat) (h : m.wf = true) : (m.setN a n v).wf = true :=
  Memory.wf_setBytes a _ h

/-- Nothing is listed below the lower end. -/
theorem Memory.get_below {lo a : Nat} {m : Memory} (h : Memory.wfFrom lo m = true) (ha : a < lo) : m.get a = 0 := by
  induction m generalizing lo with
  | nil => rfl
  | cons x r ih =>
    obtain ⟨k, c⟩ := x
    simp only [Memory.wfFrom, Bool.and_eq_true, decide_eq_true_eq] at h
    have : a ≠ k := by omega
    simp only [Memory.get, this, if_false]
    exact ih h.2 (by omega)

/-- A write leaves every other address as it was. -/
theorem Memory.get_set_other (m : Memory) {a x : Nat} (b : Byte) (h : x ≠ a) : (m.set a b).get x = m.get x := by
  induction m with
  | nil => by_cases hb : b = 0 <;> simp only [Memory.set, Memory.get, hb, h, if_true, if_false]
  | cons y r ih =>
    obtain ⟨k, c⟩ := y
    simp only [Memory.set]
    split
    · by_cases hb : b = 0 <;> simp only [hb, Memory.get, h, if_true, if_false]
    · split
      · rename_i he
        subst he
        by_cases hb : b = 0 <;> simp only [hb, Memory.get, h, if_true, if_false]
      · simp only [Memory.get, ih]

/-- A read after a write of the same address gives the byte written. -/
theorem Memory.get_set_same {m : Memory} (a : Nat) (b : Byte) (h : m.wf = true) : (m.set a b).get a = b := by
  suffices ∀ lo, Memory.wfFrom lo m = true → (m.set a b).get a = b from this 0 h
  clear h
  induction m with
  | nil => intro lo _; by_cases hb : b = 0 <;> simp only [Memory.set, Memory.get, hb, if_true, if_false]
  | cons y r ih =>
    obtain ⟨k, c⟩ := y
    intro lo hw
    simp only [Memory.wfFrom, Bool.and_eq_true, decide_eq_true_eq] at hw
    simp only [Memory.set]
    split
    · rename_i hlt
      by_cases hb : b = 0
      · have hne : a ≠ k := by omega
        simp only [hb, if_true, Memory.get, hne, if_false]
        exact Memory.get_below hw.2 (by omega)
      · simp only [hb, if_false, Memory.get, if_true]
    · split
      · rename_i he
        subst he
        by_cases hb : b = 0
        · simp only [hb, if_true]
          exact Memory.get_below hw.2 (by omega)
        · simp only [hb, if_false, Memory.get, if_true]
      · rename_i h1 h2
        simp only [Memory.get, h2, if_false]
        exact ih (k + 1) hw.2

/-- A write of bytes leaves every address outside them as it was. -/
theorem Memory.get_setBytes_other (m : Memory) {a x : Nat} (bs : List Byte) (h : x < a ∨ a + bs.length ≤ x) :
    (m.setBytes a bs).get x = m.get x := by
  induction bs generalizing m a with
  | nil => rfl
  | cons b bs ih =>
    simp only [List.length_cons] at h
    simp only [Memory.setBytes]
    rw [ih (m.set a b) (by omega), Memory.get_set_other m b (by omega)]

/-- A read of bytes after a write of them gives the bytes written. -/
theorem Memory.bytes_setBytes {m : Memory} (a : Nat) (bs : List Byte) (h : m.wf = true) :
    (m.setBytes a bs).bytes a bs.length = bs := by
  induction bs generalizing m a with
  | nil => rfl
  | cons b bs ih =>
    simp only [Memory.setBytes, List.length_cons, Memory.bytes, List.cons.injEq]
    refine ⟨?_, ih (a + 1) (Memory.wf_set a b h)⟩
    rw [Memory.get_setBytes_other _ bs (by omega), Memory.get_set_same a b h]

end Sys2Proof.Machine
end

