-- ==== Sys2Proof/Laws/Reads.lean ====
section
/-!
SUPPORT. The operations that only read: where one of them answers, the state is as it was.
-/

namespace Sys2Proof.Machine

open Sys2Proof

/-- An operation that leaves the state as it was wherever it answers. -/
def Op.Keeps {α : Type} (m : Op α) : Prop := ∀ (s : State) (a : α) (t : State), m s = .ok (a, t) → t = s

theorem Op.Keeps.runs {α : Type} {m : Op α} (k : m.Keeps) {s t : State} {a : α} (h : Runs m s a t) : Runs m s a s := by
  have := k s a t h
  subst this
  exact h

theorem Op.keeps_pure {α : Type} (a : α) : (pure a : Op α).Keeps := fun s b t h => by cases h; rfl
theorem Op.keeps_stop {α : Type} (x : Stop) : (Op.stop x : Op α).Keeps := fun s b t h => by cases h
theorem Op.keeps_state : Op.state.Keeps := fun s b t h => by cases h; rfl

theorem Op.keeps_bind {α β : Type} {m : Op α} {f : α → Op β} (hm : m.Keeps) (hf : ∀ a, (f a).Keeps) : (m >>= f).Keeps := by
  intro s b t h
  rw [Op.bind_run] at h
  split at h
  · next a u e => have := hm s a u e; subst this; exact hf a _ b t h
  · cases h

theorem Op.keeps_warp (c : Ctx) : (Op.warp c).Keeps := fun s b t h => by
  unfold Op.warp at h
  split at h <;> cases h; rfl

theorem Op.keeps_task (c : Ctx) : (Op.task c).Keeps := fun s b t h => by
  unfold Op.task at h
  split at h <;> cases h; rfl

theorem Op.keeps_ite {α : Type} {p : Prop} [Decidable p] {x y : Op α} (hx : x.Keeps) (hy : y.Keeps) : (if p then x else y).Keeps := by
  split <;> assumption

theorem Op.keeps_release (c : Ctx) (mask : BitVec 16) : (Op.release c mask).Keeps := fun s b t h => by
  unfold Op.release at h
  repeat' split at h
  all_goals cases h
  rfl

theorem Op.keeps_trap {α : Type} (cause : Cause) (mask : BitVec 16) (addr extra : Nat) :
    (Op.trap cause mask addr extra : Op α).Keeps := Op.keeps_stop _
theorem Op.keeps_trapHere {α : Type} (x : Trap) : (Op.trapHere x : Op α).Keeps := fun s b t h => by cases h
theorem Op.keeps_holdHere {α : Type} : (Op.holdHere : Op α).Keeps := fun s b t h => by cases h

/-- A word that waits where it stands does not answer. -/
theorem Op.stallHere_ne {α : Type} (c : Ctx) (why : Stall) (s : State) (x : α × State) : (Op.stallHere c why : Op α) s ≠ .ok x := by
  intro h
  unfold Op.stallHere at h
  rw [Op.bind_run] at h
  cases h

theorem Op.keeps_stallHere {α : Type} (c : Ctx) (why : Stall) : (Op.stallHere c why : Op α).Keeps :=
  fun s _ _ h => absurd h (Op.stallHere_ne c why s _)

theorem Op.keeps_gatherFrom {α : Type} {check : Tid → Op α} (h : ∀ t, (check t).Keeps) : ∀ ts, (Op.gatherFrom check ts).Keeps := by
  intro ts
  induction ts with
  | nil => exact Op.keeps_pure _
  | cons i is ih =>
    intro s b t e
    unfold Op.gatherFrom at e
    split at e
    · next x s' hc =>
      have := h i s x s' hc
      subst this
      exact Op.keeps_bind ih (fun _ => Op.keeps_pure _) _ _ _ e
    all_goals cases e

/-! ## The checks of instructions -/

theorem Op.keeps_ownTile (c : Ctx) (n : Nat) : (Op.ownTile c n).Keeps :=
  Op.keeps_bind (Op.keeps_task c) fun _ => Op.keeps_ite (Op.keeps_trap _ _ _ _) (Op.keeps_pure _)

theorem Op.keeps_ownPlane (c : Ctx) (n : Nat) : (Op.ownPlane c n).Keeps :=
  Op.keeps_bind (Op.keeps_task c) fun t => by
    split
    · exact Op.keeps_pure _
    · exact Op.keeps_trap _ _ _ _

/-- An MMA that waits for its plane takes its place and does not answer. -/
theorem Op.keeps_loadedPlane (c : Ctx) (n : Nat) (place : MatOp) : (Op.loadedPlane c n place).Keeps :=
  Op.keeps_bind (Op.keeps_ownPlane c n) fun p => Op.keeps_bind Op.keeps_state fun s => by
    split
    · split
      · exact Op.keeps_ite (Op.keeps_trap _ _ _ _) (Op.keeps_pure _)
      · exact Op.keeps_stallHere _ _
    · split
      · exact Op.keeps_pure _
      · intro u a t h
        rw [Op.bind_run] at h
        exact absurd h (Op.stallHere_ne c .planeBusy _ _)
      · exact Op.keeps_trap _ _ _ _

theorem Op.keeps_coordinate (mask : BitVec 16) (w : Warp) (d : TDesc) (tx ty : Nat) : (Op.coordinate mask w d tx ty).Keeps := by
  intro s b t h
  unfold Op.coordinate at h
  by_cases e : d.holds tx ty = false
  · rw [if_pos e] at h; cases h
  · rw [if_neg e] at h
    by_cases e' : d.recl = true ∧ w.depth = 0
    · rw [if_pos e'] at h; cases h
    · rw [if_neg e'] at h; cases h; rfl

theorem Op.keeps_poisonCheck (c : Ctx) (n : Nat) (as : List Aimed) : (Op.poisonCheck c n as).Keeps :=
  Op.keeps_bind Op.keeps_state fun s => by
    dsimp only
    split
    · exact Op.keeps_trapHere _
    · exact Op.keeps_pure _

theorem Op.keeps_debugAim (c : Ctx) (n : Nat) (never : Bool) (eas : List (Tid × Nat)) : (Op.debugAim c n never eas).Keeps :=
  Op.keeps_bind Op.keeps_state fun s => by
    dsimp only
    split
    · exact Op.keeps_stop _
    · exact Op.keeps_pure _

theorem Op.keeps_sysIndexes (c : Ctx) (k : EWord) (bad : State → Nat → Option Cause) : (Op.sysIndexes c k bad).Keeps :=
  Op.keeps_gatherFrom (fun t => Op.keeps_bind (Op.keeps_warp c) fun w => Op.keeps_bind Op.keeps_state fun s => by
    dsimp only
    split
    · exact Op.keeps_trap _ _ _ _
    · exact Op.keeps_pure _) _

end Sys2Proof.Machine
end

