-- ==== Sys2Proof/Tests/Slice0.lean ====
section
/-!
SUPPORT. The model's own tests: words of the spec decoded, terms that the well-formedness checks refuse, worked examples of the spec, and
for every statement a state and operands that meet its hypotheses.
-/

namespace Sys2Proof.Tests

set_option Elab.async false
set_option maxRecDepth 4000

open Sys2Proof Sys2Proof.Machine

/-! ## States -/

/-- Code, registers and storage of a task that issues a word on core 0: a data page at 0x20000, a page of stalagmites at 0x30000 and a
coded-pool page at 0x40000, each at its own physical address. -/
def page (va bits : Nat) : TlbEntry :=
  { cluster := 0, quarter := none, ctx := 0, va := va / 2 ^ 16, log := 16, pa := va, bits := BitVec.ofNat 16 bits, epa := 0 }

/-- A 64-byte ring descriptor (R134). -/
def ringBytes (base slot logcap fill rel : Nat) : List Byte :=
  toBytes 8 base ++ toBytes 4 slot ++ toBytes 4 logcap ++ toBytes 8 fill ++ toBytes 8 rel ++ List.replicate 32 0

/-- The task's first warp. -/
def ref : WarpRef := { task := State.reset.nextId, warp := 0 }

/-- The base state: warp 0 of core 0 is about to issue, privileged, with profile 3 and 128 registers; every slot of its code line may be
a target, and its launch's region table lies in the data page. -/
def base : State :=
  let s := State.reset.withFetchWord 96 0
  let table (k : Kernel) : Kernel := { k with lr := { k.lr with rtab := 0x20000 } }
  let targets (l : ILine) : ILine := { l with bytes := l.bytes.setN 60 4 (makeLineWord [0, 0, 0, 0, 0] 31) }
  let s := { s with
    issuer := some ref, agenda := [], kernels := s.kernels.map table,
    tlb := s.tlb ++ [page 0x20000 0xCD, page 0x30000 0x80CD, page 0x40000 0x8CD, page 0x10000 0x5D] }
  s.modCore 0 fun c => { c with icache := c.icache.map targets }

/-- The state with its warp, its task, its kernel or its context changed. -/
def onWarp (f : Warp → Warp) (s : State) : State := s.modWarp ref.task ref.warp f
def onTask (f : Task → Task) (s : State) : State := s.modTask ref.task f
def onCtx (f : Context → Context) (s : State) : State := s.modCtx 0 f
def onKernel (f : Kernel → Kernel) (s : State) : State := { s with kernels := s.kernels.map f }

/-- Bytes of memory, an s register, and a g register of every thread set. -/
def mem (a : Nat) (bs : List Byte) (s : State) : State := { s with mem := s.mem.setBytes a bs }
def sreg (n v : Nat) (s : State) : State := onWarp (fun w => { w with s := vset w.s n (BitVec.ofNat 64 v) }) s
def greg (n v : Nat) (s : State) : State :=
  onWarp (fun w => w.modThreads allTids fun th => { th with g := vset th.g n (BitVec.ofNat 32 v) }) s

/-- A pair of g registers of every thread. -/
def gpair (n v : Nat) (s : State) : State := greg (n + 1) (v / 2 ^ 32) (greg n v s)

/-! ## Checkers -/

/-- Every check of a list passes. -/
def every (bs : List Bool) : Bool := bs.all id

/-- A word is issued, nothing stops it, and what it finds satisfies a condition. -/
def issues (x : Head → Enc) (h : Head) (imm : W32) (flow : Flow) (s : State) (k : View → Bool) : Bool :=
  match issueView x h imm s with
  | some v => (v.early flow s).isNone && k v
  | none => false

theorem issues_spec {x : Head → Enc} {h : Head} {imm : W32} {flow : Flow} {s : State} {k : View → Bool}
    (e : issues x h imm flow s k = true) : ∃ v, Issues x h imm flow s v ∧ k v = true := by
  unfold issues at e
  cases hv : issueView x h imm s with
  | none => simp [hv] at e
  | some v =>
    simp only [hv, Bool.and_eq_true, Option.isNone_iff_eq_none] at e
    exact ⟨v, ⟨hv, e.1⟩, e.2⟩

abbrev issuesK (x : KWord → Enc) (w : KWord) (flow : Flow) (s : State) (k : View → Bool) : Bool :=
  issues (fun h => x { w with h := h }) w.h w.imm flow s k
abbrev issuesE (x : EWord → Enc) (w : EWord) (flow : Flow) (s : State) (k : View → Bool) : Bool :=
  issues (fun h => x { w with h := h }) w.h w.imm flow s k
abbrev issuesM (x : MWord → Enc) (w : MWord) (flow : Flow) (s : State) (k : View → Bool) : Bool :=
  issues (fun h => x { w with h := h }) w.h 0 flow s k
abbrev issuesJ (x : JWord → Enc) (w : JWord) (flow : Flow) (s : State) (k : View → Bool) : Bool :=
  issues (fun h => x { w with h := h }) w.h 0 flow s k
abbrev issuesT (x : TWord → Enc) (w : TWord) (flow : Flow) (s : State) (k : View → Bool) : Bool :=
  issues (fun h => x { w with h := h }) w.h 0 flow s k

/-- An operation runs, and its answer and state satisfy a condition. -/
def runs {α : Type} (m : Op α) (s : State) (k : α → State → Bool) : Bool :=
  match m s with
  | .ok (a, t) => k a t
  | .error _ => false

theorem runs_spec {α : Type} {m : Op α} {s : State} {k : α → State → Bool} (e : runs m s k = true) :
    ∃ a t, Runs m s a t ∧ k a t = true := by
  unfold runs at e
  cases h : m s with
  | ok x => obtain ⟨a, t⟩ := x; rw [h] at e; exact ⟨a, t, h, e⟩
  | error x => rw [h] at e; cases e

/-- An operation that only reads runs in the very state that it finds. -/
theorem reads_spec {α : Type} {m : Op α} (h : m.Keeps) {s : State} {k : α → State → Bool} (e : runs m s k = true) :
    ∃ a, Runs m s a s ∧ k a s = true := by
  obtain ⟨a, t, r, f⟩ := runs_spec e
  have := h s a t r
  subst this
  exact ⟨a, r, f⟩

/-- An operation leaves the state as it is. -/
def stays (m : Op Unit) (s : State) : Bool := runs m s fun _ t => decide (t = s)

/-- A release point finds nothing to wait for. -/
def released (c : Ctx) (mask : BitVec 16) (s : State) : Bool := runs (Op.release c mask) s fun _ _ => true

theorem released_spec {c : Ctx} {mask : BitVec 16} {s : State} (e : released c mask s = true) : Runs (Op.release c mask) s () s := by
  obtain ⟨_, r, _⟩ := reads_spec (Op.keeps_release c mask) e
  exact r

/-- A thread-by-thread instruction runs for its units. -/
def eachRuns {α : Type} (c : Ctx) (check : Tid → Op α) (act : Tid → α → Op Unit) : List Tid → State → Bool
  | [], _ => true
  | i :: is, s => runs (check i) s fun a s₁ => runs (act i a) s₁ fun _ s₂ =>
      eachRuns c check act is (s₂.applied c s i)

theorem eachRuns_spec {α : Type} {c : Ctx} {check : Tid → Op α} {act : Tid → α → Op Unit} {is : List Tid} {s : State}
    (e : eachRuns c check act is s = true) : ∃ t, EachRuns c check act is s t := by
  induction is generalizing s with
  | nil => exact ⟨s, rfl⟩
  | cons i is ih =>
    obtain ⟨a, s₁, h₁, e₁⟩ := runs_spec e
    obtain ⟨u, s₂, h₂, e₂⟩ := runs_spec e₁
    obtain ⟨t, ht⟩ := ih e₂
    exact ⟨t, a, s₁, s₂, h₁, h₂, ht⟩

/-- The next state satisfies a condition. -/
def next (o : Out) (p : State → Bool) : Bool :=
  match o with
  | .next t => p t
  | _ => false

/-- Registers of the first thread of the warp, its s registers and its predicates. -/
def g (s : State) (n : Nat) : Nat := match s.warp? ref.task ref.warp with
  | some w => (vget (w.thread 0).g n 0).toNat
  | none => 0
def sr (s : State) (n : Nat) : Nat := match s.warp? ref.task ref.warp with
  | some w => (vget w.s n 0).toNat
  | none => 0
def p (s : State) (n : Nat) : Bool := match s.warp? ref.task ref.warp with
  | some w => (w.thread 0).p.getLsbD n
  | none => false
/-- The cause of the warp's suspension. -/
def cause (s : State) : Option Cause := (s.warp? ref.task ref.warp).bind fun w => w.susp.map fun x => x.cause


/-! ## Words -/

/-- A K-format word with a head, TYPE, MOD and IMM32; registers of every operand are even and aligned. -/
def kw (ty : Nat) (md : Nat := 0) (imm : Nat := 0) (d : Nat := 0xC8) (a : Nat := 0xC8) (b : Nat := 0xC8) (c : Nat := 0xC8) : KWord :=
  { h := { plainHead with d := BitVec.ofNat 8 d, a := BitVec.ofNat 8 a, b := BitVec.ofNat 8 b, c := BitVec.ofNat 8 c },
    ty := BitVec.ofNat 8 ty, md := BitVec.ofNat 6 md, imm := BitVec.ofNat 32 imm }
/-- The same word issued once for its warp. -/
def KWord.once (w : KWord) : KWord := { w with h := { w.h with u := true } }
/-- An E-format word. -/
def ew (sub : Nat := 0) (imm : Nat := 0) (d : Nat := 0xC8) (a : Nat := 0xC8) (b : Nat := 0xC8) (c : Nat := 0xC8) (sel : Nat := 0)
    (pi : Nat := 7) (u : Bool := false) : EWord :=
  { h := { plainHead with
      u := u, d := BitVec.ofNat 8 d, a := BitVec.ofNat 8 a, b := BitVec.ofNat 8 b, c := BitVec.ofNat 8 c },
    pi := BitVec.ofNat 3 pi, sub := BitVec.ofNat 3 sub, sel := BitVec.ofNat 6 sel, z := 0, imm := BitVec.ofNat 32 imm }
/-- An M-format word. -/
def mw (size : Nat := 2) (d : Nat := 0xC8) (a : Nat := 0xC8) (b : Nat := 0xC8) (c : Nat := 0xC8) (space : Nat := 0) (ord : Nat := 0)
    (hint : Nat := 0) (off : Nat := 0) : MWord :=
  { h := { plainHead with d := BitVec.ofNat 8 d, a := BitVec.ofNat 8 a, b := BitVec.ofNat 8 b, c := BitVec.ofNat 8 c },
    space := BitVec.ofNat 2 space, size := BitVec.ofNat 4 size, ord := BitVec.ofNat 2 ord, hint := BitVec.ofNat 3 hint, z := 0,
    off := BitVec.ofNat 32 off }
/-- A J-format word. -/
def jw (off : Nat := 0) (d : Nat := 0xC8) (a : Nat := 0xC8) : JWord :=
  { h := { plainHead with d := BitVec.ofNat 8 d, a := BitVec.ofNat 8 a }, md := 0, off := BitVec.ofNat 32 off }
/-- A T-format word, which is issued once. -/
def tw (d : Nat := 0xC8) (a : Nat := 0xC8) (b : Nat := 0xC8) (c : Nat := 0xC8) (plane : Nat := 0) (tile : Nat := 0) (md : Nat := 0)
    (osrq : Nat := 0) (td : Nat := 0) (ct : Nat := 0) (asrc : Nat := 0) (atile : Nat := 0) (u : Bool := true) : TWord :=
  { h := { plainHead with
      u := u, d := BitVec.ofNat 8 d, a := BitVec.ofNat 8 a, b := BitVec.ofNat 8 b, c := BitVec.ofNat 8 c },
    plane := BitVec.ofNat 2 plane, tile := BitVec.ofNat 6 tile, md := BitVec.ofNat 6 md, osrq := BitVec.ofNat 4 osrq,
    td := BitVec.ofNat 4 td, ct := BitVec.ofNat 4 ct, asrc := BitVec.ofNat 4 asrc, atile := BitVec.ofNat 6 atile, z := 0 }

/-! ## Witnesses: instructions that compute -/

/-- The word is issued in the base state, where no flag is trapped. -/
def plainly (x : KWord → Enc) (w : KWord) : Bool := issuesK x w .straight base fun v => v.c.fpte == 0

theorem witness_integer_complete :
    every [
      plainly encOfIadd (kw 3 0 0 6 4 8),
      plainly encOfIsub (kw 3 0 0 6 4 8),
      plainly encOfImul (kw 3 0 0 6 4 8),
      plainly encOfImulh (kw 3 0 0 6 4 8),
      plainly encOfImad (kw 3 0 0 6 4 8 10),
      plainly encOfIabs (kw 3 0 0 6 4),
      plainly encOfIneg (kw 3 0 0 6 4),
      plainly encOfImin (kw 3 0 0 6 4 8),
      plainly encOfImax (kw 3 0 0 6 4 8),
      plainly encOfMov (kw 7 0 0 6 4)] = true := by decide +kernel

theorem witness_bits_complete :
    every [
      plainly encOfAnd (kw 7 0 0 6 4 8),
      plainly encOfOr (kw 7 0 0 6 4 8),
      plainly encOfXor (kw 7 0 0 6 4 8),
      plainly encOfAndn (kw 7 0 0 6 4 8),
      plainly encOfShl (kw 7 0 0 6 4 8),
      plainly encOfShr (kw 7 0 0 6 4 8),
      plainly encOfSar (kw 3 0 0 6 4 8),
      plainly encOfRot (kw 7 0 0 6 4 8),
      plainly encOfBrev (kw 7 0 0 6 4),
      plainly encOfPerm (kw 7 0 0 6 4 8 10),
      plainly countEnc (kw 7 0 0 6 4),
      plainly encOfBfx (kw 7 0 0 6 4 8),
      plainly encOfBfi (kw 7 0 0 6 4 8 10)] = true := by decide +kernel

theorem witness_select_and_move_complete :
    every [
      plainly encOfIcmp (kw 3 0 0 6 4 8 0x21),
      plainly encOfSel (kw 7 0 0 6 4 8 0x01),
      plainly encOfAddc (kw 8 0 0 6 4 8 0x01),
      plainly encOfMovi (kw 7 0 5 6),
      plainly encOfLea (kw 7 0x20 5 6 4 8),
      plainly encOfPlop (kw 0 0 0x132C6),
      plainly encOfPmov (kw 0 0 0 6),
      plainly encOfPmov (kw 0 0x10 3 0xC8 4),
      plainly encOfPmov (kw 0 0x20 2 0xC8 4),
      plainly encOfSeed (kw 0 0 0 0xC8 4)] = true := by decide +kernel

theorem witness_float_complete :
    every [
      plainly encOfFadd (kw 0x10 0 0 6 4 8),
      plainly encOfFsub (kw 0x10 0 0 6 4 8),
      plainly encOfFmul (kw 0x20 0x14 0 6 4 8),
      plainly encOfFfma (kw 0x10 0 0 6 4 8 10),
      plainly encOfFmin (kw 0x10 0 0 6 4 8),
      plainly encOfFmax (kw 0x10 0 0 6 4 8),
      plainly encOfFrnd (kw 0x10 1 0 6 4),
      plainly encOfFcmp (kw 0x10 0 0 6 4 8 0x21),
      plainly encOfFclass (kw 0x10 0 0 6 4),
      plainly encOfFrcp (kw 0x10 0 0 6 4),
      plainly encOfFrsq (kw 0x10 0 0 6 4),
      plainly encOfFsqrt (kw 0x10 0 0 6 4),
      plainly encOfFexp2 (kw 0x10 0 0 6 4),
      plainly encOfFlog2 (kw 0x10 0 0 6 4),
      plainly encOfFsin (kw 0x10 0 0 6 4),
      plainly encOfFcos (kw 0x10 0 0 6 4)] = true := by decide +kernel

/-- Where a flag that the results raise is trapped: the saturated sum of 0x7FFFFFFF and 1, with every flag's FPTE bit set. -/
theorem witness_computes_traps :
    every [
      issuesK encOfIadd (kw 3 0x08 0 6 4 8) .straight
      (onCtx (fun x => { x with fpte := 0xFFFFFFFF }) (greg 4 0x7FFFFFFF (greg 8 1 base)))
      fun v => raisedFlags (v.c.units.map fun t =>
        (t, intGives (fun _ a b _ => a + b) v.c (v.seenK (kw 3 0x08 0 6 4 8)) v.w t)) &&& v.c.fpte != 0] = true := by decide +kernel

theorem witness_conversions_complete :
    every [
      plainly encOfCvt (kw 3 0 0x10 6 4),
      plainly encOfPack (kw 0x21 0 0x20 6 4 8),
      plainly encOfUnpk (kw 0x10 0 0x21 8 4),
      issuesK encOfDqnt (kw 0x20 0 0x23 6 4) .straight (greg 5 (mkScale 127 0 false true false).toNat base) fun v => v.c.fpte == 0 &&
        (v.c.parts.filter fun t => !scaleOk ((read64 v.c v.w t v.h.a).extractLsb' 32 32) true).isEmpty,
      issuesK encOfQnt (kw 0x23 0 0x20 6 4) .straight base fun v => v.c.fpte == 0 && !v.c.parts.isEmpty] = true := by decide +kernel

/-- Where they fault: reserved scale words, a product that FP32 cannot hold, and a quotient that E4M3 cannot hold exactly, with every
flag trapped. -/
theorem witness_conversions_fault :
    every [
      issuesK encOfDqnt (kw 0x20 0 0x23 6 4) .straight (greg 5 0xFFFFFFFF base) fun v =>
        !(v.c.parts.filter fun t => !scaleOk ((read64 v.c v.w t v.h.a).extractLsb' 32 32) true).isEmpty,
      let s := onCtx (fun x => { x with fpte := 0x7F }) (greg 4 0x7E (greg 5 (mkScale 254 0 false true false).toNat base))
      issuesK encOfDqnt (kw 0x20 0 0x23 6 4) .straight s fun v =>
        (v.c.parts.filter fun t => !scaleOk ((read64 v.c v.w t v.h.a).extractLsb' 32 32) true).isEmpty &&
        raisedFlags (v.c.units.map fun t => (t, { val := none, flags := (dqntValue (elemTy 0x23).f (read64 v.c v.w t v.h.a)).2 : AluOut })) &&&
          v.c.fpte != 0,
      let s := onCtx (fun x => { x with fpte := 0x7F }) (greg 4 0x3F800001 (greg 5 0x3F9CCCCD base))
      issuesK encOfQnt (kw 0x23 0 0x20 6 4) .straight s fun v => !v.c.parts.isEmpty &&
        (quantise (qntBlock v.c v.w v.h.a) (elemTy 0x23).f false false .rne (qntDraws v.c v.w .rne)).flags &&& v.c.fpte != 0] = true := by
  decide +kernel

theorem witness_cross_thread_complete :
    every [
      plainly encOfShfl (kw 7 0 0 6 4 8),
      plainly encOfVote (KWord.once (kw 7 0 0 0x86 4)),
      issuesK encOfWred (KWord.once (kw 3 0 0 0x86 4)) .straight base fun v => v.c.fpte == 0 &&
        !(crossValues v.c v.w (v.seenK (KWord.once (kw 3 0 0 0x86 4))) v.h.a).isEmpty,
      issuesK encOfWscan (kw 3 0 0 6 4) .straight base fun v => v.c.fpte == 0 &&
        !(crossValues v.c v.w (v.seenK (kw 3 0 0 6 4)) v.h.a).isEmpty] = true := by decide +kernel


/-! ## Witnesses: transfers, traps and bodies -/

/-- The checks of a transfer's targets pass, and no committed region forbids it. -/
def transfers (k : Aim) (hops : View → List Hop) (write : View → Warp → Hop → Warp) (s : State) (v : View) : Bool :=
  runs (Op.checkHops v.c k (hops v)) s fun lines s₁ => match s₁.warp? v.c.task v.c.warp with
    | some w => (hopsBad v.c w ((hops v).foldl (write v) w) lines).isEmpty
    | none => false

/-- The writes of the transfers: none, the link, or the count of LOOP. -/
def noWrite (_ : View) (w : Warp) (_ : Hop) : Warp := w
def linkWrite (v : View) : Warp → Hop → Warp := putLink v.c v.h .w64 fun _ => nextPc v.c.pc
def countWrite (v : View) : Warp → Hop → Warp := putLink v.c v.h .w32 fun h => (read32 v.c v.w h.tid v.h.a - 1).setWidth 64

/-- Jump targets of a J-format word, and targets read from the pair g4. -/
def jumps (off : Nat) (v : View) : List Hop :=
  v.c.units.map fun t => { tid := t, target := jTarget v.c.pc (BitVec.ofNat 32 off), taken := true }
def pointed (v : View) : List Hop := v.c.units.map fun t => { tid := t, target := read64 v.c v.w t v.h.a, taken := true }

/-- The base state with g4 and g5 holding the address of a slot. -/
def aimed : State := gpair 4 0x1000C base

theorem witness_transfers_complete :
    every [
      issuesJ jumpEnc (jw 3) .transfer base (transfers .slot (jumps 3) noWrite base),
      issuesJ encOfCall (jw 3 6) .transfer base (transfers .slot (jumps 3) linkWrite base),
      issuesK encOfBrx (kw 0 0 0 0xC8 4) .transfer aimed (transfers .byte pointed noWrite aimed),
      issuesK encOfCallx (kw 0 0 0 6 4) .transfer aimed (transfers .byte pointed linkWrite aimed),
      issuesK encOfRet (kw 0 0 0 0xC8 4) .transfer aimed (transfers .ret pointed noWrite aimed),
      issuesJ encOfLoop (jw 3 6 4) .transfer (greg 4 2 base)
        (transfers .slot (fun v => v.c.units.map fun t =>
          { tid := t, target := if 0 < (read32 v.c v.w t v.h.a - 1).toInt then jTarget v.c.pc 3 else nextPc v.c.pc,
            taken := decide (0 < (read32 v.c v.w t v.h.a - 1).toInt) }) countWrite (greg 4 2 base))] = true := by decide +kernel

/-- A body of one word under the number 5. -/
def withMacro : State := onTask (fun t => { t with macros := [(5, [0])] }) base

/-- A live-in record of zeros lies at the launch's region table. -/
theorem witness_thread_complete :
    every [
      plainly encOfNop (kw 0),
      issuesE encOfRgn (ew) .boundary base fun v => runs (Op.liveRecord v.c 0) base fun _ _ => true,
      issuesE encOfExit (ew) .boundary base fun v =>
        (base.task? v.c.task).isSome && !v.c.parts.isEmpty && v.w.sump.mode == .inactive,
      issuesE encOfMcall (ew 0 5 4 8 12 16) .enter withMacro fun v => match withMacro.task? v.c.task with
        | some t => (t.macros.find? fun m => m.1 == 5) == some (5, [0])
        | none => false,
      issuesJ jumpEnc (jw 3) .straight base fun v => !v.c.parts.isEmpty,
      issuesE encOfIfence (ew) .straight base fun v => !v.c.parts.isEmpty && !base.coreStoresOut v.c.core] = true := by decide +kernel

/-- TRAP and BKPT with participants and, by a false q0, without. -/
def unmet (w : EWord) : EWord := { w with h := { w.h with u := true, pr := 0 } }

theorem witness_traps :
    every [
      issuesE encOfTrap (ew 0 9) .straight base fun v => !v.c.parts.isEmpty,
      issuesE encOfTrap (unmet (ew 0 9)) .straight base fun v => v.c.parts.isEmpty,
      issuesE encOfBkpt (ew 0 9) .straight base fun v => !v.c.parts.isEmpty,
      issuesE encOfBkpt (unmet (ew 0 9)) .straight base fun v => v.c.parts.isEmpty,
      match base.task? ref.task with
        | some t => match t.warps[ref.warp]? with
          | some w => w.mac.isNone
          | none => false
        | none => false] = true := by decide +kernel

/-- A loop with PE, CE and XE at slots of the code page, a ring of 32 entries of one word, and a threshold of 16. -/
def looping (mode : SumpMode) (count : Nat) (done : BitVec 16) (s : State) : State :=
  onTask (fun t => { t with spad := 1 }) (onWarp (fun w => { w with sump :=
    { mode := mode, head := 0, count := count, done := done, cmask := 0, rmask := 0xFFFF, pe := 0x10000, ce := 0x1000C, xe := 0x10018,
      base := 0, cap := 32, high := 16, width := 1 } }) s)

/-- A task with a scratchpad, whose s0 to s3 describe a loop. -/
def beginning : State :=
  onTask (fun t => { t with spad := 1 })
    (sreg 0 0x10000 (sreg 1 0x1000C (sreg 2 0x10018 (sreg 3 (32 * 2 ^ 32 + 16 * 2 ^ 42) base))))

/-- A bound word: 16 participants fill the ring to its threshold when it is empty. -/
theorem witness_sump_loops :
    every [
      issuesE encOfSloop (ew 0 0 0xC8 0x80 (u := true)) .transfer beginning fun v =>
        let r (i : Nat) : W64 := vget v.w.s (v.h.a.toNat - 0x80 + i) 0
        v.c.mslot.isNone && v.w.sump.mode == .inactive && v.c.active.length == 16 && match v.c.units with
          | [u] => (sumpDescriptor 1 v.c.regs (r 0) (r 1) (r 2) (r 3)).isSome &&
              runs (Op.checkHops v.c .byte ([r 0, r 1, r 2].map fun pc => { tid := u, target := pc, taken := true })) beginning
                fun lines s₁ => (hopsBad v.c v.w v.w (lines.take 1)).isEmpty && released v.c (maskOf v.c.active) s₁
          | _ => false,
      let s := looping .producing 0 0 base
      issuesE encOfYield (ew 0 0 0xC8 4) .body s fun v =>
        v.c.mslot.isNone && !v.c.parts.isEmpty && v.w.sump.mode == .producing && decide (v.h.a.toNat + v.w.sump.width - 1 ≤ 127) &&
        decide (v.w.sump.high ≤ v.w.sump.count + v.c.parts.length) && decide (v.w.sump.count + v.c.parts.length ≤ v.w.sump.cap) &&
        runs (Op.liveRecord v.c 0) s fun _ s₁ => released v.c (maskOf v.c.active) s₁,
      let s := looping .producing 0 0 base
      issuesE encOfPdone (ew) .body s fun v =>
        v.c.mslot.isNone && v.w.sump.mode == .producing && !v.c.parts.isEmpty && released v.c (maskOf v.c.active) s,
      let s := looping .consuming 16 0 base
      issuesE encOfCend (ew) .body s fun v =>
        v.c.mslot.isNone && v.w.sump.mode == .consuming && !v.c.parts.isEmpty && released v.c (maskOf v.c.active) s] = true := by decide +kernel


/-! ## Witnesses: memory -/

/-- The base state with g4 and g5 holding an address in the data page, or in the page of stalagmites. -/
def atData : State := gpair 4 0x20010 base
def atSg : State := gpair 4 0x30010 base

/-- The debug partition's own context issues (R376). -/
def debugging : State := { base with debugSlot := some 0 }

/-- A word that loads 4 bytes from [g4], and one of the debug space. -/
def loadWord : MWord := mw 2 6 4
def debugLoad : MWord := mw 3 6 4 (space := 3)
def storeWord : MWord := mw 2 (a := 4) (c := 8)
def debugStore : MWord := mw 3 (a := 4) (c := 8) (space := 3)
def mergeWord : MWord := mw 2 (a := 4) (b := 8) (c := 10)

theorem witness_loads_complete :
    every [
      issuesM encOfLd { loadWord with h := { loadWord.h with pr := 0 } } .straight atData fun v => v.c.parts.isEmpty,
      issuesM encOfLd { loadWord with ord := 1 } .straight atData fun v => !v.c.parts.isEmpty &&
        runs (Op.aim v.c 0 .load 4 4 (indexed v.c v.w (v.seenM { loadWord with ord := 1 }))) atData fun as s₁ =>
          runs (Op.loadEach v.c (v.seenM { loadWord with ord := 1 }) as) s₁ fun _ s₂ =>
            runs (Op.noteLoads v.c 4 as) s₂ fun _ _ => true,
      issuesM encOfLd debugLoad .straight debugging fun v => !v.c.parts.isEmpty &&
        runs (Op.debugAim v.c 8 false (indexed v.c v.w (v.seenM debugLoad))) debugging fun as _ =>
          runs (Op.debugEach v.c (v.seenM debugLoad) as) debugging fun _ _ => true] = true := by decide +kernel

theorem witness_stores_complete :
    every [
      issuesM encOfSt { storeWord with ord := 2 } .straight atData fun v => !v.c.parts.isEmpty &&
        runs (Op.aim v.c 0 .store 4 4 (indexed v.c v.w (v.seenM storeWord))) atData fun as s₁ =>
          released v.c (maskOf v.c.executing) s₁ &&
          runs (Op.storeEach v.c 4 (fun a => Op.storeAt v.c a 4 0 (dataOf v.c v.w (v.seenM storeWord) a.tid v.h.c)) as) s₁
            fun _ _ => true,
      issuesM encOfSt debugStore .straight debugging fun v => !v.c.parts.isEmpty &&
        runs (Op.debugAim v.c 8 false (indexed v.c v.w (v.seenM debugStore))) debugging fun as _ =>
          runs (Op.debugStoreEach v.c 8 (fun t => dataOf v.c v.w (v.seenM debugStore) t v.h.c) as) debugging fun _ _ => true,
      issuesM encOfStbm mergeWord .straight atData fun v => !v.c.parts.isEmpty &&
        runs (Op.aim v.c 0 .store 4 4 (based v.c v.w (v.seenM mergeWord))) atData fun as s₁ =>
          runs (Op.storeEach v.c 4 (fun a => Op.mergeAt v.c 4 (dataOf v.c v.w (v.seenM mergeWord) a.tid v.h.b)
            (dataOf v.c v.w (v.seenM mergeWord) a.tid v.h.c) a) as) s₁ fun _ _ => true] = true := by decide +kernel

/-- Core 1 has registered the word at 0x20010 and written its two low bytes, and core 0 holds the word after it Valid; then core 0 has a
stale copy of both words too. -/
def registered : State :=
  let line (ws : List L1Word) (c : Core) : Core := { c with l1 := [{ pa := 0x20000, way := 39, prio := 1, words := ws }] }
  ({ base with owners := [(0x20010, 1)] }.modCore 1 (line [{ idx := 4, owned := true, mask := 3, val := 0x1234 }])).modCore 0
    (line [{ idx := 5, owned := false, mask := 0, val := 7 }])
def stale : State := registered.modCore 0 fun c => { c with l1 := c.l1.map fun l =>
  { l with words := l.words ++ [{ idx := 4, owned := false, mask := 0, val := 1 }] } }

/-- The registered words of a state lie in a range, Owned by the cores that have registered them. -/
def registeredIn (s : State) (pa n : Nat) : Bool := s.owners.all fun o =>
  (wordsOf pa n).contains o.1 && ((s.core o.2).word? o.1).any fun w => w.owned

theorem registeredIn_spec {s : State} {pa n : Nat} (e : registeredIn s pa n = true) : OnlyRegistered s pa n := by
  intro o h
  have := List.all_eq_true.mp e o h
  simp only [Bool.and_eq_true, List.contains_iff_mem, Option.any_eq_true] at this
  exact this

/-- The states that the accesses of a statement start from: any place may be that of an access, and a hint of 3 takes it to its home. -/
theorem witness_accesses_reach_their_bytes :
    every [
      (base.task? ref.task).any fun t => t.scratch.wf,
      base.vault.wf, base.mem.wf, base.owners.isEmpty, base.poisoned 0x20010 8 == false,
      decide (2 ^ 64 ≤ (mem 0x30010 (toBytes 8 (2 ^ 64 - 1)) base).homeN 0x30010 8 + 1),
      (mem 0x30010 (toBytes 8 (2 ^ 64 - 1)) base).mem.wf, (mem 0x30010 (toBytes 8 (2 ^ 64 - 1)) base).owners.isEmpty,
      decide (base.homeN 0x30010 8 + 1 < 2 ^ 64),
      registered.mem.wf, registeredIn registered 0x20010 8, registered.poisoned 0x20010 8 == false, !registered.owners.isEmpty,
      registered.ownerOf 0x20010 == some 1, ((registered.core 1).word? 0x20010).any fun w => w.owned,
      registeredIn (mem 0x30010 (toBytes 8 (2 ^ 64 - 1)) base) 0x30010 8, registeredIn base 0x30010 8,
      registered.owners.all fun o => o.2 != 0, (registered.core 0).l1.all fun l => l.words.all fun w => !w.owned,
      ((registered.core 0).word? 0x20010).isNone,
      (wordsOf 0x20010 8).all fun x => ((stale.core 0).word? x).isSome] = true := by decide +kernel

theorem witness_caches_complete :
    every [
      issuesM encOfPref (mw 2 (a := 4)) .straight atData fun _ => true,
      issuesM encOfClean (mw 2 (a := 4)) .straight atData fun v =>
        runs (Op.aim v.c 0 .load 4 1 (indexed v.c v.w (v.seenM (mw 2 (a := 4))))) atData fun _ _ => true,
      issuesM encOfInval (mw 2 (a := 4)) .straight atData fun v =>
        runs (Op.aim v.c 0 .load 4 1 (indexed v.c v.w (v.seenM (mw 2 (a := 4))))) atData fun _ _ => true,
      issuesM encOfEvh (mw 2 (a := 4)) .straight atData fun _ => true,
      issuesE encOfFence (ew) .straight base fun v => !v.c.parts.isEmpty && released v.c (maskOf v.c.executing) base,
      issuesE encOfXfence (ew) .straight base fun v => !v.c.parts.isEmpty && released v.c (maskOf v.c.executing) base] = true := by decide +kernel

def amoWord : MWord := mw 2 6 4 8 0
def casWord : MWord := mw 2 6 4 8 10
def redWord : MWord := mw 2 0xC8 4 8 0

theorem witness_atomics_complete :
    every [
      issuesM encOfAmo amoWord .straight atData fun v =>
        eachRuns v.c (Op.aimAtomic v.c .rmw (v.seenM amoWord)) (amoAct v.c (v.seenM amoWord)) v.c.units atData,
      issuesM encOfAmocas casWord .straight atData fun v =>
        eachRuns v.c (Op.aimAtomic v.c .rmw (v.seenM casWord)) (casAct v.c (v.seenM casWord)) v.c.units atData,
      issuesM encOfRed redWord .straight atData fun v =>
        eachRuns v.c (Op.aimAtomic v.c .red (v.seenM redWord)) (redAct v.c (v.seenM redWord)) v.c.units atData] = true := by decide +kernel

/-! ## Witnesses: stalagmites, rings, barriers and groups -/

/-- A ring of 16 slots of 16 bytes at 0x20100 is described at 0x20040, its stalagmites at 0x30000 and 0x30008. -/
def atRing : State := gpair 4 0x20040 (mem 0x20040 (ringBytes 0x20100 16 4 0x30000 0x30008) base)

/-- Of a ring: RGPUB and RGREL of each participant. -/
def ringAdds (w : EWord) (f : RingDesc → Nat) : Bool :=
  issuesE addEnc w .straight atRing fun v =>
    eachRuns v.c (fun i => do
      let x ← Op.warp v.c
      let d ← Op.ringDesc v.c i (sgAddr v.c x (v.seenE w) i)
      Op.aimSg v.c .sgAdd i (f d)) (Op.addAt v.c (v.seenE w)) v.c.units atRing

theorem witness_adds_complete :
    every [
      issuesE addEnc (ew 1 3 6 4) .straight atSg fun v =>
        eachRuns v.c (fun i => do
          let x ← Op.warp v.c
          Op.aimSg v.c .sgAdd i (sgAddr v.c x (v.seenE (ew 1 3 6 4)) i)) (Op.addAt v.c (v.seenE (ew 1 3 6 4))) v.c.units atSg,
      ringAdds (ew 1 3 6 4) (·.fill), ringAdds (ew 1 3 6 4) (·.rel)] = true := by decide +kernel

/-- A wait of SGWAIT for the value of g8 at [g4]. -/
def waitWord : EWord := ew 0 0 0xC8 4 8

/-- A wait whose stalagmites have all reached their targets. -/
def waited (c : Ctx) (sub : Nat) (xs : List WaitFor) (s : State) : Bool := match s.warp? c.task c.warp with
  | some w => if w.wait.any fun y => y.woken && y.parts == partsOf c xs then true
      else runs (Op.unmet c sub (waitItems xs)) s fun r _ => r.isEmpty
  | none => false

theorem waited_spec {c : Ctx} {sub : Nat} {xs : List WaitFor} {s : State} (e : waited c sub xs s = true) :
    ∃ t, Waited c sub xs s t := by
  unfold waited at e
  cases hw : s.warp? c.task c.warp with
  | none => simp [hw] at e
  | some w =>
    simp only [hw] at e
    by_cases h : (w.wait.any fun y => y.woken && y.parts == partsOf c xs) = true
    · exact ⟨s, w, hw, by simp only [h, if_true]⟩
    · simp only [h] at e
      obtain ⟨r, t, hr, he⟩ := runs_spec e
      have : r = [] := List.isEmpty_iff.mp he
      subst this
      exact ⟨t, w, hw, by rw [if_neg h]; exact hr⟩

/-- The stalagmites of the units gathered, and something of them. -/
def gathered (w : EWord) (k : Access) (v : View) (s : State) (f : List (Tid × Aimed) → State → Bool) : Bool :=
  runs (Op.gather v.c fun t => Op.aimSg v.c k t (sgAddr v.c v.w (v.seenE w) t)) s f

theorem witness_stalagmites_complete :
    every [
      issuesE encOfSgwait waitWord .wait atSg fun v => gathered waitWord .sgRead v atSg fun as s₁ => !as.isEmpty &&
        waited v.c 0 (sgwaitFor v.c (v.seenE waitWord) v.w as) s₁,
      issuesE encOfSgwait waitWord .wait (gpair 8 5 atSg) fun v => gathered waitWord .sgRead v (gpair 8 5 atSg) fun as s₁ =>
        !as.isEmpty && ((s₁.warp? v.c.task v.c.warp).any fun y => y.wait.isNone) &&
        runs (Op.unmet v.c 0 (waitItems (sgwaitFor v.c (v.seenE waitWord) v.w as))) s₁ fun r s₂ =>
          !r.isEmpty && s₂.unanswered v.c.asker == false,
      issuesE encOfSgtest (ew 0 0 0xC8 4 8 (pi := 1)) .straight atSg fun v => gathered (ew 0 0 0xC8 4 8 (pi := 1)) .sgRead v atSg
        fun as s₁ => runs (Op.readAll v.c as) s₁ fun _ _ => true,
      issuesE encOfSgread (ew 0 0 6 4) .straight atSg fun v => gathered (ew 0 0 6 4) .sgRead v atSg
        fun as s₁ => !as.isEmpty && runs (Op.readAll v.c as) s₁ fun _ _ => true,
      issuesE encOfSgset (ew 0 0 0xC8 4 8 (pi := 1)) .straight atSg fun v => gathered (ew 0 0 0xC8 4 8 (pi := 1)) .sgAdd v atSg
        fun as s₁ => runs (Op.setAll v.c (v.seenE (ew 0 0 0xC8 4 8 (pi := 1))) v.w as) s₁ fun _ _ => true] = true := by decide +kernel

/-- A ring wait for slot g8 whose stalagmite lets it go on. -/
def ringWaits (s : State) (f : RingDesc → Nat) (target : RingDesc → Nat → Nat) : Bool :=
  let w := ew 0 0 6 4 8
  issuesE ringEnc w .wait s fun v =>
    runs (Op.gather v.c fun t => do
        let d ← Op.ringDesc v.c t (sgAddr v.c v.w (v.seenE w) t)
        let a ← Op.aimSg v.c .sgRead t (f d)
        return (d, a)) s fun ds s₁ => !ds.isEmpty && waited v.c 0 (ringFor target v.c (v.seenE w) v.w ds) s₁

theorem witness_ring_waits_complete :
    every [
      ringWaits atRing (·.rel) fun d n => n + 1 - 2 ^ d.logcap,
      ringWaits (mem 0x30000 (toBytes 8 1) atRing) (·.fill) fun _ n => n + 1] = true := by decide +kernel

/-- A barrier object of the counts that a test gives (R168). -/
def barrierBytes (arrive phase obs wcnt reg expect : Nat) : List Byte :=
  toBytes 8 arrive ++ toBytes 8 phase ++ toBytes 4 obs ++ toBytes 4 wcnt ++ toBytes 4 reg ++ toBytes 4 expect

/-- The warp's s0 names a barrier at 0x30020. -/
def atBarrier (arrive phase obs wcnt reg expect : Nat) : State :=
  sreg 0 0x30020 (mem 0x30020 (barrierBytes arrive phase obs wcnt reg expect) base)

/-- A barrier instruction that runs for its units. -/
def barrierRuns (x : EWord → Enc) (w : EWord) (act : Ctx → EWord → Tid → Aimed → Op Unit) (s : State) : Bool :=
  issuesE x w .straight s fun v =>
    eachRuns v.c (fun i => do
      let y ← Op.warp v.c
      Op.aimBarrier v.c .sgAdd i (sgAddr v.c y (v.seenE w) i)) (act v.c (v.seenE w)) v.c.units s

theorem witness_barriers_complete :
    every [
      barrierRuns encOfBjoin (ew 0 0 0x86 0x80 (pi := 1) (u := true)) bjoinAct (atBarrier 0 0 0 0 0 2),
      barrierRuns encOfBleave (ew 0 0 0xC8 0x80 0x82 (u := true)) bleaveAct (atBarrier 0 0 0 1 1 2),
      barrierRuns encOfBarrive (ew 0 0 0x86 0x80 (pi := 1) (u := true)) barriveAct (atBarrier 0 0 0 0 0 2),
      let s := atBarrier 0 0 0 1 1 2
      let w := ew 0 0 0xC8 0x80 0x82 0x84 (u := true)
      issuesE encOfBwait w .wait s fun v =>
        runs (Op.gather v.c fun t => Op.aimBarrier v.c .sgRead t (sgAddr v.c v.w (v.seenE w) t)) s fun as s₁ => !as.isEmpty &&
          runs (Op.bwaitChecks v.c (v.seenE w) v.w as) s₁ fun _ s₂ =>
            waited v.c 1 (bwaitFor v.c (v.seenE w) v.w as) s₂ &&
              runs (Op.unmet v.c 1 (waitItems (bwaitFor v.c (v.seenE w) v.w as))) s₂ fun _ s₃ =>
                runs (Op.observe v.c (v.seenE w) v.w as) (s₃.acquire v.c.core) fun _ _ => true,
      (Barrier.ofBits (ofBytes (barrierBytes 5 1 1 1 1 3))).ok] = true := by decide +kernel

/-- The warp's group slot 0 names a group of one member whose barrier is at 0x30020; the wait half of GBAR comes next or not. -/
def grouped (wait : Bool) (s : State) : State :=
  onWarp (fun w => { w with
    groups := vset w.groups 0 (some { num := 7, bar := 0x30020, nmem := 1, rank := 0 }),
    threads := vmapAll w.threads fun th => { th with atHalf := wait } }) s

/-- The unit's checks of GBAR, and what follows them. -/
def gbarChecks (v : View) (t : Tid) (s : State) (k : Aimed → State → Bool) : Bool :=
  match vget v.w.groups 0 none with
  | some g => runs (Op.aimBarrier v.c .sgAdd t g.bar.toNat) s fun a s₁ =>
      runs (Op.readBarrier v.c t a 0) s₁ fun b s₂ => b.reg == 0 && b.expect == g.nmem && k a s₂
  | none => false

/-- The wait of GBAR is met. -/
def gbarMet (v : View) (t : Tid) (a : Aimed) (target : W64) (s : State) : Bool :=
  waited v.c 2 [{ tid := t, va := a.ea + 8, place := a.target.place.after 8, target := target.toNat, timeout := 0 }] s

theorem witness_groups_complete :
    every [
      issuesE encOfGinfo (ew 3 0 6) .straight (grouped false base) fun v =>
        !v.c.parts.isEmpty && (vget v.w.groups 0 none).isSome,
      issuesE encOfGinfo (ew 0 1 6) .straight (grouped false base) fun v =>
        !v.c.parts.isEmpty && (vget v.w.groups 1 none).isNone,
      let s := grouped true (atBarrier 0 0 0 0 0 1)
      issuesE encOfGbar (ew 0 0 (u := true)) .boundary s fun v => v.w.atHalf v.c.active && match v.c.active.take 1 with
        | [t] => gbarChecks v t s fun a s₂ => decide (s₂.warp? v.c.task v.c.warp = some v.w) && gbarMet v t a v.w.gwt s₂
        | _ => false,
      let s := grouped false (atBarrier 0 0 0 0 0 1)
      let w := ew 0 0 (u := true)
      issuesE encOfGbar w .boundary s fun v => !v.w.atHalf v.c.active && match v.c.units with
        | [t] => gbarChecks v t s fun a s₂ => runs (Op.gbarArrive v.c (v.seenE w) t a) s₂ fun _ s₃ =>
            match s₃.warp? v.c.task v.c.warp with
            | some x => gbarMet v t a x.gwt s₃
            | none => false
        | _ => false,
      issuesE encOfWsync (ew 0 0xFFFF 0xC8 0xD0) .sync base fun v =>
        !v.c.parts.isEmpty && released v.c (maskOf v.c.parts) base && allTids.all fun t => !v.w.parked t] = true := by decide +kernel

/-! ## Witnesses: kernels, grace periods and special registers -/

/-- Words of four g registers hold a continuation record. -/
def spawnWord : EWord := ew 0 0 6 8 12 (pi := 1)

/-- Nothing is asked of a unit before TASKQ. -/
theorem witness_kernels_complete :
    every [
      issuesE encOfLaunch (ew 0 3 6 4 8 10 (pi := 1)) .straight base fun v =>
        eachRuns v.c (Op.checkQueue v.c 3) (fun i _ => launchAct v.c (v.seenE (ew 0 3 6 4 8 10 (pi := 1))) i) v.c.units base,
      issuesE encOfSpawn spawnWord .straight base fun v =>
        eachRuns v.c (Op.checkRecord v.c (v.seenE spawnWord)) (spawnAct v.c (v.seenE spawnWord)) v.c.units base,
      issuesE encOfTrig (ew) .straight base fun v => eachRuns v.c (Op.checkTrigger v.c) (fun i _ => trigAct v.c i) v.c.units base,
      issuesE encOfTaskq (ew 2 0 6) .straight base fun v =>
        eachRuns v.c (fun _ => pure ()) (fun i (_ : Unit) => taskqAct v.c (v.seenE (ew 2 0 6)) i) v.c.units base,
      [0, 8].all fun n => let s := onKernel (fun k => { k with st := n }) base
        !s.kernels.isEmpty && s.kernels.all fun k => decide (s.kernel? k.id = some k) && k.st == n] = true := by decide +kernel

/-- A grace block at 0x30040 and a queue of 16 entries at 0x20400. -/
def gracious : State := onCtx (fun c => { c with gpbase := 0x30040, dfqcfg := 0x20404 }) base

/-- A warp inside a section. -/
def inSection : State := onWarp (fun w => { w with depth := 1 }) base

/-- DFREE of an extent at g8 to a pool at g12. -/
def freeWord : EWord := ew 0 0 6 8 12 (pi := 1)

theorem witness_grace_complete :
    every [
      issuesE sectionEnc (ew) .boundary base fun v => v.w.depth != 15 && runs (Op.liveRecord v.c 0) base fun _ _ => true,
      issuesE sectionEnc (ew) .boundary inSection fun v => v.w.depth != 0 &&
        runs (Op.liveRecord v.c 0) inSection fun _ s₁ => released v.c (maskOf v.c.active) s₁,
      issuesE encOfGpnum (ew 0 0 6) .straight base fun v => !v.c.parts.isEmpty,
      issuesE encOfGpnum (ew 1 0 6) .straight gracious fun v => !v.c.parts.isEmpty && decide (v.c.ctx < 64) &&
        (gracious.graceBad v.c.ctx).isNone && released v.c (maskOf v.c.parts) gracious,
      issuesE encOfGpwait (ew 0 0 0xC8 0xC8 8) .wait gracious fun v => !v.c.parts.isEmpty &&
        (gracious.graceBad v.c.ctx).isNone && v.w.depth == 0 && v.w.held == 0 &&
        match gracious.agentAccess (gracious.agentWho v.c.ctx) .sgRead ((gracious.ctx v.c.ctx).graceVa + 8) 8 8 with
        | (.ok p, s₁) => waited v.c 0 (gpwaitFor v.c (v.seenE (ew 0 0 0xC8 0xC8 8)) v.w ((gracious.ctx v.c.ctx).graceVa + 8) p) s₁
        | _ => false,
      issuesE encOfDfree freeWord .straight gracious fun v =>
        eachRuns v.c (Op.freeCheck v.c (v.seenE freeWord)) (dfreeAct v.c (v.seenE freeWord)) v.c.units gracious] = true := by decide +kernel

theorem witness_reads_complete :
    every [
      issuesE encOfFeat (ew 0 0 6) .straight base fun _ => true, issuesE encOfImplq (ew 0 2 6) .straight base fun _ => true,
      issuesE encOfClk (ew 1 0 6) .straight base fun _ => true, issuesE encOfPerfrd (ew 0 4 6) .straight base fun _ => true,
      issuesE encOfLnkq (ew 2 17 6) .straight base fun _ => true,
      issuesE encOfTrcmk (ew 0 9 0xC8 4) .straight base fun _ => true] = true := by decide +kernel

/-- The record of an invalidation of every context lies at 0x20020. -/
def invalidating : State := gpair 4 0x20020 base

theorem witness_special_registers :
    every [
      let w := ew 1 2 6
      issuesE encOfSrrd w .straight base fun v => (base.task? v.c.task).isSome &&
        runs (Op.sysIndexes v.c (v.seenE w) fun s i => s.srrdFault v.c (sysNumber w) i w.sub.toNat) base fun is _ => !is.isEmpty,
      let w := ew 0 2 0xC8 8
      issuesE encOfSrwr w .straight base fun v => sysNumber w != 0x06 &&
        runs (Op.sysIndexes v.c (v.seenE w) fun s i => s.srwrFault v.c (sysNumber w) i) base fun is _ => !is.isEmpty &&
          eachRuns v.c (Op.sysIndexOf v.c (v.seenE w)) (srwrAct v.c (sysNumber w) fun t => read64 v.c v.w t v.h.a) v.c.units base,
      let w := ew 0 6 0xC8 0x80 (u := true)
      let s := sreg 0 0x20020 base
      issuesE encOfSrwr w .straight s fun v => sysNumber w == 0x06 &&
        runs (Op.sysIndexes v.c (v.seenE w) fun s i => s.srwrFault v.c (sysNumber w) i) s fun is _ => !is.isEmpty &&
          runs (Op.gatherFrom (fun t => Op.invRecord v.c t (read64 v.c v.w t v.h.a).toNat) (is.map (·.1))) s fun xs s₁ =>
            decide (s₁.invq.length + xs.length ≤ invCap)] = true := by decide +kernel

/-- The base state with a warp that does not hold privilege. -/
def plainWarp : State := onCtx (fun c => { c with priv := false }) base

/-- A privileged word finds a warp without privilege. -/
def unprivileged (x : EWord → Enc) (w : EWord) : Bool :=
  match issueView (fun h => x { w with h := h }) w.h w.imm plainWarp with
  | some v => v.c.priv == false && decide (1 ≤ v.c.prof)
  | none => false

theorem witness_privileged_words_trap :
    every [
      unprivileged encOfResume (ew 0 0 0xC8 4 (pi := 1)), unprivileged encOfKill (ew 0 0 0xC8 4 (pi := 1)),
      unprivileged encOfSrwr (ew 0 2 0xC8 8), unprivileged encOfSgset (ew 0 0 0xC8 4 8 (pi := 1)),
      issuesE encOfResume (ew 0 0 0xC8 4 (pi := 1)) .straight base fun _ => true,
      issuesE encOfKill (ew 0 0 0xC8 4 (pi := 1)) .straight base fun _ => true] = true := by decide +kernel

/-! ## Witnesses: the matrix array, the codec and the engines -/

/-- The 64 bytes of a descriptor of 16 by 2 elements of two bytes, with one tile: its index is at 0x20200, its pool at 0x20400. -/
def descBytes : List Byte :=
  toBytes 8 0x20200 ++ toBytes 8 0x20300 ++ toBytes 8 0x20400 ++ toBytes 4 2 ++ toBytes 4 16 ++ toBytes 2 16 ++ toBytes 2 2 ++
    [1, 0, 0, 0] ++ List.replicate 24 0

/-- A code table with one code of seven bits, 253 of eight and two of nine. -/
def flatTable : CodeTable := { counts := List.replicate 6 0 ++ [1, 253, 2] ++ List.replicate 6 0, order := List.range 256, tag := 3 }

/-- A loaded plane of K = 4 and two columns, every weight +0. -/
def weights : Plane :=
  { st := .loaded, fmt := 1, k := 4, n := 2, sparse := false, bs32 := false, unit := false,
    cols := List.replicate 2 [(0, 0), (1, 0), (2, 0), (3, 0)], scales := [] }

/-- A task with two tiles, the plane, a code table in slot 0 and the descriptor in td0; s0 to s3 hold a shape record of two rows of four
elements at 0x20100, s4 to s7 one of the coded tile (0, 0), and the index entry of that tile says that it is all zero. -/
def computing : State :=
  mem 0x20200 (toBytes 16 BixEntry.zero.bits) (mem 0x20300 (toBytes 16 BixEntry.zero.bits)
    (sreg 0 0x20100 (sreg 1 (8 + 2 ^ 32) (sreg 3 (2 + 4 * 2 ^ 16 + 2 ^ 32) (sreg 7 (16 + 2 * 2 ^ 16 + 2 ^ 32 + 2 ^ 38)
      (onTask (fun t => { t with
        tiles := [0, 1], planes := [weights], planeIds := [0], ctn := 1, ctSlots := [some flatTable], ctIds := [0],
        td := vset t.td 0 (BitVec.ofNat 512 (ofBytes descBytes)) }) base))))))

/-- The state after an instruction that goes on. -/
def after (i : Instr) (s : State) : State := match exec i s with
  | .next t => t
  | _ => s

theorem witness_planes_complete :
    every [
      let w := tw
      issuesT wloadEnc w .straight computing fun v =>
        !v.c.parts.isEmpty && (computing.pendingOp v.c.core { task := v.c.task, warp := v.c.warp } 2).isNone &&
        runs (Op.ownPlane v.c 0) computing fun _ _ => runs (Op.shape v.c v.w 0) computing fun x _ =>
          decide (x.1.rows ≤ 128) && decide (x.1.cols ≤ largestK x.1.format) && x.2.isNone,
      let w := tw (osrq := 1)
      issuesT wloadEnc w .straight computing fun v =>
        runs (Op.shape v.c v.w 1) computing fun x s₁ => match x.2 with
          | some d => decide (x.1.rows ≤ 128) && decide (x.1.cols ≤ largestK x.1.format) &&
              runs (Op.coordinate v.c.whole v.w d x.1.tx x.1.ty) s₁ fun _ _ => true
          | none => false,
      let s := after (.wload tw) computing
      match s.warpAt 0 0 with
      | none => false
      | some r => match s.pendingOp 0 r 2 with
        | none => false
        | some o => match o.word with
          | none => false
          | some k => s.planeWaits 0 r.task o.n k.plane.toNat == false && s.coreRuns 0 && s.tableWaits 0 o == false &&
              let s₀ : State := { s with issuer := some r }
              issuesT wloadEnc k .straight s₀ fun v => match s₀.task? v.c.task with
                | none => false
                | some t => runs (Op.shape v.c v.w k.osrq.toNat) s₀ fun x s₁ =>
                    runs (Op.asWarp v.c.whole (Op.planeRows v.c (v.seenT k) o.maddr t x)) s₁ fun rows _ =>
                      (planeColumns rows.1 rows.2).isSome,
      issuesT encOfWfree tw .straight computing fun v => !v.c.parts.isEmpty && runs (Op.ownPlane v.c 0) computing fun _ _ => true] = true := by decide +kernel

/-- The words of the three kinds of MMA: register rows from g8, tile 1, and the shape record of s0. -/
def mmaReg : TWord := tw 0xC8 8 1 (u := false)
def mmaTiles : TWord := tw 0xC8 0xC8 1 1 (asrc := 1) (atile := 1)
def mmaShape : TWord := tw (asrc := 2)

theorem witness_matrix_multiplies :
    every [
      issuesT mmaRegEnc mmaReg .straight computing fun v => !v.c.parts.isEmpty &&
        match computing.task? v.c.task with
        | none => false
        | some t => runs (Op.ownTile v.c 0) computing fun _ _ =>
            runs (Op.loadedPlane v.c 0 (mmaPlace v.c (v.seenT mmaReg))) computing fun p _ => accepts p.fmt 1 && decide (8 + (p.k * 16 + 31) / 32 ≤ v.c.regs) &&
            decide ((computing.core v.c.core).portLoad (v.c.lane / 8) < 4) &&
            runs (Op.tileWrite v.c 0 true) (computing.takePlace v.c
              { mmaOp v.c t (v.seenT mmaReg) p with
                afmt := 1, m := v.c.parts.length, kA := p.k, inPort := true,
                rows := v.c.parts.map fun i => registerRow v.w i v.h.a.toNat 16 p.k 0 }) fun _ _ => true,
      issuesT mmaTileEnc mmaTiles .straight computing fun v => !v.c.parts.isEmpty &&
        match computing.task? v.c.task with
        | none => false
        | some t => runs (Op.ownTile v.c 0) computing fun _ _ => runs (Op.ownTile v.c 1) computing fun _ _ =>
            runs (Op.loadedPlane v.c 0 (mmaPlace v.c (v.seenT mmaTiles))) computing fun p _ => accepts p.fmt 1 && decide (p.k ≤ 128) &&
            decide ((computing.core v.c.core).portLoad (v.c.lane / 8) < 4) &&
            runs (Op.tileWrite v.c 0 true) (computing.takePlace v.c
              { mmaOp v.c t (v.seenT mmaTiles) p with
                afmt := 1, atile := some 1, m := 2, kA := p.k, inPort := true }) fun _ s₁ =>
              runs (Op.tileRead v.c 1) s₁ fun _ _ => true,
      issuesT mmaShapeEnc mmaShape .straight computing fun v => !v.c.parts.isEmpty &&
        (computing.pendingOp v.c.core { task := v.c.task, warp := v.c.warp } 0).isNone && match computing.task? v.c.task with
        | none => false
        | some t => runs (Op.ownTile v.c 0) computing fun _ _ =>
            runs (Op.loadedPlane v.c 0 ((mmaPlace v.c (v.seenT mmaShape)).shaped v.w t 0)) computing fun p _ =>
              runs (Op.shape v.c v.w 0) computing fun x _ =>
                accepts p.fmt x.1.fmt && decide (x.1.rows ≤ 16) && decide (x.1.cols ≤ p.k) && x.2.isNone,
      let s := after (.mmaShapeRecord mmaShape) computing
      match s.warpAt 0 0 with
      | none => false
      | some r => match s.pendingOp 0 r 0 with
        | none => false
        | some o => match o.word with
          | none => false
          | some k => decide ((s.core 0).portLoad o.quarter < 4) && s.coreRuns 0 && s.tableWaits 0 o == false && o.rows.isEmpty &&
              let s₀ : State := { s with issuer := some r }
              issuesT mmaShapeEnc k .straight s₀ fun v => match s₀.task? v.c.task with
                | none => false
                | some t => runs (Op.shape v.c v.w k.osrq.toNat) s₀ fun x s₁ =>
                    runs (Op.asWarp v.c.whole (Op.operandRows v.c.mover x.1 x.2 t.table)) s₁ fun rows s₂ =>
                      runs (Op.tileWrite v.c k.tile.toNat true)
                        (((s₂.modOp v.c.core o.n fun y => { y with rows := rows }).modCore v.c.core fun q => { q with idle := 0 }).modOp
                          v.c.core o.n fun y => { y with inPort := true }) fun _ _ => true] = true := by decide +kernel

/-- A window of four columns from column 0, as FP32 values. -/
def readTile : TWord := tw 8 0xC8 0 3 (u := false)
def writeTile : TWord := tw 0xC8 8 0 3 (u := false)

theorem witness_tiles_complete :
    every [
      issuesT accrdEnc readTile .straight computing fun v => !v.c.parts.isEmpty && v.c.fpte == 0 &&
        decide (v.h.b.toNat + (v.seenT readTile).cols ≤ 128) &&
        runs (Op.ownTile v.c 0) computing fun _ _ => runs (Op.tileTurn v.c 0) computing fun _ s₁ => match s₁.task? v.c.task with
          | none => false
          | some t => runs (Op.tileRead v.c 0) (v.onWarp s₁ fun x => (accrdGives v.c (v.seenT readTile) t).foldl (fun x y =>
              x.modThread y.1 fun th => th.putRegs v.h.d.toNat (packWindow (v.seenT readTile).conv (y.2.map (·.1)))) x)
                fun _ _ => true,
      issuesT accwrEnc writeTile .straight computing fun v => !v.c.parts.isEmpty &&
        decide (v.h.b.toNat + (v.seenT writeTile).cols ≤ 128) &&
        runs (Op.ownTile v.c 0) computing fun _ _ => runs (Op.tileTurn v.c 0) computing fun _ s₁ =>
          (s₁.warp? v.c.task v.c.warp).isSome && runs (Op.tileWrite v.c 0 false) s₁ fun _ _ => true,
      issuesT encOfAccz tw .straight computing fun v => !v.c.parts.isEmpty &&
        runs (Op.ownTile v.c 0) computing fun _ _ => runs (Op.tileTurn v.c 0) computing fun _ s₁ =>
          runs (Op.tileWrite v.c 0 false) s₁ fun _ _ => true] = true := by decide +kernel

/-- A coded tile is read into g32 to g63, or replaced from them. -/
def readCoded : TWord := tw 32 0xC8 0 0 (osrq := 1) (u := false)
def writeCoded : TWord := tw 0xC8 32 0 0 (osrq := 1) (u := false)
def drainWord : TWord := tw 0xC8 0xC8 0x88

/-- The task's records: a descriptor at 0x20040, and a pool at 0x20400 whose bump word is at 0x30000. -/
def recorded : State :=
  mem 0x20040 descBytes (mem 0x20400 (toBytes 8 0x30000 ++ toBytes 8 0x40000 ++ toBytes 8 0x50000)
    (sreg 8 0x20040 (sreg 9 0x20800 (gpair 4 0x20400 computing))))

/-- A code table's record at 0x20800. -/
def tabled : State :=
  { recorded with mem := recorded.mem ++ flatTable.record.zipIdx.filterMap fun x =>
      if x.1 = 0 then none else some ((0x20800 + x.2, x.1) : Host.Cell) }

theorem witness_codec_complete :
    every [
      issuesT drainEnc drainWord .straight computing fun v => !v.c.parts.isEmpty &&
        stays (Op.tableTurn v.c) computing && runs (Op.drainChecks v.c (v.seenT drainWord) v.w) computing fun x s₁ =>
          stays (Op.turnOf v.c 0) s₁ && stays (Op.encoderTurn v.c) s₁ && runs (Op.entryFree v.c x.2.1) s₁ fun _ s₂ =>
            released v.c v.c.whole s₂ && match s₂.task? v.c.task with
            | none => false
            | some t => runs (Op.asWarp v.c.whole (Op.placeDrain v.c (v.seenT drainWord) x (drainSg v.c (v.seenT drainWord) v.w)
                (drainMakes (v.seenT drainWord) v.w t (v.c.active.headD 0) x.1).1.1)) s₂ fun _ _ => true,
      issuesT encOfTdld (tw 0xC8 0x88 (td := 2)) .straight recorded fun v => !v.c.parts.isEmpty &&
        runs (Op.plainRecord v.c 64 1 (read64 v.c v.w (v.c.active.headD 0) v.h.a).toNat) recorded fun bs _ => tdescOk (ofBytes bs),
      issuesT tldEnc readCoded .straight recorded fun v => !v.c.parts.isEmpty && v.c.fpte == 0 &&
        (recorded.task? v.c.task).isSome && stays (Op.tableTurn v.c) recorded &&
        runs (Op.windowChecks v.c v.w (v.seenT readCoded) (tldWindow (v.seenT readCoded)) v.h.d.toNat fun _ => false) recorded
          fun r s₁ => match s₁.task? v.c.task with
            | none => false
            | some t => runs (Op.asWarp v.c.whole (Op.decode v.c.mover 8 r.2 r.1.td r.1.tx r.1.ty t.table)) s₁ fun _ _ => true,
      issuesT tstEnc writeCoded .straight recorded fun v => !v.c.parts.isEmpty && v.c.fpte == 0 &&
        (recorded.task? v.c.task).isSome && stays (Op.tableTurn v.c) recorded &&
        runs (Op.windowChecks v.c v.w (v.seenT writeCoded) (tstWindow (v.seenT writeCoded)) v.h.a.toNat
          fun d => d.fmt == 6 && (tstCode (v.seenT writeCoded) == 1 || tstCode (v.seenT writeCoded) == 2)) recorded
          fun r s₁ => match s₁.task? v.c.task with
            | none => false
            | some t => match t.table r.2.dct with
              | none => false
              | some ct => ((s₁.core v.c.core).drains.any fun (o : DrainOp) => !o.published) == false &&
                  (tstWindow (v.seenT writeCoded)).raw == false && stays (Op.encoderTurn v.c) s₁ && released v.c v.c.whole s₁ &&
                  runs (Op.asWarp v.c.whole (Op.oldTile v.c r.1 r.2 t.table)) s₁ fun old s₂ =>
                    let xs := tstGives v.c (v.seenT writeCoded) v.w r.2
                    runs (Op.storeTile v.c r.1 r.2 ct old.1 (xs.foldl (fun t y =>
                      t.supply r.2 y.2.1 (tstWindow (v.seenT writeCoded)).w y.2.2) old.2)) s₂ fun _ _ => true,
      issuesT encOfCtinv tw .straight recorded fun v => !v.c.parts.isEmpty && stays (Op.tablesFree v.c) recorded &&
        (recorded.task? v.c.task).any fun t => decide (0 < t.ctn),
      let w := tw 12 8 (u := false)
      issuesT encOfBixrd w .straight recorded fun v => !v.c.parts.isEmpty &&
        runs (Op.descriptor v.c v.c.whole 0) recorded fun d s₁ =>
          runs (Op.gather v.c (Op.aimEntry v.c (v.seenT w) v.w d)) s₁ fun as s₂ => runs (Op.readEntries v.c as) s₂ fun _ _ => true,
      let w := ew 1 0 6 4
      issuesE encOfPoolq w .straight recorded fun v =>
        runs (Op.gather v.c fun t => Op.asWarp (v.c.maskAt t) (Op.poolCount v.c (v.seenE w) v.w t)) recorded fun _ _ => true] = true := by decide +kernel

theorem witness_code_table_load :
    every [
      issuesT encOfCtld (tw 0xC8 0x89) .straight tabled fun v => !v.c.parts.isEmpty && stays (Op.tablesFree v.c) tabled &&
        runs (Op.plainRecord v.c 32 9 (read64 v.c v.w (v.c.active.headD 0) v.h.a).toNat) tabled fun bs s₁ =>
          (tableOfRecord bs).isSome && (s₁.task? v.c.task).any fun t => decide (0 < t.ctn)] = true := by decide +kernel

/-- The operands of copies: A = (0x20100, rows), B = (0x20180, 0), C = (no stalagmite, 32 bytes). -/
def copying : State :=
  sreg 8 0x20100 (sreg 9 (2 ^ 32) (sreg 10 0x20180 (sreg 12 0 (sreg 13 (32 * 2 ^ 32)
    (onTask (fun t => { t with sched :=
      [{ src := 0x20100, dst := 0x20180, sstr := 0, dstr := 0, rows := 1, len := 32, csg := 0, amt := 0, stage := 1, sspace := 0,
         dspace := 0, guarded := none }] }) recorded)))))

/-- A placement of one command for the warp. -/
def places (x : EWord → Enc) (w : EWord) (check : Ctx → EWord → Tid → Op CmdKind) (act : Ctx → EWord → Tid → CmdKind → Op Unit)
    (s : State) : Bool :=
  issuesE x w .straight s fun v => eachRuns v.c (check v.c (v.seenE w)) (act v.c (v.seenE w)) v.c.units s

theorem witness_engines_complete :
    every [
      places encOfCpy (ew 0 0 0x86 0x88 0x8A 0x8C (pi := 1) (u := true)) (Op.copyCheck cpyKind fun _ _ _ _ => true) copyAct copying,
      places encOfCpy2 (ew 0 0 0x86 0x88 0x8A 0x8C (pi := 1) (u := true)) (Op.copyCheck cpy2Kind cpy2Plain) copyAct copying,
      places encOfCpyt (ew 0 0 0x86 0x88 0x8A 0x8C (pi := 1) (u := true)) (Op.copyCheck cpytKind fun _ _ _ _ => true) copyAct copying,
      places xformEnc (ew 0 0 0x86 0x90 0xC8 0x8C (pi := 1) (u := true)) Op.xfCommand xformAct (sreg 13 (2 ^ 32) copying),
      issuesE encOfGset (ew 0 0x103 (u := true)) .straight copying fun v => !v.c.parts.isEmpty &&
        (copying.task? v.c.task).any fun t => vget t.gd 3 .unresolved == .unresolved,
      issuesE encOfGclr (ew 0 3 (u := true)) .straight copying fun v => !v.c.parts.isEmpty,
      issuesE encOfStadv (ew 0 1 0x86 (u := true)) .straight copying fun v => !v.c.parts.isEmpty &&
        (copying.task? v.c.task).any (fun t => !t.sched.isEmpty && decide (t.stage + 1 < 2 ^ 32)) &&
        runs (Op.commit v.c v.c.active) copying fun _ _ => true] = true := by decide +kernel

/-- The same words where predicate 0 fails for every thread, or for the warp. -/
def failing (h : Head) : Head := { h with pr := 0 }
def noneE (x : EWord → Enc) (flow : Flow) (w : EWord) : Bool :=
  issuesE x { w with h := failing w.h } flow recorded fun v => v.c.parts.isEmpty
def noneM (x : MWord → Enc) (w : MWord) : Bool :=
  issuesM x { w with h := failing w.h } .straight recorded fun v => v.c.parts.isEmpty
def noneK (x : KWord → Enc) (w : KWord) : Bool :=
  issuesK x { w with h := failing w.h } .straight recorded fun v => v.c.parts.isEmpty
def noneJ (x : JWord → Enc) (w : JWord) : Bool :=
  issuesJ x { w with h := failing w.h } .straight recorded fun v => v.c.parts.isEmpty
def noneT (x : TWord → Enc) (w : TWord) : Bool :=
  issuesT x { w with h := failing w.h } .straight recorded fun v => v.c.parts.isEmpty

theorem witness_words_of_no_thread :
    every [
      noneE encOfExit .boundary ew, noneJ jumpEnc (jw 3), noneE encOfIfence .straight ew, noneE encOfTrap .straight ew,
      noneE encOfBkpt .straight ew, noneK encOfVote (KWord.once (kw 7 0 0 0x86 4)),
      noneK encOfWred (KWord.once (kw 3 0 0 0x86 4)), noneK encOfWscan (kw 3 0 0 6 4), noneK encOfQnt (kw 0x23 0 0x20 6 4),
      noneM encOfSt storeWord, noneM encOfStbm mergeWord, noneE encOfFence .straight ew, noneE encOfXfence .straight ew,
      noneE encOfGinfo .straight (ew 0 1 6), noneE encOfGpnum .straight (ew 0 0 6),
      noneE encOfGpwait .wait (ew 0 0 0xC8 0xC8 8), noneT wloadEnc tw, noneT encOfWfree tw, noneT mmaRegEnc mmaReg,
      noneT mmaTileEnc mmaTiles, noneT mmaShapeEnc mmaShape, noneT accrdEnc readTile, noneT accwrEnc writeTile,
      noneT encOfAccz tw, noneT drainEnc drainWord, noneT encOfTdld (tw 0xC8 0x88 (td := 2)), noneT encOfCtld (tw 0xC8 0x89),
      noneT encOfCtinv tw, noneT tldEnc readCoded, noneT tstEnc writeCoded, noneT encOfBixrd (tw 12 8 (u := false)),
      noneE encOfGset .straight (ew 0 0x103 (u := true)), noneE encOfGclr .straight (ew 0 3 (u := true)),
      noneE encOfStadv .straight (ew 0 1 0x86 (u := true))] = true := by decide +kernel

/-! ## Witnesses: queues and engines -/

/-- Queue 3 of the context: its ring of 64-byte slots is described at 0x20040, and its entries lie at 0x21000. -/
def queued (st : QueueState) (f : Queue → Queue) (fill rel : Nat) : State :=
  mem 0x20040 (ringBytes 0x21000 64 4 0x30000 0x30008) (mem 0x30000 (toBytes 8 fill ++ toBytes 8 rel)
    (base.modQueue 3 fun q => f { q with qring := 0x20040, st := st }))

/-- The queue's commands are not held up. -/
def quiet (s : State) : Bool := (s.queue 3).retiring == 0 && (s.queue 3).later.isEmpty

/-- The commands of a queue that reads its ring: its stalagmites can be read. -/
def readsRing (s : State) (k : Nat → Nat → State → Bool) : Bool :=
  runs (Op.queueRing 3) s fun d s₁ => runs (Op.queueSg 3 20 d.rel) s₁ fun rel s₂ => runs (Op.queueSg 3 21 d.fill) s₂ fun fill s₃ =>
    k rel fill s₃

/-- DRAIN reads FILL alone. -/
def readsFill (s : State) (k : Nat → Bool) : Bool :=
  runs (Op.queueRing 3) s fun d s₁ => runs (Op.queueSg 3 23 d.fill) s₁ fun fill s₂ => k fill && quiet s₂

theorem witness_queue_commands :
    every [
      base.mgmt.boot == 3,
      quiet (queued .disabled id 2 1), (queued .disabled id 2 1).queueRecorded 3 == false,
      ((queued .disabled id 2 1).queue 3).appending.isNone,
      readsRing (queued .disabled id 2 1) fun _ _ s => quiet s,
      [QueueState.disabled, .enabled, .running, .blocked, .errored, .suspended, .drained].all fun st =>
        decide (((queued st (fun q => { q with told := true }) 2 1).queue 3).st = st),
      [(2, 2), (100, 3)].all fun x => runs (Op.skipHow 3) (queued .errored (fun q => { q with told := true }) x.1 1) fun how s₁ =>
        how == x.2 && runs (Op.retireHead 3 how) s₁ fun _ s => quiet s,
      !((queued .errored id 2 1).queue 3).told,
      ((queued .running (fun q => { q with retiring := 1 }) 2 1).queue 3).retiring != 0,
      readsFill (queued .enabled (fun q => { q with rdpos := 2 }) 2 1) fun fill => fill == 2,
      readsFill (queued .suspended (fun q => { q with rdpos := 1 }) 2 1) fun fill => fill != 1] = true := by decide +kernel

/-- A head of the queue, of the launch record of the base kernel. -/
def headed : State :=
  queued .running (fun q => { q with
    rdpos := 1,
    head := base.kernels.head?.map fun k =>
      { lrec := 0x20100, args := 0, tag := 5, lr := k.lr, line := [], met := [], ready := some 0 } }) 2 1

theorem witness_queue_heads :
    every [
      (queued .enabled id 0 0).mayLook 3, ((queued .enabled id 0 0).queue 3).head == none,
      runs (Op.lookAt 3) (queued .enabled id 0 0) fun _ s => quiet s,
      headed.mayLook 3, quiet headed, runs (Op.lookAt 3) headed fun _ s => quiet s,
      let s := headed.modQueue 3 fun q => { q with retiring := 1 }
      s.retires 3 && runs (Op.goOnRetiring 3) s fun _ s₁ => quiet s₁,
      let s := queued .suspended (fun q => { q with later := [7] }) 2 1
      !s.mayLook 3 && !s.retires 3 && s.mgmt.boot == 3,
      headed.headReady 3, headed.selected == some 3, headed.turn == none,
      runs (Op.checkFill 3) headed fun _ s₁ => s₁.headReady 3 && runs (Op.retireHead 3 1) (s₁.countTurn 3) fun _ s₂ => quiet s₂,
      let s := { headed with turn := some 3 }
      s.headReady 3 && s.priority 3 == min 7 ((s.queue 3).pri + (s.queue 3).age),
      let s := { headed with turn := some 3, time := 10 ^ 7 * 2 ^ 20 }
      s.headReady 3 && s.priority 3 != min 7 ((s.queue 3).pri + (s.queue 3).age)] = true := by decide +kernel

/-- A copy of 32 bytes placed in the queue of core 0's engine, under a guard when `sel` names one. -/
def copyQueued (sel imm : Nat) (s : State) : State :=
  after (.cpy (ew 0 imm 0x86 0x88 0x8A 0x8C sel (pi := 1) (u := true))) s

/-- Guard 1 of the task set. -/
def guarded1 (g : Guard) (s : State) : State := onTask (fun t => { t with gd := vset t.gd 1 g }) s

/-- The head of the engine, which may run. -/
def headOf (s : State) (x : Bool) (k : EngineCmd → Bool) : Bool := match (s.engine 0 x).queue with
  | cmd :: _ => s.mayRun cmd.ctx && cmd.stopped.isNone && k cmd
  | [] => false

/-- A ring copy: the ring of 32-byte slots is described at 0x20600. -/
def ringed : State := mem 0x20600 (ringBytes 0x20700 32 4 0x30000 0x30008) (sreg 10 0x20600 copying)

/-- A state whose engine runs its head. -/
def copyRunning (imm : Nat) (s : State) : State := after (.copyCommandStart 0) (copyQueued 0 imm s)

/-- A transform of one tile placed in the queue of core 0's part of the engine, and running. -/
def transforming : State := after (.xform (ew 0 0 0x86 0x90 0xC8 0x8C (pi := 1) (u := true))) (sreg 13 (2 ^ 32) copying)

theorem witness_engines :
    every [
      let s := copyQueued 0 0 copying
      (s.engine 0 false).st == 0 && headOf s false fun cmd => decide (s.guardOf cmd = .run),
      let s := copyQueued 33 0 copying
      (s.engine 0 false).st == 0 && headOf s false fun cmd => decide (s.guardOf cmd = .held),
      let s := guarded1 .isFalse (copyQueued 33 0 copying)
      headOf s false fun cmd => decide (s.guardOf cmd = .discard) &&
        runs (Op.completionAdd (cmd.mover 0 false) 0 cmd) (s.modHead 0 false fun c => { c with dropped := true }) fun _ _ => true,
      let s := copyRunning 0 copying
      match s.copyRuns 0 with
      | some cmd => cmd.kind.isRing == false && runs (Op.copyWork 0 (cmd.mover 0 false) cmd) s fun a _ => a
      | none => false,
      let s := copyRunning 0x10 ringed
      match s.copyRuns 0 with
      | some cmd => cmd.kind.isRing && runs (Op.ringWork 0 (cmd.mover 0 false) cmd) s fun a _ => a
      | none => false,
      let s := copyRunning 0 (sreg 10 0x90000 copying)
      match s.copyRuns 0 with
      | some cmd => match Op.copyWork 0 (cmd.mover 0 false) cmd s with
        | .error (.trapAt s₁ _) => !(s₁.engine 0 false).queue.isEmpty
        | _ => false
      | none => false,
      (let s := after (.copyCommandComplete 0) (copyRunning 0 (sreg 10 0x90000 copying))
       (s.engine 0 false).st == 3),
      [false, true].all fun x =>
        let s := base.modEngine 0 x fun e => { e with st := 3, pushed := true }
        (s.engine 0 x).st == 3 && (s.engine 0 x).pushed,
      transforming.xfNext 0 == some 0, (coresOf 0).all fun c => ((transforming.xfHold 0).engine c true).st != 1,
      (transforming.xfHold 0).xfNext 0 == some 0,
      let s := after (.xformCommandStart 0) transforming
      ((coresOf 0).find? fun c => (s.engine c true).st == 1) == some 0 &&
        headOf s true fun cmd => runs (Op.xfWork 0 (cmd.mover 0 true) cmd) s fun _ _ => true] = true := by decide +kernel

/-! ## Witnesses: steps that no instruction word makes -/

/-- The base kernel is Ready, without a handle, and its launch reads a condition word where one is given. -/
def readyKernel (cond : Nat) (s : State) : State :=
  onKernel (fun k => { k with st := 2, handle := none, lr := { k.lr with cond := BitVec.ofNat 64 cond } }) s

/-- The base kernel expands a grid of a number of points, of which one is pushed. -/
def expanding (n : Nat) : State :=
  onKernel (fun k => { k with st := 3, pushed := 1, lr := { k.lr with gx := n, gy := 1, gz := 1 } }) base

/-- A continuation record of the base kernel in the queue. -/
def spawnRecord : Cont :=
  { id := 9, w0 := 0x10000, w1 := 0, w2 := 0, w3 := 0, kid := ref.task, index := 0, coord := none, counted := false, told := [], met := [],
    slot := 0 }

theorem witness_kernel_starts :
    every [
      let s := readyKernel 0 base
      match s.kernel? ref.task with
      | some k => s.freeHandle == some 0 && k.st == 2 && s.mayRun k.ctx && s.recordRoom k.ctx && k.lr.cond == 0
      | none => false,
      [0, 1].all fun n =>
        let s := readyKernel 0x20700 (mem 0x20700 [BitVec.ofNat 8 n] base)
        match s.kernel? ref.task with
        | some k => s.freeHandle == some 0 && k.st == 2 && s.mayRun k.ctx && s.recordRoom k.ctx && k.lr.cond != 0 &&
            (match s.agentRead (.kernel ref.task) 0 k.ctx .load k.lr.cond.toNat 4 4 with
             | (.ok x, _) => x == n
             | _ => false)
        | none => false,
      [(1, 0), (2, 0), (2, 1)].all fun x =>
        let s := onCtx (fun c => { c with cqcfg := 0, cq := List.replicate x.2 spawnRecord }) (expanding x.1)
        match s.kernel? ref.task with
        | some k => k.st == 3 && s.mayRun k.ctx && decide (k.lr.points ≤ k.pushed) == decide (x.1 = 1) &&
            decide ((s.ctx k.ctx).cqCap ≤ (s.ctx k.ctx).cq.length) == decide (x.2 = 1)
        | none => false] = true := by decide +kernel

theorem witness_placements :
    every [
      let s := onTask (fun t => { t with core := none }) base
      s.ctxOfCore 0 == some 0 && s.mayRun 0 && !(s.ctx 0).moving && (s.waitingBack 0 0).isSome,
      let s := onWarp (fun w => { w with st := .ready }) (onTask (fun t => { t with pendingStep := some .entry }) base)
      s.ctxOfCore 0 == some 0 && s.mayRun 0 && !(s.ctx 0).moving && (s.waitingBack 0 0).isNone && (s.placing 0).isSome,
      let s := onCtx (fun c => { c with cq := [spawnRecord] }) base
      s.ctxOfCore 0 == some 0 && s.mayRun 0 && !(s.ctx 0).moving && (s.waitingBack 0 0).isNone && (s.placing 0).isNone &&
        runs (Op.chooseRecord 0 0 (s.byPriority 0)) s fun x s₁ => x.any fun y =>
          runs (Op.rereadRecord 0 y.1) s₁ fun k s₂ => (s₂.roomFor 0 k.lr).isSome] = true := by decide +kernel

theorem witness_task_and_kernel_ends :
    every [
      let s := onTask (fun t => { t with timer := some 0 }) base
      (s.task? ref.task).any fun t => t.timer == some 0 && t.core.isSome && !t.ended && s.mayRun t.ctx,
      let s := onWarp (fun w => { w with st := .done }) base
      (s.task? ref.task).any fun t => s.agentsRun t.ctx && s.recordRoom t.ctx && !t.ended && t.core.isSome &&
        t.warps.all fun w => w.st == .done,
      let s := { onKernel (fun k => { k with st := 6, live := 0 }) base with tasks := [] }
      match s.kernel? ref.task with
      | some k => s.agentsRun k.ctx && k.joins.isEmpty && s.kernelOver k
      | none => false] = true := by decide +kernel

theorem witness_grace_events :
    every [
      base.agentsRun 0,
      let s := onCtx (fun c => { c with req := true }) base
      (s.ctx 0).req && !(s.ctx 0).run && s.recordRoom 0,
      let s := onCtx (fun c => { c with run := true }) base
      (s.ctx 0).run && !s.endedStores 0 && !s.graceOut 0 && s.recordRoom 0 &&
        s.tasks.all fun t => t.warps.all fun w => !w.mark] = true := by decide +kernel

/-- The array of core 0 holds the pass of one multiply, and then has sent it away. -/
def multiplied : State := after (.mmaRegisters mmaReg) computing
def passing : State := after (.matrixPass 0) multiplied
def passed : State := after (.passLeavesArray 0) passing
/-- A tile drained, not yet published. -/
def drained : State := after (.drain drainWord) computing

theorem witness_matrix_events :
    every [
      multiplied.coreRuns 0, (multiplied.core 0).inArray.isEmpty, !(multiplied.core 0).nextPass.isEmpty,
      (multiplied.core 0).ops.all fun o => decide (o.m ≤ 64),
      passing.coreRuns 0, !(passing.core 0).inArray.isEmpty,
      passed.coreRuns 0, !(passed.core 0).leaving.isEmpty,
      drained.coreRuns 0,
      (match (drained.core 0).drains with
       | o :: _ => !o.published && (drained.poisonedPiece (o.block ++ o.entry)).isNone
       | [] => false),
      let s := base.modCore 0 fun k => { k with idle := 2 ^ 20 }
      s.coreRuns 0 && decide (2 ^ 20 ≤ (s.core 0).idle) && s.abandonsAll 0 (s.core 0).drains] = true := by decide +kernel

/-- The warp waits at a stalagmite for a count that it does not hold. -/
def waiting : State := after (.sgwait waitWord) (gpair 8 5 atSg)
/-- Its wait with a change. -/
def waitingWith (f : Wait → Wait) : State := onWarp (fun w => { w with wait := w.wait.map f }) waiting

/-- The warp of slot 0, with a condition of it. -/
def slot0 (s : State) (k : WarpRef → Warp → Bool) : Bool := match s.warpAt 0 0 with
  | some r => match s.warp? r.task r.warp with
    | some w => k r w
    | none => false
  | none => false

theorem witness_warp_events :
    every [
      let s := onWarp (fun w => { w with stall := some .remote, stalled := 65 }) base
      slot0 s fun r w => w.st == .running && w.mac.isNone && w.stall.map Stall.ofMemory == some true &&
        decide (64 < w.stalled) && s.mayRun (s.ctxOf r.task),
      let s := waitingWith fun y => { y with woken := true }
      slot0 s fun _ w => w.st == .blocked && w.wait.any fun y => y.woken,
      let s := onWarp (fun w => { w with st := .running }) (waitingWith fun y => { y with woken := true })
      issuesE encOfSgwait waitWord .wait s fun v => gathered waitWord .sgRead v s fun as s₁ =>
        waited v.c 0 (sgwaitFor v.c (v.seenE waitWord) v.w as) s₁,
      let s := waitingWith fun y => { y with entered := false }
      slot0 s fun r w => w.st == .blocked && w.wait.any (fun y => !y.entered && !y.woken &&
        (s.walkAgain (s.warpWho r 0 w) (s.itemsAgain r y)).1) && s.mgmt.boot == 3,
      slot0 waiting fun r w => w.st == .blocked && w.wait.any (fun y => y.entered && !y.woken &&
        (waiting.walkAgain (waiting.warpWho r 0 w) (waiting.itemsAgain r y)).1),
      let s := { waitingWith fun y => { y with entered := false } with tlb := [] }
      slot0 s fun r w => w.st == .blocked && w.wait.any (fun y => !y.woken &&
        (s.walkAgain (s.warpWho r 0 w) (s.itemsAgain r y)).1 == false),
      let s := waitingWith fun y => { y with elapsed := 100, parts := y.parts.map fun p => (p.1, p.2.1, p.2.2.1, 7) }
      slot0 s fun r w => w.st == .blocked && s.mayRun (s.ctxOf r.task) && match w.wait with
        | some y => !y.woken && (s.unsure r y).all (s.valueKnown r) && [s, s.learn r (s.unsure r y)].all fun z =>
            y.parts.any fun p => z.partUnmet r y p && p.2.2.2 != 0 && decide (p.2.2.2 ≤ y.elapsed)
        | none => false] = true := by decide +kernel

/-- The context's fault ring: 64-byte slots at 0x21000, described at 0x20040; a trap's record waits for it. -/
def recording : State :=
  after (.trap (ew 0 9)) (onCtx (fun c => { c with fring := 0x20040 }) (mem 0x20040 (ringBytes 0x21000 64 4 0x30000 0x30008) base))

theorem witness_device_events :
    every [
      let s := base.modCore 0 fun c => { c with fills := [{ ctx := 0, va := homePc, pa := homePc }] }
      s.coreRuns 0 && (s.core 0).fills[0]?.isSome,
      base.mgmt.boot == 3,
      let s := { base with owners := [(0x20000, 0)] }
      s.ownerOf 0x20000 == some 0,
      recording.mayRun 0, !(recording.ctx 0).fringTold, (recording.ctx 0).fringVa != 0,
      (match recording.nextRecord 0 with
       | some r => runs (Op.pushRecord 0 r) recording fun _ _ => true
       | none => false),
      decide (2 ≤ (base.ctx 0).st), decide ((base.ctx 0).st ≤ 5),
      base.issuer.any fun r => (base.warp? r.task r.warp).isSome] = true := by decide +kernel

/-! ## Witnesses: the fabric -/

/-- Port 0 of the base state changed. -/
def onPort (f : Port → Port) : State := base.modPort 0 f
def linked : State := onPort fun p => { p with st := 2, was := 2, lanes := 8, peer := 5 }
def arrived (m : FabricMsg) : State := onPort fun p => { p with st := 2, inbox := [(0, m)] }
def asked : Outstanding := { tag := 9, peer := 5, port := 0, op := .load 0 8, who := .post, key := 0, ctx := 0, va := 0, entry := 0, seen := 0 }

theorem witness_link_events :
    every [
      base.mgmt.boot == 3,
      [1, 5].all fun st => let s := onPort fun p => { p with st := st }
        (s.port 0).st == st && s.loserRoom 0,
      [2, 3].all fun st => let s := onPort fun p => { p with st := st }
        (s.port 0).st == st && s.outstanding.all fun o => o.port != 0,
      [6, 7].all fun n => let s := onPort fun p => { p with st := 2, fails := n }
        (s.port 0).st == 2 && (s.port 0).fails == n,
      (linked.port 0).st == 2 && (linked.port 0).replay.isEmpty,
      let s := linked.modPort 0 fun p => { p with replay := [{ cls := 0, seq := 0, msg := none }, { cls := 0, seq := 1, msg := none }] }
      (s.port 0).st == 2 && ((s.port 0).replay.any fun f => decide (f.seq < 1)) && (s.port 0).replay.any fun f => f.seq == 1,
      let s := linked.modPort 0 fun p => { p with fails := 8, rxSeq := 4 }
      (s.port 0).fails == 8 && (s.port 0).st != 4 && (s.port 0).rxSeq != 3,
      let m : FabricMsg := .request 5 7 (.load 0x20000 8)
      (arrived m).mgmt.boot == 3 && ((arrived m).port 0).first msgAsks == some (0, m) &&
        (arrived m).knownTag 5 7 == false && (arrived m).exported 5 0x20000 8 == false,
      let m : FabricMsg := .withdraw 5 9
      ((arrived m).port 0).first msgAsks == some (0, m),
      let m : FabricMsg := .response 5 9 true 1
      let s := { arrived m with outstanding := [asked] }
      ((s.port 0).first fun x => !msgAsks x) == some (0, m) && s.answerRoom asked true 1 && (s.outstanding.find? fun o => o.tag == 9).isSome,
      localRange 0x20000 8] = true := by decide +kernel

/-! ## Witnesses: registers and commands of the management interface -/

theorem witness_register_writes :
    every [
      sysListed 0x18 && !sysOwned 0x18 && !sysManaged 0x18 && base.sysIndexOk 0 0x18 0,
      sysListed 0x40 && !sysOwned 0x40 && !sysManaged 0x40 && ({ base with debugSlot := some 0 } : State).sysIndexOk 0 0x40 0,
      let s := { base with mgmt := { base.mgmt with boot := 1 } }
      s.mgmt.boot == 1 && base.mgmt.boot != 1,
      let v : W64 := 0x104
      v.getLsbD 8 && decide (4 ≤ (v.extractLsb' 0 4).toNat) && decide ((v.extractLsb' 0 4).toNat ≤ 12),
      [(0x004, 4), (0x103, 3), (0x10D, 13)].all fun x => let v := BitVec.ofNat 64 x.1
        (v.extractLsb' 0 4).toNat == x.2 && (v.getLsbD 8 == false || decide ((v.extractLsb' 0 4).toNat < 4) ||
          decide (12 < (v.extractLsb' 0 4).toNat)),
      decide (base.mgmt.mcFill.toNat ≤ 1) && decide (1 ≤ base.mgmt.mcDone.toNat + 2 ^ base.mgmt.mcLog) &&
        decide (base.mgmt.mcDone.toNat + 2 ^ base.mgmt.mcLog < 2),
      decide (base.invq.length < invCap) && (match base.agentRead (.context 0) 0 0 .load 0x20000 32 32 with
        | (.ok _, _) => true
        | _ => false),
      let s := onWarp (fun w => { w with st := .suspended }) base
      match s.suspendedAt 0 0 with
      | some r => (s.task? r.task).isSome && s.frozen == false
      | none => false,
      let s := { onWarp (fun w => { w with st := .suspended }) base with frozen := true }
      match s.suspendedAt 0 0 with
      | some r => (s.task? r.task).any fun t => s.debugSlot != some t.ctx
      | none => false,
      ({ base with debugSlot := some 0 }).debugSlot != none] = true := by decide +kernel

/-- A command record: code, TAG 5 and fields by byte, length and value. -/
def cmd (opc : Nat) (fs : List (Nat × Nat)) : Command :=
  BitVec.ofNat 512 (fs.foldl (fun v f => v + f.2 * 256 ^ f.1) (opc + 5 * 2 ^ 32))

/-- The state whose ring holds one command, next in turn. -/
def commanded (c : Command) (s : State) : State :=
  { s with
    mgmt := { s.mgmt with boot := 3, mcEn := true, mcLog := 4, mcBase := 0, mcFill := 1, mcDone := 0, busy := none },
    host := s.host.setN 0 64 c.toNat, agenda := [.ring] }

/-- A command is next in turn, the bytes that it does not use are zero, and a condition holds. -/
def commands (c : Command) (used : List (Nat × Nat)) (s : State) (k : State → Bool) : Bool :=
  let s := commanded c s
  s.ringCommand == some c && s.mgmt.boot == 3 && unusedZero c used && (Decode.command c).isSome && k s

/-- The base context in a state. -/
def inState (n : Nat) (s : State) : State := onCtx (fun c => { c with st := n }) s

theorem witness_command_refused :
    every [
      let c := cmd 0x0A []
      let s := commanded c base
      let s := { s with mgmt := { s.mgmt with boot := 2 } }
      (Decode.command c).isSome && s.ringCommand == some c && s.mgmt.boot != 3] = true := by decide +kernel

theorem witness_context_commands :
    every [
      commands (cmd 0x01 [(8, 3)]) [(8, 2), (16, 16)] base fun s => rootOk 0 && (s.ctx 3).st == 0,
      commands (cmd 0x02 [(9, 1), (16, 4)]) [(8, 2), (16, 8)] (inState 2 base) fun s => (s.ctx 0).st == 2 && !s.heldElsewhere 0 2,
      commands (cmd 0x03 [(9, 2)]) [(8, 2)] (inState 1 base) fun s => (s.ctx 0).st == 1,
      commands (cmd 0x04 []) [(8, 1)] (inState 2 (onCtx (fun c => { c with cqcfg := 8 }) base)) fun s =>
        (s.ctx 0).st == 2 && (s.ctx 0).cqOk,
      commands (cmd 0x05 []) [(8, 1)] base fun s => (s.ctx 0).st == 3 && !s.freezeHolds 0,
      commands (cmd 0x06 [(16, 0x100000), (24, 0x100000)]) [(8, 1), (16, 16)] (inState 4 { base with tasks := [], kernels := [] })
        fun s => (s.ctx 0).st == 4 && localRange 0x100000 0x100000 && decide ((s.saveImage 0).length ≤ 0x100000),
      commands (cmd 0x07 []) [(8, 1)] (inState 4 base) fun s => (s.ctx 0).st == 4 && !s.freezeHolds 0 && (s.readBack 0).isSome,
      commands (cmd 0x0A []) [(8, 1)] base fun s => (s.ctx 0).st != 0,
      commands (cmd 0x08 [(9, 5), (16, 2 ^ 51 + 5 * 2 ^ 45)]) [(8, 2), (16, 8)]
          (inState 5 { linked with routes := vset linked.routes 5 1 }) fun s =>
        (s.ctx 0).st == 5 && (remoteOffset 5 (2 ^ 51 + 5 * 2 ^ 45)).isSome && (s.routeTo 5).isSome] = true := by decide +kernel

theorem witness_other_commands :
    every [
      let c := cmd 0x10 [(10, 0x18)]
      commands c [(8, 1), (10, 3), (16, 8)] base fun s =>
        s.sysNamed c && !sysManaged 0x18,
      let c := cmd 0x10 [(10, 0x40)]
      commands c [(8, 1), (10, 3), (16, 8)] { base with debugSlot := some 0 } fun s =>
        s.sysNamed c && !sysManaged 0x40 && s.debugSlot == some 0,
      let c := cmd 0x11 [(10, 0x18)]
      commands c [(8, 1), (10, 3), (16, 8)] base fun s => s.sysNamed c,
      commands (cmd 0x12 []) [(8, 1), (16, 4)] base fun _ => true,
      commands (cmd 0x13 []) [(8, 1), (16, 4)] base fun s => !s.freezeHolds 0,
      commands (cmd 0x20 []) [(8, 1)] base fun s => (s.port 0).st == 0,
      commands (cmd 0x21 []) [(8, 1)] linked fun s => (s.port 0).st != 0 && s.loserRoom 0,
      commands (cmd 0x22 [(8, 5), (16, 3)]) [(8, 1), (16, 4)] base fun _ => true,
      commands (cmd 0x23 [(8, 5), (16, 0x20000), (24, 0x10000)]) [(8, 2), (16, 16)] base fun _ => localRange 0x20000 0x10000,
      commands (cmd 0x24 []) [(8, 1), (16, 16)] base fun s => s.windowOk 0 0 0,
      commands (cmd 0x28 [(8, 0xFF)]) [(8, 1)] base fun _ => true,
      commands (cmd 0x28 []) [(8, 1)] base fun _ => true,
      commands (cmd 0x29 []) [(8, 32)] base fun s => decide (s.invq.length < invCap),
      commands (cmd 0x2A [(32, 0x30000)]) [(8, 13), (24, 20)] base fun s =>
        localRange 0x30000 8 && (s.rangeList 0 0).all rangeOk] = true := by decide +kernel

/-- The image of an empty suspended context in memory at 0x100000. -/
def emptied : State := inState 4 (onCtx (fun c => { c with cqcfg := 8 }) { base with tasks := [], kernels := [] })
def imaged : State :=
  let bs := emptied.saveImage 0
  let s := onCtx (fun c => { c with st := 5, image := some (0x100000, bs.length) }) emptied
  { s with mem := s.mem ++ bs.zipIdx.filterMap fun x => if x.1 = 0 then none else some ((0x100000 + x.2, x.1) : Host.Cell) }

theorem witness_images :
    every [
      commands (cmd 0x07 []) [(8, 1)] imaged fun s => (s.ctx 0).st == 5 && (s.readBack 0).isSome,
      commands (cmd 0x09 [(8, 3), (9, 5), (16, 0x100000)]) [(8, 2), (16, 8)] imaged fun s =>
        (s.ctx 3).st == 0 && localRange 0x100000 256 && (s.judgeImage 3 0x100000).isOk] = true := by decide +kernel

/-- The state with a command that goes on. -/
def busyWith (b : Busy) (s : State) : State := { s with mgmt := { s.mgmt with busy := some (5, b) } }

theorem witness_commands_complete :
    every [
      let s := busyWith (.preempt 0) base
      s.mgmt.boot == 3 && (s.ctx 0).st == 3 && !s.freezeHolds 0 && (s.haltAll 0).queuesQuiet 0 &&
        ((s.haltAll 0).residentTasks 0).all (s.haltAll 0).canLeave,
      let s := busyWith (.preempt 0) drained
      s.mgmt.boot == 3 && (s.ctx 0).st == 3 && !s.freezeHolds 0 &&
        ((s.haltAll 0).residentTasks 0).any fun t => !(s.haltAll 0).canLeave t,
      let s := busyWith (.save 0) (onCtx (fun c => { c with image := some (0x100000, 8192) }) emptied)
      s.mgmt.boot == 3 && (s.ctx 0).st == 4 && (s.ctx 0).image.isSome,
      let s := busyWith (.preempt 0) (base.modQueue 3 fun q => { q with retiring := 1 })
      s.mgmt.boot == 3 && (s.ctx 0).st == 3 && !s.freezeHolds 0 && (s.haltAll 0).queuesQuiet 0 == false,
      let s := busyWith (.migrate 0 5) (inState 6 base)
      s.mgmt.boot == 3 && (s.ctx 0).st == 6,
      ((inState 9 base).ctx 0).st == 9,
      let x := (Invalidation.parse 0 none true).1
      let y : Invalidation := { x with begun := true }
      let s := busyWith .tlbinv { base with invq := [y], frozen := true }
      y.begun && y.from_.isNone && !(s.began y).usesCovered y && (s.began y).recordRoom y.ctx,
      let x := (Invalidation.parse 0 none true).1
      let s := busyWith .tlbinv { base with invq := [x] }
      s.frozen == false && s.mgmt.boot == 3 && x.from_.isNone && !(s.began x).usesCovered x && (s.began x).recordRoom x.ctx,
      let s := busyWith (.checkpoint 0 0 0 false 0x30000 1) base
      s.mgmt.boot == 3] = true := by decide +kernel

/-! ## Witnesses: boot and attestation -/

/-- A management state of the reset device. -/
def managed (f : Mgmt → Mgmt) : State := { State.reset with mgmt := f State.reset.mgmt }

theorem witness_boot :
    every [
      State.reset.mgmt.boot == 0, base.mgmt.boot == 3,
      (managed fun m => { m with boot := 3, hot := 100 }).mgmt.hot == 100,
      let s := managed fun m => { m with boot := 2 }
      s.mgmt.boot == 2 && imageError s.mgmt.image != 0,
      decide (base.mgmt.pwrCap < 3001), decide (0 + 50 ≤ base.mgmt.pwrCap),
      let s := managed fun m => { m with boot := 3, clkLvl := 3 }
      decide (s.mgmt.clkLvl < s.mgmt.clkMax),
      base.measurement 9 == none, (asymP521 &&& asymP521) != 0, (hashSha512 &&& hashSha512) != 0, (0 &&& asymP521) == 0] = true := by
  decide +kernel

/-- The first image header that passes the fields of R393: version 1, one security version more than the least, 16 bytes long. -/
def header : Memory := Memory.setBytes [] 0 ([0x49, 0x4B, 0x47, 0x39] ++ toBytes 4 1 ++ toBytes 4 (2 ^ 32 - 1) ++ toBytes 4 16)

/-- An image that the fuses and the signature accept verifies: their values are the device's own, which nothing here fixes. -/
theorem witness_image_verifies (h : Config.sha512 (header.bytes 16 133) = Config.fusedKeyDigest)
    (v : Config.ecdsaVerify (header.bytes 16 133) (header.bytes 256 132) (Config.sha512 (header.bytes 0 256 ++ imageBody header)) = true) :
    imageError header = 0 := by
  have m : header.bytes 0 4 = [0x49, 0x4B, 0x47, 0x39] ∧ header.getN 4 4 = 1 ∧ header.getN 8 4 = 2 ^ 32 - 1 ∧ header.getN 12 4 = 16 := by
    decide +kernel
  have z : (header.bytes 149 107).all (fun b => b == 0) = true ∧ (header.bytes 388 124).all (fun b => b == 0) = true := by decide +kernel
  have f : ¬ 2 ^ 32 - 1 < Config.fusedSvn.toNat := by have := Config.fusedSvn.isLt; omega
  obtain ⟨m₀, m₁, m₂, m₃⟩ := m
  unfold imageError
  simp only [m₀, m₁, m₂, m₃, z.1, z.2, h, v, f]
  simp

/-- The measurements that need no running device. -/
theorem witness_measurement : (base.measurement 1).isSome = true := rfl

/-! ## Witnesses: what stays as it was -/

theorem witness_computing_frame :
    every [
      let w := kw 3 0 0 6 4 8
      issuesK encOfIadd w .straight base fun v =>
        (raisedFlags (v.c.units.map fun u => (u, intGives (fun _ a b _ => a + b) v.c (v.seenK w) v.w u)) &&& v.c.fpte) == 0,
      next (exec (.iadd (kw 3 0 0 6 4 8)) base) fun _ => true, (encodeWord (.iadd (kw 3 0 0 6 4 8))).isSome] = true := by decide +kernel

/-- No core of the base state traces, and no debug register of core 0 is enabled. -/
theorem witness_no_debug :
    (∀ core, (base.core core).dbg.traceOn = false) ∧ ∀ pc b xs, debugCause (base.core 0) 0 0 pc b xs = none := by
  constructor
  · intro core
    have all : (vlist base.cores).all (fun c => !c.dbg.traceOn) = true := by decide +kernel
    unfold State.core vget
    rw [List.getD_eq_getElem?_getD]
    cases h : base.cores.toArray.toList[core]? with
    | none => rfl
    | some c => simpa using List.all_eq_true.mp all c (List.mem_of_getElem? h)
  · intro pc b xs
    have off : (List.range 8).all (fun n => !(vget (base.core 0).dbg.hbp n 0).getLsbD 63) = true ∧
        (List.range 4).all (fun n => !(vget (base.core 0).dbg.wpa n 0).getLsbD 63) = true ∧ (base.core 0).dbg.step0 = 0 := by
      decide +kernel
    obtain ⟨h, w, z⟩ := off
    have bp : ((List.range 8).any fun n => let h := vget (base.core 0).dbg.hbp n 0
        h.getLsbD 63 && (h.extractLsb' 56 6).toNat == 0 && h.extractLsb' 0 56 == pc.extractLsb' 0 56) = false := by
      rw [List.any_eq_false]
      intro n m
      have := List.all_eq_true.mp h n m
      simp_all
    have wh : watchHit (base.core 0) 0 xs = none := by
      unfold watchHit
      have : ((List.range 4).flatMap fun n =>
          if (vget (base.core 0).dbg.wpa n 0).getLsbD 63 && ((vget (base.core 0).dbg.wpa n 0).extractLsb' 56 6).toNat == 0 then
            xs.filterMap fun x =>
              let first := max ((vget (base.core 0).dbg.wpa n 0).extractLsb' 0 56).toNat x.2.2.1
              if (if x.2.1 then ((vget (base.core 0).dbg.wpl n 0).extractLsb' 32 2).toNat.testBit 1
                    else ((vget (base.core 0).dbg.wpl n 0).extractLsb' 32 2).toNat.testBit 0)
                  && decide (first < ((vget (base.core 0).dbg.wpa n 0).extractLsb' 0 56).toNat
                    + ((vget (base.core 0).dbg.wpl n 0).extractLsb' 0 32).toNat) && decide (first < x.2.2.1 + x.2.2.2)
              then some (first, x.1) else none
          else []) = [] := by
        rw [List.flatMap_eq_nil_iff]
        intro n m
        have := List.all_eq_true.mp w n m
        simp_all
      simp only [this]
    unfold debugCause
    simp only [bp, wh, z]
    simp
theorem witness_faults :
    every [
      match base.task? ref.task with
      | some t => t.warps[ref.warp]?.isSome && decide (t.ctx < 64) && !Cause.trapSoftware.isDebug
      | none => false] = true := by decide +kernel

/-! ## Witnesses: a step -/

theorem witness_steps :
    every [
      let s := State.reset.withFetchWord 96 0
      match s.warpAt 0 0 with
      | none => false
      | some r =>
        match s.task? r.task, s.warp? r.task r.warp with
        | some t, some w =>
          s.agenda == [.issue 0 0] && w.st == .running && s.canIssue t 0 r.warp w && !(s.ctx t.ctx).moving && w.pendingCause.isNone &&
            w.unentered.isEmpty && match w.lowestPc with
              | some pc => match (({ s with agenda := [] } : State).nextWord t 0 w pc).1 with
                | .word x => x == 0
                | _ => false
              | none => false
        | _, _ => false,
      let s := { base with agenda := [.event .powerGood] }
      s.agenda == [.event .powerGood],
      [cmd 0x0A [], cmd 0x7F []].all fun c => (commanded c base).ringCommand == some c,
      (Decode.command (cmd 0x0A [])).isSome && (Decode.command (cmd 0x7F [])).isNone && (commanded (cmd 0x7F []) base).mgmt.boot == 3,
      next (step { base with agenda := [.event .powerGood] }) fun _ => true] = true := by decide +kernel

/-! ## Words that the spec prints, with their fields -/

/-- Every word decodes to the instruction beside it. -/
def decodes (xs : List (Nat × Instr)) : Bool := xs.all fun x => decide (decodeTableWord 96 x.1 = some x.2)

/-- A word issued for its warp, with another predicate, or with a latch. -/
def onceE (w : EWord) : EWord := { w with h := { w.h with u := true } }
def underK (w : KWord) (pr : BitVec 4) (lt : BitVec 2) (ws : Bool) : KWord := { w with h := { w.h with pr := pr, lt := lt, ws := ws } }

/-- The words of 02_lines, 03_opcode_map. -/
theorem test_decode_formats :
    decodes [
      (0x0000_0000_0003_2323_2321_C001, .nop (kw 0)),
      (0x0000_0010_000F_2340_0414_9040, .iadd (underK (kw 3 0 16 5 1 0xD0) 2 1 false)),
      (0x0000_0000_000F_201F_0721_E840, .iadd (underK (kw 3 0 0 0xC8 0xC1 7) 7 2 true)),
      (0x0000_0010_0027_2012_0825_C180, .ld (mw 2 9 0x82 4 0xC8 1 0 0 16)),
      (0x0000_0000_0043_2010_0C09_C0C0, .fadd (kw 0x10 0 0 2 3 4))] = true := by decide +kernel

/-- The words of 05_thread, 14_prog_loop. -/
theorem test_decode_thread :
    decodes [
      (0x0000_0040_001F_2323_2321_C002, .rgn (ew 0 0x40)),
      (0x0000_0012_0003_2323_2029_C006, .call (jw 0x12 10)),
      (0x0000_0000_0003_2320_2B21_C008, .ret (kw 0 0 0 0xC8 10)),
      (0xFFFF_FFFD_0003_2320_1C1D_C009, .loop (jw 0xFFFF_FFFD 7 7)),
      (0x0000_0005_001F_2306_0C11_C00A, .mcall (ew 0 5 4 0x83 0xC1)),
      (0x0072_13C0_0003_2323_2321_C140, .plop (kw 0 0 0x7213C0)),
      (0x0000_0039_0003_2323_2321_C00B, .ipf (jw 0x39))] = true := by decide +kernel

/-- The words of 06_arith, 14_prog_loop, 17_prog_sump. -/
theorem test_decode_integer :
    decodes [
      (0xFFFF_FFFB_000C_8F40_1321_C049, .icmp (kw 3 0 0xFFFFFFFB 0xC8 4 0xD0 0x23)),
      (0x0021_0080_0023_2323_2221_C44C, .movi (KWord.once (kw 8 0 0x210080 0x88))),
      (0x0010_4020_8023_2322_2E2D_C44C, .movi (KWord.once (kw 8 0x20 0x104020 0x8B 0x8B))),
      (0x0000_0000_001F_2323_2421_C04B, .mov (kw 7 0 0 8 0xC9)),
      (0x0000_0300_801F_2092_00A1_C04D, .lea (kw 7 0x20 0x300 0x28 0x80 0x24)),
      (0x0000_0001_001F_2340_3031_C087, .rot (kw 7 0 1 12 12 0xD0))] = true := by decide +kernel

/-- The words of 06_arith. -/
theorem test_decode_float :
    decodes [
      (0x0000_0000_0443_000C_0821_E0C3, .ffma (underK (kw 0x10 1 0 8 2 3 0xC0) 7 2 false)),
      (0x0000_0000_4443_000C_0821_E0C3, .ffma (underK (kw 0x10 0x11 0 8 2 3 0xC0) 7 2 false)),
      (0x0000_0010_0847_2320_0C25_C100, .cvt (kw 0x11 2 0x10 9 3)),
      (0x0000_0020_0097_2320_1029_C103, .qnt (kw 0x25 0 0x20 10 4))] = true := by decide +kernel

/-- The words of 07_stalagmite, 10_barrier, 11_group, 19_prog_grace. -/
theorem test_decode_synchronization :
    decodes [
      (0x0000_0001_003F_2322_1219_C600, .sgadd (onceE (ew 1 1 0x86 0x84))),
      (0x0000_0008_221F_201A_1321_C201, .sgwait (ew 0 8 0xC8 0x84 6 0xC8 0x22)),
      (0x0000_0000_001F_224E_3E49_C60A, .rgawait (onceE (ew 0 0 0x92 0x8F 0x93))),
      (0x0000_0000_0007_2322_2029_C212, .barrive (ew 0 0 10 0x88 (pi := 1))),
      (0x0000_0000_021C_302A_2321_C213, .bwait (ew 0 0 0xC8 0x88 10 12 2)),
      (0x0000_0060_025F_2323_2229_C619, .gbar (onceE (ew 2 0x60 0x8A (sel := 2)))),
      (0x0000_FFFF_001F_2323_4321_C21A, .wsync (ew 0 0xFFFF 0xC8 0xD0))] = true := by decide +kernel

/-- The words of 08_queue, 09_kernel. -/
theorem test_decode_kernels :
    decodes [
      (0x0000_0003_0006_322A_2251_C740, .launch (onceE (ew 0 3 0x94 0x88 0x8A 0x8C (pi := 1)))),
      (0x0000_0000_000B_2030_2051_C341, .spawn (ew 0 0 0x14 8 12 (pi := 2))),
      (0x0000_0000_001F_2323_2321_C342, .trig (ew)),
      (0x0000_0000_005F_2323_2019_C343, .taskq (ew 2 0 6))] = true := by decide +kernel

/-- The words of 13_memory, 15_ordering, 24_prog_matvec. -/
theorem test_decode_memory :
    decodes [
      (0x0000_0008_0030_2B20_1321_C181, .st (mw 3 0xC8 4 0xC8 10 (off := 8))),
      (0x0000_0264_0C00_4722_5B20_4181,
        .st { mw 0 0xC8 0x96 0xC8 0x11 0 0 3 0x264 with h := { plainHead with a := 0x96, c := 0x11, pr := 1 } }),
      (0x0000_0000_0020_2420_1321_C182, .stbm (mw 2 0xC8 4 8 9)),
      (0x0000_0000_0330_3832_1029_C1C3, .amocas (mw 3 10 0x84 12 14 0 3)),
      (0x0000_0000_005F_2323_2321_C1C0, .fence (ew 2)),
      (0x0000_0000_221F_2323_2321_C1C1, .xfence (ew (sel := 0x22)))] = true := by decide +kernel

/-- The words of 16_sump, 18_grace, 19_prog_grace. -/
theorem test_decode_sump_and_grace :
    decodes [
      (0x0000_0000_001F_2322_2321_C640, .sloop (onceE (ew 0 0 0xC8 0x88))),
      (0x0000_0040_001F_2320_5321_C241, .yield (ew 0 0x40 0xC8 0x14)),
      (0x0000_0000_001F_2323_2321_C242, .pdone (ew)), (0x0000_0000_001F_2323_2321_C243, .cend (ew)),
      (0x0000_0020_001F_2323_2321_C248, .rsb (ew 0 0x20)), (0x0000_0040_001F_2323_2321_C249, .rse (ew 0 0x40)),
      (0x0000_0000_003F_2323_2231_C64A, .gpnum (onceE (ew 1 0 0x8C))),
      (0x0000_0000_041F_2233_2321_C24B, .gpwait (ew 0 0 0xC8 0xC8 0x8C 0xC8 4)),
      (0x0000_0000_0027_223E_3639_C64C, .dfree (onceE (ew 1 0 0x8E 0x8D 0x8F (pi := 1))))] = true := by decide +kernel

/-- The words of 20_matrix: the three operand sources of MMA are three instructions (R287). -/
theorem test_decode_matrix :
    decodes [
      (0x0000_0003_0007_2323_2321_C680, .wload (tw (plane := 1) (osrq := 3))),
      (0x0000_0000_0007_2323_2321_C681, .wfree (tw (plane := 1))),
      (0x0000_0000_0437_200C_8321_C282, .mmaRegisters (tw 0xC8 0x20 3 0xC8 1 3 1 (u := false))),
      (0x0003_1000_0044_3C0F_2321_C682, .mmaTile (tw 0xC8 0xC8 3 15 1 4 (asrc := 1) (atile := 3))),
      (0x0000_2002_1053_2323_2321_C682, .mmaShapeRecord (tw (tile := 5) (md := 4) (asrc := 2) (osrq := 2))),
      (0x0000_0000_2050_BC83_2021_C283, .accrd (tw 8 0xC8 0x20 0x2F 0 5 8 (u := false))),
      (0x0000_0000_0073_2323_2321_C685, .accz (tw (tile := 7))),
      (0x0000_0120_2033_225A_5321_C686, .drain (tw 0xC8 0x94 0x96 0xC8 0 3 8 0 2 1))] = true := by decide +kernel

/-- The words of 23_codec. -/
theorem test_decode_codec :
    decodes [
      (0x0000_0020_0003_2322_5321_C6C0, .tdld (tw 0xC8 0x94 (td := 2))),
      (0x0000_0003_0000_0003_20A1_C2C1, .tld (tw 0x28 0xC8 0 0 (osrq := 3) (u := false))),
      (0x0000_0003_2000_0000_2321_C2C2, .tst (tw 0xC8 8 0 0 (osrq := 3) (md := 8) (u := false))),
      (0x0000_0100_0003_2322_5B21_C6C3, .ctld (tw 0xC8 0x96 (ct := 1))),
      (0x0000_0100_0003_2323_2321_C6C4, .ctinv (tw (ct := 1))),
      (0x0000_0020_0003_2322_5261_C6C5, .bixrd (tw 0x98 0x94 (td := 2))),
      (0x0000_0003_001F_2322_2A19_C6C7, .poolq (onceE (ew 0 3 0x86 0x8A))),
      (0x0000_0122_0006_3322_2279_C6C6, .xform (onceE (ew 0 0x122 0x9E 0x88 0xC8 0x8C (pi := 1))))] = true := by decide +kernel

/-- The words of 22_copy, 24_prog_matvec. -/
theorem test_decode_engines :
    decodes [
      (0x0000_0004_0004_2018_1051_C300, .cpy (ew 0 4 0x14 4 6 8 (pi := 1))),
      (0x0000_0010_0006_522A_0321_C700, .cpy (onceE (ew 0 0x10 0xC8 0x80 0x8A 0x94 (pi := 1)))),
      (0x0000_0103_001F_2323_2321_C704, .gset (onceE (ew 0 0x103))),
      (0x0000_0003_001F_2323_2321_C705, .gclr (onceE (ew 0 3))),
      (0x0000_0002_001F_2323_2219_C703, .stadv (onceE (ew 0 2 0x86)))] = true := by decide +kernel

/-- The words of 25_context, 28_link, 29_debug. -/
theorem test_decode_system :
    decodes [
      (0x0000_0000_001F_2323_2211_C780, .feat (onceE (ew 0 0 0x84))),
      (0x0000_0002_001F_2323_2019_C381, .implq (ew 0 2 6)),
      (0x0003_0011_001F_2323_2011_C382, .srrd (ew 0 0x30011 4)),
      (0x0000_0003_001F_2320_1B21_C383, .srwr (ew 0 3 0xC8 6)),
      (0x0000_0000_003F_2323_2219_C784, .clk (onceE (ew 1 0 0x86))),
      (0x0000_0000_0007_2320_1321_C385, .resume (ew 0 0 0xC8 4 (pi := 1))),
      (0x0000_0000_0007_2320_1321_C386, .kill (ew 0 0 0xC8 4 (pi := 1))),
      (0x0000_0007_001F_2320_1B21_C387, .trcmk (ew 0 7 0xC8 6)),
      (0x0000_0002_003F_2323_2219_C788, .perfrd (onceE (ew 1 2 0x86))),
      (0x0000_0011_003F_2323_2011_C389, .lnkq (ew 1 0x11 4))] = true := by decide +kernel

/-- R23: the first byte of a word is its lowest. -/
theorem test_decode_bytes :
    (decode [0x01, 0xC0, 0x21, 0x23, 0x23, 0x23, 0x03, 0, 0, 0, 0, 0]).toOption = some (.nop (kw 0)) := by decide +kernel

/-- R40, R390: command records are found by their first byte, and a code that R390 does not list has no command. -/
theorem test_decode_commands :
    ((Decode.command (cmd 0x0A [(8, 7)])).any fun i => decide (i = .teardown (cmd 0x0A [(8, 7)]))) = true ∧
    Decode.command (cmd 0x0B []) = none ∧ Decode.command (cmd 0 []) = none := by decide +kernel

/-! ## Well-formedness -/

/-- R40, R15, R184, R365, R390: a term for each check that the check refuses. -/
theorem test_ill_formed :
    [Instr.unassignedOpcode 0x2321C001, .create (cmd 0x02 []), .corePlacement 192, .portRetrain 18, .gracePeriodStart 64,
      .stalagmiteAddApply (2 ^ 52) 1, .controlFlit 0 1 3 0, .stallSwitch { core := 0, warp := 128 }, .stallSwitch { core := 192, warp := 0 },
      .registerWrite (.system 64 0x18 0) 0, .registerWrite (.debug 192 0) 0, .mmaRegisters mmaTiles, .mmaTile mmaReg,
      .mmaShapeRecord mmaReg, .xformCommandStart 48, .reductionResult 0 3 0 0, .ownershipRecall 0 (2 ^ 52), .cxlMemAccess true 0 9 0,
      .flitReceive 0 { cls := 3, seq := 0, msg := none } true].all (fun i => !i.wf) = true := by decide +kernel

/-! ## Worked examples of the spec -/

/-- The first thread's g6 after a word. -/
def answer (i : Instr) (s : State) : Nat := g (after i s) 6

/-- R105: byte permutation, with the sign option. -/
theorem test_perm :
    answer (.perm (kw 7 0 0 6 4 8 10)) (greg 4 0x44332211 (greg 8 0x88776655 (greg 10 0xF074 base))) = 0xFF118855 ∧
    answer (.perm (kw 7 0 0 6 4 8 10)) (greg 4 0x44332211 (greg 8 0x88776655 (greg 10 0xC074 base))) = 0x00118855 := by decide +kernel

/-- R102: −3 < −5 is false. -/
theorem test_icmp_signed :
    p (after (.icmp (kw 3 0 0xFFFFFFFB 0xC8 4 0xD0 0x23)) (greg 4 0xFFFFFFFD base)) 3 = false ∧
    p (after (.icmp (kw 3 0 0xFFFFFFFC 0xC8 4 0xD0 0x23)) (greg 4 0xFFFFFFFB base)) 3 = true := by decide +kernel

/-- R101: IABS of the most negative value, without and with saturation. -/
theorem test_iabs_extreme :
    answer (.iabs (kw 3 0 0 6 4)) (greg 4 0x80000000 base) = 0x80000000 ∧
    answer (.iabs (kw 3 8 0 6 4)) (greg 4 0x80000000 base) = 0x7FFFFFFF := by decide +kernel

/-- R108: 3.0 × 1/3 − 1.0 is exact; negated, it rounds toward zero to −2.0. -/
def third : State := greg 4 0x40400000 (greg 8 0x3EAAAAAB (greg 10 0xBF800000 base))
theorem test_ffma_exact :
    answer (.ffma (kw 0x10 1 0 6 4 8 10)) third = 0x33000000 ∧ answer (.ffma (kw 0x10 0x11 0 6 4 8 10)) third = 0xC0000000 := by
  decide +kernel

/-- R114: 1 + 2^−11 between two FP16 values, upward and to even. -/
theorem test_cvt_modes :
    answer (.cvt (kw 0x11 2 0x10 6 4)) (greg 4 0x3F801000 base) = 0x3C01 ∧
    answer (.cvt (kw 0x11 0 0x10 6 4)) (greg 4 0x3F801000 base) = 0x3C00 := by decide +kernel

/-- R111: special inputs. -/
theorem test_frcp_specials :
    answer (.frcp (kw 0x10 0 0 6 4)) (greg 4 0x80000000 base) = 0xFF800000 ∧
    answer (.frcp (kw 0x10 0 0 6 4)) (greg 4 0xFF800000 base) = 0x80000000 := by decide +kernel

/-- R117: the example of QNT: 3.0 and −0.75 in thread 0. -/
theorem test_quantise_example :
    quantiseBlock ([0x40400000, 0xBF400000] ++ List.replicate 30 0) Fmt.e2m1 false false .rne (List.replicate 32 0) =
      ([7, 0xB] ++ List.replicate 30 0, 0x4502007E, 0) := by decide +kernel

/-- R58: the scale word of scale 1. -/
theorem test_scale_word : mkScale 127 0 false true false = 0x2E02007F := by decide +kernel

/-- R61: coarse and fine modes of an E4M3 block with 1000 and 0.01. -/
def thousand (fine : Bool) : List Nat × W32 × W32 :=
  quantiseBlock ([0x447A0000, 0x3C23D70A] ++ List.replicate 30 0) Fmt.e4m3 fine false .rne (List.replicate 32 0)
theorem test_quantise_modes :
    (thousand false).1.take 2 = [0x7E, 0x03] ∧ (thousand true).1.take 2 = [0x7E, 0x02] ∧
    (thousand false).2.1.toNat % 2 ^ 16 = 0x0080 ∧ (thousand true).2.1.toNat % 2 ^ 16 = 0x1E80 := by decide +kernel

/-- R62: the Hadamard example. -/
theorem test_hadamard :
    hadamard ([0x40400000, 0x3F800000] ++ List.replicate 14 0) = (List.range 16).map fun i => if i % 2 = 0 then 0x40800000 else 0x40000000 := by
  decide +kernel

/-- R15: core 174 lies in cluster 43. -/
theorem test_cluster : clusterOf 174 = 43 := by decide +kernel

/-- R188, R191: the walk of the example, from PTROOT0 0x8_0000_0000. -/
def walked : State :=
  mem 0x800000018 (toBytes 8 0x800010003) (mem 0x800010828 (toBytes 8 0x800020003) (mem 0x800020518 (toBytes 8 0x314A5B104D)
    (onCtx (fun c => { c with ptroot0 := 0x800000000 }) base)))
theorem test_walk :
    ((walked.walk0 0 0xC20A0A31234).toOption.map fun x => (x.pa, x.epa)) = some (0x314A5B1234, 0x800020518) := by decide +kernel

end Sys2Proof.Tests
end

/-!
PROOFS. What fault taking and RESUME do to the warp (R79, R353), and O19 (R92).
-/

namespace Sys2Proof.Machine

open Sys2Proof

/-! ## Sets of threads as masks -/

theorem mem_allTids (i : Tid) : i ∈ allTids := by
  revert i; decide

theorem nodup_allTids : allTids.Nodup := by decide

theorem mem_tidsOf {m : BitVec 16} {i : Tid} : i ∈ tidsOf m ↔ m.getLsbD i.val = true := by
  simp [tidsOf, mem_allTids]

theorem nodup_tidsOf (m : BitVec 16) : (tidsOf m).Nodup := nodup_allTids.filter _

/-- One thread joined to a mask. -/
theorem getLsbD_or_thread (m : BitVec 16) (i t : Tid) :
    (m ||| 1#16 <<< t.val).getLsbD i.val = true ↔ m.getLsbD i.val = true ∨ i = t := by
  have hit : (1#16 <<< t.val).getLsbD i.val = true ↔ i = t := by
    revert i t; decide
  rw [BitVec.getLsbD_or, Bool.or_eq_true, hit]

/-- The mask of a set of threads names exactly its members. -/
theorem getLsbD_maskOf {ts : List Tid} {i : Tid} : (maskOf ts).getLsbD i.val = true ↔ i ∈ ts := by
  suffices ∀ m : BitVec 16, (ts.foldl (fun m t => m ||| 1#16 <<< t.val) m).getLsbD i.val = true ↔ m.getLsbD i.val = true ∨ i ∈ ts by
    simpa [maskOf] using this 0
  induction ts with
  | nil => simp
  | cons t ts ih =>
    intro m
    rw [List.foldl_cons, ih, getLsbD_or_thread, List.mem_cons, or_assoc]

/-! ## Repeated changes -/

/-- What every change of a list leaves as it was, all of them together leave. -/
theorem foldl_keeps {α β γ : Type} (g : β → γ) {f : β → α → β} (h : ∀ b a, g (f b a) = g b) (b : β) (l : List α) :
    g (l.foldl f b) = g b :=
  List.foldlRecOn l f (motive := fun x => g x = g b) rfl fun x e a _ => (h x a).trans e

/-! ## The threads of a changed warp -/

/-- A change of one thread is a change of that thread alone. -/
theorem Warp.thread_modThread (w : Warp) (t i : Tid) (f : Thread → Thread) :
    (w.modThread t f).thread i = if t = i then f (w.thread i) else w.thread i := by
  by_cases h : t = i
  · subst h
    simp [Warp.thread, Warp.modThread, vmod]
  · have hv : t.val ≠ i.val := fun e => h (Fin.ext e)
    simp [Warp.thread, Warp.modThread, vmod, h, hv]

@[simp] theorem Warp.modThreads_mac (w : Warp) (ts : List Tid) (f : Thread → Thread) : (w.modThreads ts f).mac = w.mac :=
  foldl_keeps Warp.mac (f := fun w t => w.modThread t f) (fun _ _ => rfl) w ts

@[simp] theorem Warp.modThreads_susp (w : Warp) (ts : List Tid) (f : Thread → Thread) : (w.modThreads ts f).susp = w.susp :=
  foldl_keeps Warp.susp (f := fun w t => w.modThread t f) (fun _ _ => rfl) w ts

/-- A change of threads that are named once changes each of them once, and no other. -/
theorem Warp.thread_modThreads (w : Warp) {ts : List Tid} (f : Thread → Thread) (i : Tid) (h : ts.Nodup) :
    (w.modThreads ts f).thread i = if i ∈ ts then f (w.thread i) else w.thread i := by
  induction ts generalizing w with
  | nil => rfl
  | cons t ts ih =>
    obtain ⟨ht, hts⟩ := List.nodup_cons.mp h
    show ((w.modThread t f).modThreads ts f).thread i = _
    rw [ih _ hts, Warp.thread_modThread]
    by_cases e : t = i
    · subst e; simp [ht]
    · simp [e, Ne.symm e]

/-- A change that leaves every PC leaves the PCs of the warp. -/
theorem Warp.modThreads_pc (w : Warp) (ts : List Tid) {f : Thread → Thread} (hf : ∀ th, (f th).pc = th.pc) (i : Tid) :
    ((w.modThreads ts f).thread i).pc = (w.thread i).pc :=
  foldl_keeps (fun z => (z.thread i).pc) (fun z t => by
    rw [Warp.thread_modThread]
    split
    · exact hf _
    · rfl) w ts

/-! ## Where a warp stands -/

/-- A warp stands where another does: at the same PCs, at the same slot of an MCALL and with the same suspension. -/
structure Warp.StandsAs (z w : Warp) : Prop where
  mac : z.mac = w.mac
  susp : z.susp = w.susp
  pc : ∀ i, (z.thread i).pc = (w.thread i).pc

theorem Warp.StandsAs.refl (w : Warp) : w.StandsAs w := ⟨rfl, rfl, fun _ => rfl⟩

/-- Where a warp stands rests on its threads, its MCALL slot and its suspension alone. -/
theorem Warp.StandsAs.of_fields {z w : Warp} (ht : z.threads = w.threads) (hm : z.mac = w.mac) (hs : z.susp = w.susp) :
    z.StandsAs w :=
  ⟨hm, hs, fun i => by simp only [Warp.thread, ht]⟩

theorem Warp.StandsAs.trans {x y z : Warp} (h : z.StandsAs y) (k : y.StandsAs x) : z.StandsAs x :=
  ⟨h.mac.trans k.mac, h.susp.trans k.susp, fun i => (h.pc i).trans (k.pc i)⟩

/-- A warp stands where it stood whatever its scheduling state becomes. -/
theorem Warp.StandsAs.with_st {z w : Warp} (h : z.StandsAs w) (st : WarpState) : ({ z with st := st } : Warp).StandsAs w :=
  .trans (y := z) (.of_fields rfl rfl rfl) h

theorem Warp.loseLatches_standsAs (w : Warp) : w.loseLatches.StandsAs w :=
  ⟨Warp.modThreads_mac _ _ _, Warp.modThreads_susp _ _ _, Warp.modThreads_pc _ _ fun _ => rfl⟩

/-! ## The warps of a changed state -/

theorem State.task?_modTask (s : State) (id : Nat) {f : Task → Task} (hf : ∀ t, (f t).id = t.id) (task : Nat) :
    (s.modTask id f).task? task = (s.task? task).map fun t => if t.id = id then f t else t := by
  have hid : ((fun t : Task => t.id == task) ∘ fun t => if t.id = id then f t else t) = fun t => t.id == task := by
    funext t
    by_cases e : t.id = id <;> simp [e, hf]
  simp only [State.task?, State.modTask, List.find?_map, hid]

theorem State.id_of_task? {s : State} {task : Nat} {t : Task} (h : s.task? task = some t) : t.id = task := by
  simpa using List.find?_some h

/-- A change of one warp is a change of that warp alone. -/
theorem State.warp?_modWarp (s : State) (a b : Nat) (f : Warp → Warp) (task warp : Nat) :
    (s.modWarp a b f).warp? task warp = (s.warp? task warp).map fun w => if a = task ∧ b = warp then f w else w := by
  simp only [State.warp?, State.modWarp]
  rw [State.task?_modTask s a (f := fun t => { t with warps := t.warps.modify b f }) fun _ => rfl]
  cases ht : s.task? task with
  | none => rfl
  | some t =>
    obtain rfl := State.id_of_task? ht
    by_cases ha : a = t.id
    · simp [ha, List.getElem?_modify]
    · simp [ha, Ne.symm ha]

/-! ## Changes after which every warp stands where it stood -/

/-- A change of state after which every warp stands where it stood. -/
structure State.KeepsStanding (s s' : State) : Prop where
  warp : ∀ {task warp w}, s.warp? task warp = some w → ∃ z, s'.warp? task warp = some z ∧ z.StandsAs w

theorem State.KeepsStanding.refl (s : State) : s.KeepsStanding s := ⟨fun h => ⟨_, h, .refl _⟩⟩

theorem State.KeepsStanding.trans {s t u : State} (h : s.KeepsStanding t) (k : t.KeepsStanding u) : s.KeepsStanding u := by
  refine ⟨fun hw => ?_⟩
  obtain ⟨y, hy, hyw⟩ := h.warp hw
  obtain ⟨z, hz, hzy⟩ := k.warp hy
  exact ⟨z, hz, hzy.trans hyw⟩

theorem State.KeepsStanding.of_tasks {s s' : State} (h : s'.tasks = s.tasks) : s.KeepsStanding s' :=
  ⟨fun hw => ⟨_, by simpa only [State.warp?, State.task?, h] using hw, .refl _⟩⟩

theorem State.KeepsStanding.foldl {α : Type} {f : State → α → State} (hf : ∀ (s : State) a, s.KeepsStanding (f s a)) (s : State)
    (l : List α) : s.KeepsStanding (l.foldl f s) :=
  List.foldlRecOn l f (motive := s.KeepsStanding) (.refl s) fun s' h a _ => h.trans (hf s' a)

theorem State.modWarp_keepsStanding (s : State) (a b : Nat) {f : Warp → Warp} (hf : ∀ w, (f w).StandsAs w) :
    s.KeepsStanding (s.modWarp a b f) := by
  refine ⟨fun {task warp w} hw => ⟨_, by rw [State.warp?_modWarp, hw]; rfl, ?_⟩⟩
  dsimp only
  split
  · exact hf w
  · exact .refl w

/-- A change of a task that is not to its warps leaves every warp as it was. -/
theorem State.modTask_keepsStanding (s : State) (a : Nat) {f : Task → Task} (hid : ∀ t, (f t).id = t.id)
    (hw : ∀ t, (f t).warps = t.warps) : s.KeepsStanding (s.modTask a f) := by
  refine ⟨fun {task warp w} h => ?_⟩
  have same : (s.modTask a f).warp? task warp = s.warp? task warp := by
    simp only [State.warp?]
    rw [State.task?_modTask s a hid]
    cases s.task? task with
    | none => rfl
    | some t => by_cases e : t.id = a <;> simp [e, hw]
  exact ⟨w, same.trans h, .refl w⟩

/-! ## What the parts of a fault's taking do to the warps (R79, R353) -/

@[simp] theorem State.keepCached_tasks (s : State) (x : Trap) : (s.keepCached x).tasks = s.tasks := by
  unfold State.keepCached
  split <;> rfl

@[simp] theorem State.withdrawRemote_tasks (s : State) (p : Asker → Nat → Bool) : (s.withdrawRemote p).tasks = s.tasks := by
  unfold State.withdrawRemote
  exact foldl_keeps State.tasks (fun s' o => by split <;> rfl) _ _

@[simp] theorem State.endAppends_tasks (s : State) (task warp : Nat) : (s.endAppends task warp).tasks = s.tasks := by
  unfold State.endAppends
  split <;> rfl

@[simp] theorem State.withdrawWaits_tasks (s : State) (task warp : Nat) : (s.withdrawWaits task warp).tasks = s.tasks := by
  simp [State.withdrawWaits]

@[simp] theorem State.queueRecord_tasks (s : State) (ctx : Nat) (r : FaultRec) : (s.queueRecord ctx r).tasks = s.tasks := rfl

@[simp] theorem State.putFrame_tasks (s : State) (core wid tag : Nat) (body : List Byte) :
    (s.putFrame core wid tag body).tasks = s.tasks := by
  simp [State.putFrame]

@[simp] theorem State.frameLater_tasks (s : State) (core task warp tag : Nat) (body : List Byte) :
    (s.frameLater core task warp tag body).tasks = s.tasks := rfl

@[simp] theorem State.traceFrame_tasks (s : State) (task warp tag : Nat) (body : List Byte) :
    (s.traceFrame task warp tag body).tasks = s.tasks := by
  unfold State.traceFrame
  split
  · split
    · rfl
    · split
      · exact State.frameLater_tasks ..
      · rw [State.putFrame_tasks]
        split
        · exact State.putFrame_tasks ..
        · rfl
  · rfl

@[simp] theorem State.traceAll_tasks (s : State) (tag : Nat) : (s.traceAll tag).tasks = s.tasks :=
  foldl_keeps State.tasks (fun s₁ _ => foldl_keeps State.tasks (fun s₂ _ => State.traceFrame_tasks s₂ ..) s₁ _) s _

@[simp] theorem State.freeze_tasks (s : State) : s.freeze.tasks = s.tasks := by
  unfold State.freeze
  split
  · rfl
  · exact State.traceAll_tasks s 7

theorem State.dropTurns_keepsStanding (s : State) (task warp : Nat) : s.KeepsStanding (s.dropTurns task warp) := by
  unfold State.dropTurns
  refine .trans (.of_tasks (State.modCore_tasks s _ _)) (.foldl (fun s o => ?_) _ _)
  split
  · split
    · refine .trans ?_ (.of_tasks (State.modCore_tasks ..))
      exact State.modTask_keepsStanding s task (fun _ => rfl) fun _ => rfl
    · exact .refl s
  · exact .refl s

theorem State.restLane_keepsStanding (s : State) (core lane : Nat) : s.KeepsStanding (s.restLane core lane) := by
  unfold State.restLane
  refine .foldl (fun s p => ?_) s _
  split
  · exact State.modWarp_keepsStanding s _ _ fun w => w.loseLatches_standsAs.with_st .ready
  · exact .refl s

theorem State.select_keepsStanding (s : State) (core lane : Nat) (r : WarpRef) (slot : Nat) :
    s.KeepsStanding (s.select core lane r slot) := by
  unfold State.select
  refine .trans (s.restLane_keepsStanding core lane) (.trans ?_ (.of_tasks (State.modCore_tasks ..)))
  exact State.modWarp_keepsStanding _ r.task r.warp fun _ => .of_fields rfl rfl rfl

/-- A switch point changes which warps run and which latches they hold, not where they stand (R73, R80). -/
theorem State.switchPoint_keepsStanding (s : State) (task warp : Nat) : s.KeepsStanding (s.switchPoint task warp) := by
  unfold State.switchPoint
  split
  · exact .refl s
  split
  · split
    · exact .refl s
    split
    · exact .refl s
    · refine (State.modWarp_keepsStanding s task warp fun w => ?_).trans (State.select_keepsStanding ..)
      split
      · exact w.loseLatches_standsAs.with_st .ready
      · exact .refl w
  · exact .refl s

/-! ## The suspended warp, and RESUME (R353) -/

/-- The suspension that a fault leaves in its warp. -/
def Warp.suspensionOf (w : Warp) (x : Trap) : Suspension :=
  { cause := x.cause, skip := if x.cause.resumesPast then maskOf w.activeSet else 0,
    ran := if x.cause.resumesPast then x.mask else 0, pushed := false, resumed := false }

/-- A warp suspended. -/
def Warp.suspended (w : Warp) (y : Suspension) : Warp :=
  { w with st := .suspended, wait := none, stall := none, susp := some y }

/-- What fault taking does once the warp is suspended leaves every warp where it stands: waits and turns go, the record is queued, the
trace and a freeze write no warp (`u` has their tasks), and another warp may be selected. -/
theorem State.KeepsStanding.of_suspended {s u : State} {task warp : Nat}
    (hu : u.tasks = ((s.withdrawWaits task warp).dropTurns task warp).tasks) : s.KeepsStanding (u.switchPoint task warp) :=
  have waits : s.KeepsStanding (s.withdrawWaits task warp) := .of_tasks (State.withdrawWaits_tasks ..)
  have turns : s.KeepsStanding u := (waits.trans (State.dropTurns_keepsStanding ..)).trans (.of_tasks hu)
  turns.trans (State.switchPoint_keepsStanding ..)

/-- TAKING A FAULT: its warp is suspended where it stands. -/
theorem State.takeFault_standsAs {s : State} {task warp : Nat} {t : Task} {w : Warp} (pc : W64) (x : Trap)
    (ht : s.task? task = some t) (hw : t.warps[warp]? = some w) :
    ∃ z, (s.takeFault task warp pc x).warp? task warp = some z ∧ z.StandsAs (w.suspended (w.suspensionOf x)) := by
  have ht' : (s.keepCached x).task? task = some t := by simpa only [State.task?, State.keepCached_tasks] using ht
  have kept : (s.keepCached x).warp? task warp = some w := by simp [State.warp?, ht', hw]
  have suspended : ((s.keepCached x).modWarp task warp fun y => y.suspended (w.suspensionOf x)).warp? task warp =
      some (w.suspended (w.suspensionOf x)) := by
    simp [State.warp?_modWarp, kept]
  unfold State.takeFault
  simp only [ht', hw]
  refine (State.KeepsStanding.of_suspended ?_).warp suspended
  split <;> simp only [State.freeze_tasks, State.traceFrame_tasks, State.queueRecord_tasks] <;> rfl

theorem Warp.countRegion_mac (w before : Warp) (ts : List Tid) : (w.countRegion before ts).mac = w.mac :=
  foldl_keeps Warp.mac (fun _ _ => by split <;> rfl) w ts

theorem Warp.countRegion_pc (w before : Warp) (ts : List Tid) (i : Tid) :
    ((w.countRegion before ts).thread i).pc = (w.thread i).pc :=
  foldl_keeps (fun z => (z.thread i).pc) (fun z t => by
    split
    · rw [Warp.thread_modThread]
      split <;> rfl
    · rfl) w ts

/-- RESUME outside the body of an MCALL takes exactly the threads of the suspension's mask to next(PC). -/
theorem Warp.continue_pc {w : Warp} {x : Suspension} (hm : w.mac = none) (hx : w.susp = some x) (i : Tid) :
    (w.continue.thread i).pc = if x.skip.getLsbD i.val then nextPc (w.thread i).pc else (w.thread i).pc := by
  have counted : ((w.countRegion w (tidsOf x.ran)).thread i).pc = (w.thread i).pc := w.countRegion_pc w _ i
  have mac : (w.countRegion w (tidsOf x.ran)).mac = none := (w.countRegion_mac w _).trans hm
  unfold Warp.continue
  simp only [hx]
  by_cases h : x.skip = 0
  · have none_skipped : x.skip.getLsbD i.val = false := by simp [h]
    rw [if_pos h, none_skipped, if_neg Bool.false_ne_true]
    exact counted
  · rw [if_neg h, mac, Option.isSome_none, if_neg Bool.false_ne_true, Warp.thread_modThreads _ _ i (nodup_tidsOf _), ← counted]
    simp only [mem_tidsOf]
    split <;> rfl

/-- RESUME after a fault outside the body of an MCALL: past the instruction for the active set at the fault where the cause is of class N,
and else where the warp stands (R353). -/
theorem Warp.StandsAs.continue_pc {z w : Warp} {x : Trap} (h : z.StandsAs (w.suspended (w.suspensionOf x)))
    (hm : w.mac = none) (i : Tid) :
    (z.continue.thread i).pc =
      if x.cause.resumesPast = true ∧ i ∈ w.activeSet then nextPc (w.thread i).pc else (w.thread i).pc := by
  have pc : (z.thread i).pc = (w.thread i).pc := h.pc i
  rw [Warp.continue_pc (h.mac.trans hm) h.susp, pc]
  cases e : x.cause.resumesPast <;> simp [-BitVec.getLsbD_eq_getElem, Warp.suspensionOf, e, getLsbD_maskOf]

/-! ## Faults of a word that has taken effect (R380) -/

/-- A word that raises its fault once it has taken effect: the warp has passed it. -/
theorem Issues.trapsAfter {x : Head → Enc} {h : Head} {imm : W32} {flow : Flow} {body : Ctx → Head → Op Unit} {s t : State} {v : View}
    {y : Trap} (i : Issues x h imm flow s v) (b : body v.c v.h s = .error (.after t y)) :
    issue x h imm flow body s = .next (s.guarded
      ((v.onWarp (settle v.c flow v.w t) fun w => { w with touched := [] }).takeFault v.c.task v.c.warp v.c.pc y)) := by
  simp [issue, i.view, i.clear, b, View.finish, State.keeping, faultOut, View.onWarp]

/-! ## TRAP and BKPT (R92) -/

theorem exec_trap {w : EWord} {s : State} {v : View} (i : IssuesE encOfTrap w .straight s v) :
    exec (.trap w) s = .next (if v.c.parts = [] then v.ended .straight s s else
      v.trapped s { cause := .trapSoftware, mask := maskOf v.c.parts, extra := w.imm.toNat, slot := v.c.mslot }) := by
  show execTrap w s = _
  unfold execTrap issueE
  by_cases hp : v.c.parts = []
  · rw [if_pos hp]
    exact i.run (by simp [Runs, hp])
  · rw [if_neg hp]
    exact i.traps (by simp [hp, trapOf])

theorem exec_bkpt {w : EWord} {s : State} {v : View} (i : IssuesE encOfBkpt w .straight s v) :
    exec (.bkpt w) s = .next (if v.c.parts = [] then v.ended .straight s s else
      s.guarded ((v.onWarp (settle v.c .straight v.w s) fun x => { x with touched := [] }).takeFault v.c.task v.c.warp v.c.pc
        { cause := .breakpoint, mask := maskOf v.c.parts, extra := w.imm.toNat, slot := v.c.mslot })) := by
  show execBkpt w s = _
  unfold execBkpt issueE
  by_cases hp : v.c.parts = []
  · rw [if_pos hp]
    exact i.run (by simp [Runs, hp])
  · rw [if_neg hp]
    exact i.trapsAfter (by simp [hp, trapOf])

/-- Settles O19: TRAP and BKPT by the issue of their words, and RESUME by where fault taking leaves the warp. -/
theorem trapsTakeTheirFault : Obligations.TrapsTakeTheirFault := by
  refine ⟨fun w s v i => exec_trap i, fun w s v i => exec_bkpt i, fun s task warp pc x t w ht hw hm => ?_⟩
  obtain ⟨z, hz, stands⟩ := State.takeFault_standsAs pc x ht hw
  refine ⟨z, hz, fun hc i hi => ?_, fun hc i => ?_⟩
  · rw [stands.continue_pc hm, if_pos ⟨by rw [hc]; rfl, hi⟩]
  · rw [stands.continue_pc hm, if_neg (by simp [hc, Cause.resumesPast])]

end Sys2Proof.Machine

/-!
PROOFS. What the end of an instruction leaves of every task, and O42: ACCZ (R289).
-/

namespace Sys2Proof.Machine

open Sys2Proof

/-! ## A task beside its warps and planes -/

/-- What a task holds beside its warps and planes. -/
def Task.bare (t : Task) : Task := { t with warps := [], planes := [] }

/-- What the task of a name holds beside its warps and planes. -/
def State.bareTask (s : State) (id : Nat) : Option Task := (s.task? id).map Task.bare

theorem State.bareTask_of_tasks {s s' : State} (h : s'.tasks = s.tasks) (id : Nat) : s'.bareTask id = s.bareTask id := by
  simp only [State.bareTask, State.task?, h]

/-- A change of a task's warps and planes alone. -/
theorem State.bareTask_modTask (s : State) (a : Nat) {f : Task → Task} (hf : ∀ t, (f t).bare = t.bare) (id : Nat) :
    (s.modTask a f).bareTask id = s.bareTask id := by
  have hid : ∀ t, (f t).id = t.id := fun t => show (f t).bare.id = t.bare.id from congrArg Task.id (hf t)
  rw [State.bareTask, State.task?_modTask s a hid, Option.map_map]
  refine congrArg (fun g => (s.task? id).map g) (funext fun t => ?_)
  by_cases e : t.id = a <;> simp [e, hf]

@[simp] theorem State.modWarp_bareTask (s : State) (a b : Nat) (f : Warp → Warp) (id : Nat) :
    (s.modWarp a b f).bareTask id = s.bareTask id :=
  s.bareTask_modTask a (fun _ => by rfl) id

/-! ## Taking a fault (R79) leaves it -/

@[simp] theorem State.dropTurns_bareTask (s : State) (task warp id : Nat) :
    (s.dropTurns task warp).bareTask id = s.bareTask id := by
  unfold State.dropTurns
  refine (foldl_keeps (State.bareTask · id) (fun s o => ?_) _ _).trans (State.bareTask_of_tasks (State.modCore_tasks s _ _) id)
  split
  · split
    · exact (State.bareTask_of_tasks (State.modCore_tasks ..) id).trans (s.bareTask_modTask task (fun _ => by rfl) id)
    · rfl
  · rfl

@[simp] theorem State.restLane_bareTask (s : State) (core lane id : Nat) : (s.restLane core lane).bareTask id = s.bareTask id := by
  unfold State.restLane
  refine foldl_keeps (State.bareTask · id) (fun s p => ?_) s _
  split
  · exact s.modWarp_bareTask ..
  · rfl

@[simp] theorem State.select_bareTask (s : State) (core lane : Nat) (r : WarpRef) (slot id : Nat) :
    (s.select core lane r slot).bareTask id = s.bareTask id :=
  calc (s.select core lane r slot).bareTask id
    _ = ((s.restLane core lane).modWarp r.task r.warp _).bareTask id := State.bareTask_of_tasks (State.modCore_tasks ..) id
    _ = s.bareTask id := by rw [State.modWarp_bareTask, State.restLane_bareTask]

@[simp] theorem State.switchPoint_bareTask (s : State) (task warp id : Nat) :
    (s.switchPoint task warp).bareTask id = s.bareTask id := by
  unfold State.switchPoint
  split
  · rfl
  split
  · split
    · rfl
    split
    · rfl
    · rw [State.select_bareTask, State.modWarp_bareTask]
  · rfl

/-- Fault taking once the warp is suspended (`u` has the tasks that the end of its waits and turns leaves). -/
theorem State.bareTask_of_suspended {s u : State} {task warp : Nat}
    (hu : u.tasks = ((s.withdrawWaits task warp).dropTurns task warp).tasks) (id : Nat) :
    (u.switchPoint task warp).bareTask id = s.bareTask id := by
  rw [State.switchPoint_bareTask, State.bareTask_of_tasks hu, State.dropTurns_bareTask,
    State.bareTask_of_tasks (State.withdrawWaits_tasks ..)]

/-- A fault touches its warp and the planes of loads that it takes back, and nothing else of a task. -/
@[simp] theorem State.takeFault_bareTask (s : State) (task warp : Nat) (pc : W64) (x : Trap) (id : Nat) :
    (s.takeFault task warp pc x).bareTask id = s.bareTask id := by
  have cached : (s.keepCached x).bareTask id = s.bareTask id := State.bareTask_of_tasks (State.keepCached_tasks s x) id
  unfold State.takeFault
  dsimp only
  split
  · exact cached
  split
  · exact cached
  next w _ =>
  have suspended : ((s.keepCached x).modWarp task warp fun y => y.suspended (w.suspensionOf x)).bareTask id = s.bareTask id :=
    (State.modWarp_bareTask ..).trans cached
  refine (State.bareTask_of_suspended ?_ id).trans suspended
  split <;> simp only [State.freeze_tasks, State.traceFrame_tasks, State.queueRecord_tasks] <;> rfl

/-! ## The end of an instruction leaves it -/

@[simp] theorem settle_bareTask (c : Ctx) (flow : Flow) (before : Warp) (s : State) (id : Nat) :
    (settle c flow before s).bareTask id = s.bareTask id :=
  State.modWarp_bareTask ..

@[simp] theorem debugCheck_bareTask (c : Ctx) (s : State) (id : Nat) : (debugCheck c s).bareTask id = s.bareTask id := by
  unfold debugCheck
  split
  · rfl
  dsimp only
  split
  · exact State.modWarp_bareTask ..
  · split
    · rw [State.takeFault_bareTask, State.modWarp_bareTask]
    · exact State.modWarp_bareTask ..

/-- The end of an instruction changes warps and planes, and nothing else of a task. -/
@[simp] theorem View.ended_bareTask (v : View) (flow : Flow) (s t : State) (id : Nat) :
    (v.ended flow s t).bareTask id = t.bareTask id := by
  rw [View.ended, State.bareTask_of_tasks (State.guarded_tasks ..), retire, debugCheck_bareTask, settle_bareTask]

/-- States that agree on a task beside its warps and planes agree on its tiles. -/
theorem State.tileMem_of_bareTask {s u : State} {id : Nat} {t : Task} (h : u.bareTask id = s.bareTask id) (ht : s.task? id = some t) :
    ∃ t', u.task? id = some t' ∧ t'.tileMem = t.tileMem := by
  rw [State.bareTask, State.bareTask, ht, Option.map_some, Option.map_eq_some_iff] at h
  obtain ⟨t', ht', e⟩ := h
  exact ⟨t', ht', show t'.bare.tileMem = t.bare.tileMem from congrArg Task.tileMem e⟩

/-! ## The wait for a tile, and the write of one, leave it (R280, R281) -/

@[simp] theorem State.leavePlace_tasks (s : State) (c : Ctx) : (s.leavePlace c).tasks = s.tasks := by
  unfold State.leavePlace
  split <;> rfl

theorem Op.keeps_turnOf (c : Ctx) (tile : Nat) : (Op.turnOf c tile).Keeps :=
  Op.keeps_bind Op.keeps_state fun _ => Op.keeps_ite (Op.keeps_stallHere _ _) (Op.keeps_pure _)

/-- What runs in its place of the issue order has run, and has left the place. -/
theorem Op.inPlace_runs {α : Type} {c : Ctx} {o : MatOp} {f : Op α} {s u : State} {a : α} (h : Runs (Op.inPlace c o f) s a u) :
    ∃ t, Runs f s a t ∧ u = t.leavePlace c := by
  unfold Runs Op.inPlace at h
  split at h
  · cases h
  · next b t e =>
    cases h
    exact ⟨t, e, rfl⟩
  · next no => exact absurd h (no a u)

theorem Op.tileTurn_bareTask {c : Ctx} {tile : Nat} {s u : State} (h : Runs (Op.tileTurn c tile) s () u) (id : Nat) :
    u.bareTask id = s.bareTask id := by
  obtain ⟨t, ht, rfl⟩ := Op.inPlace_runs h
  obtain rfl := Op.keeps_turnOf c tile s () t ht
  exact State.bareTask_of_tasks (State.leavePlace_tasks ..) id

theorem Runs.of_ite {α : Type} {p : Prop} [Decidable p] {x y : Op α} {s t : State} {a : α} (h : Runs (if p then x else y) s a t) :
    p ∧ Runs x s a t ∨ ¬p ∧ Runs y s a t := by
  by_cases e : p
  · exact .inl ⟨e, by rwa [if_pos e] at h⟩
  · exact .inr ⟨e, by rwa [if_neg e] at h⟩

/-- The write of a tile commits regions of its warp (R281). -/
theorem Op.tileWrite_bareTask {c : Ctx} {tile : Nat} {force : Bool} {s u : State} (h : Runs (Op.tileWrite c tile force) s () u) (id : Nat) :
    u.bareTask id = s.bareTask id := by
  unfold Runs Op.tileWrite at h
  rw [Op.bind_run] at h
  split at h
  · next w t e =>
    obtain rfl := Op.keeps_warp c s w t e
    obtain ⟨-, hc⟩ | ⟨-, hc⟩ := Runs.of_ite h
    · cases hc
      exact State.modWarp_bareTask ..
    · cases hc
      rfl
  · cases h

/-! ## Reads of memory that agree -/

theorem Memory.getN_congr {m m' : Memory} {a n : Nat} (h : ∀ i < n, m.get (a + i) = m'.get (a + i)) : m.getN a n = m'.getN a n := by
  suffices m.bytes a n = m'.bytes a n from congrArg ofBytes this
  induction n generalizing a with
  | zero => rfl
  | succ n ih =>
    have first : m.get a = m'.get a := h 0 (by omega)
    have rest : m.bytes (a + 1) n = m'.bytes (a + 1) n :=
      ih fun i hi => by rw [Nat.add_assoc, Nat.add_comm 1]; exact h (i + 1) (by omega)
    rw [Memory.bytes, Memory.bytes, first, rest]

/-- Memory that lists nothing reads as 0 (R392). -/
@[simp] theorem Memory.getN_nil (a n : Nat) : Memory.getN [] a n = 0 := by
  induction n generalizing a with
  | zero => rfl
  | succ n ih => simpa [Memory.getN, Memory.bytes, Memory.get, ofBytes] using ih (a + 1)

/-- Memory of which only the addresses that meet `p` stay listed. -/
theorem Memory.get_filter (m : Memory) (p : Nat → Bool) (a : Nat) :
    Memory.get (m.filter fun (x : Host.Cell) => p x.1) a = if p a then m.get a else 0 := by
  induction m with
  | nil => simp [Memory.get]
  | cons x r ih =>
    obtain ⟨k, b⟩ := x
    by_cases e : a = k
    · subst e
      by_cases hp : p a <;> simp [hp, Memory.get, ih]
    · by_cases hk : p k <;> simp [hk, e, Memory.get, ih]

/-! ## Tiles of a task (R271) -/

/-- Every byte of a value lies in the 8 KiB of its tile. -/
theorem tileOff_div {row col i : Nat} (tile : Nat) (hr : row < 16) (hc : col < 128) (hi : i < 4) :
    (tileOff tile row col + i) / 8192 = tile := by
  unfold tileOff
  omega

@[simp] theorem Task.zeroTile_id (t : Task) (tile : Nat) : (t.zeroTile tile).id = t.id := rfl

/-- A byte of a value once a tile has been cleared. -/
theorem Task.zeroTile_get (t : Task) (tile n : Nat) {row col i : Nat} (hr : row < 16) (hc : col < 128) (hi : i < 4) :
    (t.zeroTile tile).tileMem.get (tileOff n row col + i) = if n = tile then 0 else t.tileMem.get (tileOff n row col + i) := by
  rw [Task.zeroTile, Memory.get_filter t.tileMem (fun a => a / 8192 != tile), tileOff_div n hr hc hi]
  by_cases e : n = tile <;> simp [e]

/-- A cleared tile reads +0 at every row and column (R289). -/
theorem Task.tileAt_zeroTile_same (t : Task) (tile : Nat) {row col : Nat} (hr : row < 16) (hc : col < 128) :
    (t.zeroTile tile).tileAt tile row col = 0 :=
  (Memory.getN_congr (m' := []) fun i hi => by rw [t.zeroTile_get tile tile hr hc hi, if_pos rfl]; rfl).trans (Memory.getN_nil _ 4)

/-- Every other tile reads as before. -/
theorem Task.tileAt_zeroTile_other (t : Task) {tile n row col : Nat} (hn : n ≠ tile) (hr : row < 16) (hc : col < 128) :
    (t.zeroTile tile).tileAt n row col = t.tileAt n row col :=
  Memory.getN_congr fun i hi => by rw [t.zeroTile_get tile n hr hc hi, if_neg hn]

/-- The values of tiles rest on the tiles' bytes alone. -/
theorem Task.tileAt_of_tileMem {t t' : Task} (h : t'.tileMem = t.tileMem) (n row col : Nat) : t'.tileAt n row col = t.tileAt n row col := by
  rw [Task.tileAt, h, Task.tileAt]

/-! ## ACCZ (R289) -/

/-- ACCZ waits its turn, commits the regions that have read its tile, and clears the tile. -/
theorem exec_accz {w : TWord} {s s₁ s₂ : State} {v : View} (i : IssuesT encOfAccz w .straight s v) (hp : v.c.parts ≠ [])
    (own : Runs (Op.ownTile v.c w.tile.toNat) s () s) (turn : Runs (Op.tileTurn v.c w.tile.toNat) s () s₁)
    (write : Runs (Op.tileWrite v.c w.tile.toNat false) s₁ () s₂) :
    exec (.accz w) s = .next (v.ended .straight s (s₂.modTask v.c.task fun t => t.zeroTile w.tile.toNat)) := by
  show execAccz w s = _
  unfold execAccz issueT
  refine i.run ?_
  have present : v.c.parts.isEmpty = false := by simpa using hp
  simp only [Runs, present, Bool.false_eq_true, if_false]
  rw [Op.bind_of own, Op.bind_of turn, Op.bind_of write]
  rfl

/-- Settles O42: the cells of the tile are the ones that ACCZ drops, and neither its wait, its commit nor its end touches a tile. -/
theorem acczClearsItsTile : Obligations.AcczClearsItsTile := by
  refine ⟨fun w s s₁ s₂ v t i hp ht own turn write => ?_, by decide +kernel⟩
  have before : s₂.bareTask v.c.task = s.bareTask v.c.task :=
    (Op.tileWrite_bareTask write _).trans (Op.tileTurn_bareTask turn _)
  obtain ⟨t₂, ht₂, mem₂⟩ := State.tileMem_of_bareTask before ht
  have cleared : (s₂.modTask v.c.task fun t => t.zeroTile w.tile.toNat).task? v.c.task = some (t₂.zeroTile w.tile.toNat) := by
    rw [State.task?_modTask _ _ fun t => t.zeroTile_id _, ht₂, Option.map_some, if_pos (State.id_of_task? ht₂)]
  obtain ⟨t', ht', mem'⟩ := State.tileMem_of_bareTask (v.ended_bareTask .straight s _ _) cleared
  refine ⟨_, t', exec_accz i hp own turn write, ht', fun row col hr hc => ⟨?_, fun n hn => ?_⟩⟩
  · rw [Task.tileAt_of_tileMem mem', Task.tileAt_zeroTile_same t₂ _ hr hc]
  · rw [Task.tileAt_of_tileMem mem', Task.tileAt_zeroTile_other t₂ hn hr hc, Task.tileAt_of_tileMem mem₂]

end Sys2Proof.Machine

/-!
PROOFS. O1 and O2: the encoder and the decoder are each other's inverse on well-formed instructions (R17, R23, R24, R40, R390).
-/

namespace Sys2Proof

/-! ## The fields that a number is cut into -/

/-- The fields of the widths `ns` that stand one above the other in a number, from a bit up. -/
def Decode.cut (v : Nat) : Nat → List Nat → List (Nat × Nat)
  | _, [] => []
  | lo, n :: ns => (n, v / 2 ^ lo % 2 ^ n) :: Decode.cut v (lo + n) ns

/-- Packing the fields cut from a number gives the bits that they cover. -/
theorem Encode.pack_cut (v lo : Nat) (ns : List Nat) : Encode.pack (Decode.cut v lo ns) = v / 2 ^ lo % 2 ^ ns.sum := by
  induction ns generalizing lo with
  | nil => simp [Decode.cut, Encode.pack, Nat.mod_one]
  | cons n ns ih => rw [Decode.cut, Encode.pack, ih, List.sum_cons, Nat.pow_add, Nat.pow_add, Nat.mod_mul, Nat.div_div_eq_div_mul]

@[simp] theorem Encode.bit_flag (v lo : Nat) : Encode.bit (Decode.flag v lo) = v / 2 ^ lo % 2 ^ 1 := by
  rcases Nat.mod_two_eq_zero_or_one (v / 2 ^ lo) with h | h <;> simp [Encode.bit, Decode.flag, h]

@[simp] theorem Decode.toNat_field (n v lo : Nat) : (Decode.field n v lo).toNat = v / 2 ^ lo % 2 ^ n :=
  BitVec.toNat_ofNat ..

/-- The word of 96 bits whose fields are cut from a number. -/
theorem Encode.ofNat_cut {v : Nat} {ns : List Nat} (hs : ns.sum = 96) :
    BitVec.ofNat 96 (Encode.pack (Decode.cut v 0 ns)) = BitVec.ofNat 96 v := by
  apply BitVec.eq_of_toNat_eq
  simp [Encode.pack_cut, hs]

/-! ## Words are the encoding of what they decode to, format by format (R24) -/

section
variable {v op : Nat} (h : v % 2 ^ 10 = op)
include h

theorem Encode.head_decode : Encode.head op (Decode.head v) = Decode.cut v 0 [10, 1, 1, 2, 4, 8, 8, 8, 8] := by
  simp [Encode.head, Decode.head, Decode.cut, ← h]

theorem Encode.kWord_decode : Encode.kWord op (Decode.kWord v) = BitVec.ofNat 96 v := by
  have e : Encode.kFields op (Decode.kWord v) = Decode.cut v 0 [10, 1, 1, 2, 4, 8, 8, 8, 8, 8, 6, 32] := by
    simp [Encode.kFields, Decode.kWord, Encode.head_decode h, Decode.cut]
  rw [Encode.kWord, e, Encode.ofNat_cut rfl]

theorem Encode.jWord_decode : Encode.jWord op (Decode.jWord v) = BitVec.ofNat 96 v := by
  have e : Encode.jFields op (Decode.jWord v) = Decode.cut v 0 [10, 1, 1, 2, 4, 8, 8, 8, 8, 14, 32] := by
    simp [Encode.jFields, Decode.jWord, Encode.head_decode h, Decode.cut]
  rw [Encode.jWord, e, Encode.ofNat_cut rfl]

theorem Encode.mWord_decode : Encode.mWord op (Decode.mWord v) = BitVec.ofNat 96 v := by
  have e : Encode.mFields op (Decode.mWord v) = Decode.cut v 0 [10, 1, 1, 2, 4, 8, 8, 8, 8, 2, 4, 2, 3, 3, 32] := by
    simp [Encode.mFields, Decode.mWord, Encode.head_decode h, Decode.cut]
  rw [Encode.mWord, e, Encode.ofNat_cut rfl]

theorem Encode.tWord_decode : Encode.tWord op (Decode.tWord v) = BitVec.ofNat 96 v := by
  have e : Encode.tFields op (Decode.tWord v) = Decode.cut v 0 [10, 1, 1, 2, 4, 8, 8, 8, 8, 2, 6, 6, 4, 4, 4, 4, 6, 10] := by
    simp [Encode.tFields, Decode.tWord, Encode.head_decode h, Decode.cut]
  rw [Encode.tWord, e, Encode.ofNat_cut rfl]

theorem Encode.eWord_decode : Encode.eWord op (Decode.eWord v) = BitVec.ofNat 96 v := by
  have e : Encode.eFields op (Decode.eWord v) = Decode.cut v 0 [10, 1, 1, 2, 4, 8, 8, 8, 8, 3, 3, 6, 2, 32] := by
    simp [Encode.eFields, Decode.eWord, Encode.head_decode h, Decode.cut]
  rw [Encode.eWord, e, Encode.ofNat_cut rfl]

end

/-! ## Opcodes (R40, R287) -/

/-- An instruction is well formed, and its word is the one of a number. -/
def Decode.Means (v : Nat) (i : Instr) : Prop := i.wf = true ∧ encodeWord i = some (BitVec.ofNat 96 v)

/-- ASRC as `Decode.byOpcode` reads it. -/
theorem Decode.tWord_asrc (v : Nat) : (Decode.tWord v).asrc = BitVec.ofNat 4 (bitsOf v 79 76) := by
  apply BitVec.eq_of_toNat_eq
  simp [Decode.tWord, bitsOf, Nat.shiftRight_eq_div_pow]

/-- An MMA word has the row that its ASRC names. -/
theorem Decode.mma_means {v : Nat} (h : v % 2 ^ 10 = 0x282) :
    Decode.Means v (Decode.mma (bitsOf v 79 76) (Decode.tWord v)) := by
  have ha := Decode.tWord_asrc v
  have hlt : bitsOf v 79 76 < 2 ^ 4 := Nat.mod_lt _ (by decide)
  generalize bitsOf v 79 76 = n at ha hlt
  unfold Decode.mma
  split
  · exact ⟨by simp [Instr.wf, ha], congrArg some (Encode.tWord_decode h)⟩
  · exact ⟨by simp [Instr.wf, ha], congrArg some (Encode.tWord_decode h)⟩
  · next h1 h2 =>
    refine ⟨?_, congrArg some (Encode.tWord_decode h)⟩
    simp only [Instr.wf, ha, Bool.and_eq_true, bne_iff_ne, ne_eq, ← BitVec.toNat_inj, BitVec.toNat_ofNat, Nat.mod_eq_of_lt hlt]
    exact ⟨h1, h2⟩

section
variable {v op : Nat} (h : v % 2 ^ 10 = op)
include h

theorem Decode.means_thread (lo : 0x001 ≤ op) (hi : op ≤ 0x00E) : Decode.Means v (Decode.byOpcode op v) := by
  have format : (op = 1 ∨ op = 5 ∨ op = 7 ∨ op = 8) ∨ (op = 4 ∨ op = 6 ∨ op = 9 ∨ op = 11) ∨
      (op = 2 ∨ op = 3 ∨ op = 10 ∨ op = 12 ∨ op = 13 ∨ op = 14) := by omega
  rcases format with k | j | e
  · rcases k with rfl | rfl | rfl | rfl <;> exact ⟨rfl, congrArg some (Encode.kWord_decode h)⟩
  · rcases j with rfl | rfl | rfl | rfl <;> exact ⟨rfl, congrArg some (Encode.jWord_decode h)⟩
  · rcases e with rfl | rfl | rfl | rfl | rfl | rfl <;> exact ⟨rfl, congrArg some (Encode.eWord_decode h)⟩

/-- Opcodes of integers, bits, numbers, predicates and of threads together: K-format words. -/
theorem Decode.means_compute (ho : (0x040 ≤ op ∧ op ≤ 0x04E) ∨ (0x080 ≤ op ∧ op ≤ 0x08E) ∨ (0x0C0 ≤ op ∧ op ≤ 0x0CF) ∨
    (0x100 ≤ op ∧ op ≤ 0x105) ∨ (0x110 ≤ op ∧ op ≤ 0x113) ∨ (0x140 ≤ op ∧ op ≤ 0x141)) :
    Decode.Means v (Decode.byOpcode op v) := by
  rcases ho with ⟨lo, hi⟩ | ⟨lo, hi⟩ | ⟨lo, hi⟩ | ⟨lo, hi⟩ | ⟨lo, hi⟩ | ⟨lo, hi⟩ <;> interval_cases op <;>
    exact ⟨rfl, congrArg some (Encode.kWord_decode h)⟩

/-- Opcodes of accesses and atomics: M-format words. -/
theorem Decode.means_memory (ho : (0x180 ≤ op ∧ op ≤ 0x186) ∨ (0x1C2 ≤ op ∧ op ≤ 0x1C4)) :
    Decode.Means v (Decode.byOpcode op v) := by
  rcases ho with ⟨lo, hi⟩ | ⟨lo, hi⟩ <;> interval_cases op <;> exact ⟨rfl, congrArg some (Encode.mWord_decode h)⟩

/-- Opcodes of the matrix array and of tiles: T-format words. -/
theorem Decode.means_matrix (ho : (0x280 ≤ op ∧ op ≤ 0x286) ∨ (0x2C0 ≤ op ∧ op ≤ 0x2C5)) :
    Decode.Means v (Decode.byOpcode op v) := by
  by_cases mma : op = 0x282
  · subst mma
    exact Decode.mma_means h
  · have ho : (0x280 ≤ op ∧ op ≤ 0x281) ∨ (0x283 ≤ op ∧ op ≤ 0x286) ∨ (0x2C0 ≤ op ∧ op ≤ 0x2C5) := by omega
    rcases ho with ⟨lo, hi⟩ | ⟨lo, hi⟩ | ⟨lo, hi⟩ <;> interval_cases op <;>
      exact ⟨rfl, congrArg some (Encode.tWord_decode h)⟩

/-- Opcodes of fences, stalagmites, barriers, groups, sump loops and grace periods: E-format words. -/
theorem Decode.means_sync (ho : (0x1C0 ≤ op ∧ op ≤ 0x1C1) ∨ (0x200 ≤ op ∧ op ≤ 0x204) ∨ (0x208 ≤ op ∧ op ≤ 0x20B) ∨
    (0x210 ≤ op ∧ op ≤ 0x213) ∨ (0x218 ≤ op ∧ op ≤ 0x21A) ∨ (0x240 ≤ op ∧ op ≤ 0x243) ∨ (0x248 ≤ op ∧ op ≤ 0x24C)) :
    Decode.Means v (Decode.byOpcode op v) := by
  rcases ho with ⟨lo, hi⟩ | ⟨lo, hi⟩ | ⟨lo, hi⟩ | ⟨lo, hi⟩ | ⟨lo, hi⟩ | ⟨lo, hi⟩ | ⟨lo, hi⟩ <;> interval_cases op <;>
    exact ⟨rfl, congrArg some (Encode.eWord_decode h)⟩

/-- Opcodes of engines, kernels and the system: E-format words. -/
theorem Decode.means_system (ho : (0x2C6 ≤ op ∧ op ≤ 0x2C7) ∨ (0x300 ≤ op ∧ op ≤ 0x305) ∨ (0x340 ≤ op ∧ op ≤ 0x343) ∨
    (0x380 ≤ op ∧ op ≤ 0x389)) :
    Decode.Means v (Decode.byOpcode op v) := by
  rcases ho with ⟨lo, hi⟩ | ⟨lo, hi⟩ | ⟨lo, hi⟩ | ⟨lo, hi⟩ <;> interval_cases op <;>
    exact ⟨rfl, congrArg some (Encode.eWord_decode h)⟩

theorem Decode.means_unassigned (ho : opcodeAssigned op = false) : Decode.Means v (Decode.byOpcode op v) := by
  have e : (BitVec.ofNat 96 v).toNat % 1024 = op := by
    rw [BitVec.toNat_ofNat, Nat.mod_mod_of_dvd _ (by decide)]
    exact h
  rw [Decode.byOpcode_unassigned ho]
  refine ⟨?_, rfl⟩
  rw [Instr.wf, e, ho]
  rfl

end

/-- A word of any opcode is the encoding of the well-formed instruction that it decodes to. -/
theorem Decode.wordNat_means (v : Nat) : Decode.Means v (Decode.wordNat v) := by
  unfold Decode.wordNat
  generalize h : v % 2 ^ 10 = op
  cases ho : opcodeAssigned op with
  | false => exact Decode.means_unassigned h ho
  | true =>
    simp only [opcodeAssigned, List.any_cons, List.any_nil, Bool.or_eq_true, Bool.and_eq_true, decide_eq_true_eq, Bool.or_false] at ho
    by_cases h1 : op ≤ 0x00E
    · exact Decode.means_thread h (by omega) h1
    by_cases h2 : op ≤ 0x141
    · exact Decode.means_compute h (by omega)
    by_cases h3 : op ≤ 0x186 ∨ (0x1C2 ≤ op ∧ op ≤ 0x1C4)
    · exact Decode.means_memory h (by omega)
    by_cases h4 : op ≤ 0x24C
    · exact Decode.means_sync h (by omega)
    by_cases h5 : op ≤ 0x2C5
    · exact Decode.means_matrix h (by omega)
    · exact Decode.means_system h (by omega)

/-! ## Bytes -/

/-- The bytes of a list's value are the list. -/
theorem toBytes_ofBytes (bs : List Byte) : toBytes bs.length (ofBytes bs) = bs := by
  induction bs with
  | nil => rfl
  | cons b bs ih =>
    have hb : b.toNat < 256 := b.isLt
    have hd : (b.toNat + 256 * ofBytes bs) / 256 = ofBytes bs := by omega
    simp [List.length_cons, toBytes, ofBytes, hd, ih, Nat.mod_eq_of_lt hb]

theorem ofBytes_lt (bs : List Byte) : ofBytes bs < 256 ^ bs.length := by
  have h := ofBytes_toBytes bs.length (ofBytes bs)
  rw [toBytes_ofBytes] at h
  exact h ▸ Nat.mod_lt _ (Nat.pow_pos (by decide))

/-- The bytes of the vector that a list of as many bytes makes. -/
theorem toBytes_ofNat {bs : List Byte} {n : Nat} (hn : bs.length = n) :
    toBytes n (BitVec.ofNat (8 * n) (ofBytes bs)).toNat = bs := by
  subst hn
  rw [BitVec.toNat_ofNat, Nat.pow_mul, Nat.mod_eq_of_lt (ofBytes_lt bs), toBytes_ofBytes]

/-- The command of an OPC byte is well formed, and its record is the one decoded (R390). -/
theorem Decode.command_means {c : Command} {i : Instr} (h : Decode.command c = some i) :
    i.wf = true ∧ encodeWord i = none ∧ encodeCommand i = some c := by
  unfold Decode.command at h
  generalize e : c.toNat % 256 = opc at h
  unfold Decode.commandOf at h
  split at h <;> cases h <;> exact ⟨beq_iff_eq.mpr e, rfl, rfl⟩

/-! ## The obligations -/

/-- Settles O2: a word by its format and opcode, a command record by its OPC byte. -/
theorem decodedBytesEncode : Obligations.DecodedBytesEncode := by
  intro bs i h
  unfold decode at h
  split at h
  · next hn =>
    cases h
    obtain ⟨wf, word⟩ := Decode.wordNat_means (ofBytes bs)
    refine ⟨wf, ?_⟩
    simp only [encode, word]
    exact congrArg some (toBytes_ofNat hn)
  · next hn =>
    split at h
    · next j hc =>
      cases h
      obtain ⟨wf, word, command⟩ := Decode.command_means hc
      refine ⟨wf, ?_⟩
      simp only [encode, word, command, Option.map_some]
      exact congrArg some (toBytes_ofNat hn)
    · cases h
  · cases h

/-- Settles O1: constructor by constructor, by the law of each. -/
theorem encodedInstructionDecodes : Obligations.EncodedInstructionDecodes := fun i =>
  match i with
  | .nop w => Laws.Encoding.nop w
  | .rgn w => Laws.Encoding.rgn w
  | .exit w => Laws.Encoding.exit w
  | .bra w => Laws.Encoding.bra w
  | .brx w => Laws.Encoding.brx w
  | .call w => Laws.Encoding.call w
  | .callx w => Laws.Encoding.callx w
  | .ret w => Laws.Encoding.ret w
  | .loop w => Laws.Encoding.loop w
  | .mcall w => Laws.Encoding.mcall w
  | .ipf w => Laws.Encoding.ipf w
  | .ifence w => Laws.Encoding.ifence w
  | .trap w => Laws.Encoding.trap w
  | .bkpt w => Laws.Encoding.bkpt w
  | .iadd w => Laws.Encoding.iadd w
  | .isub w => Laws.Encoding.isub w
  | .imul w => Laws.Encoding.imul w
  | .imulh w => Laws.Encoding.imulh w
  | .imad w => Laws.Encoding.imad w
  | .iabs w => Laws.Encoding.iabs w
  | .ineg w => Laws.Encoding.ineg w
  | .imin w => Laws.Encoding.imin w
  | .imax w => Laws.Encoding.imax w
  | .icmp w => Laws.Encoding.icmp w
  | .sel w => Laws.Encoding.sel w
  | .mov w => Laws.Encoding.mov w
  | .movi w => Laws.Encoding.movi w
  | .lea w => Laws.Encoding.lea w
  | .addc w => Laws.Encoding.addc w
  | .and w => Laws.Encoding.and w
  | .or w => Laws.Encoding.or w
  | .xor w => Laws.Encoding.xor w
  | .andn w => Laws.Encoding.andn w
  | .shl w => Laws.Encoding.shl w
  | .shr w => Laws.Encoding.shr w
  | .sar w => Laws.Encoding.sar w
  | .rot w => Laws.Encoding.rot w
  | .bfx w => Laws.Encoding.bfx w
  | .bfi w => Laws.Encoding.bfi w
  | .popc w => Laws.Encoding.popc w
  | .clz w => Laws.Encoding.clz w
  | .ctz w => Laws.Encoding.ctz w
  | .brev w => Laws.Encoding.brev w
  | .perm w => Laws.Encoding.perm w
  | .fadd w => Laws.Encoding.fadd w
  | .fsub w => Laws.Encoding.fsub w
  | .fmul w => Laws.Encoding.fmul w
  | .ffma w => Laws.Encoding.ffma w
  | .fmin w => Laws.Encoding.fmin w
  | .fmax w => Laws.Encoding.fmax w
  | .fcmp w => Laws.Encoding.fcmp w
  | .frcp w => Laws.Encoding.frcp w
  | .frsq w => Laws.Encoding.frsq w
  | .fsqrt w => Laws.Encoding.fsqrt w
  | .fexp2 w => Laws.Encoding.fexp2 w
  | .flog2 w => Laws.Encoding.flog2 w
  | .fsin w => Laws.Encoding.fsin w
  | .fcos w => Laws.Encoding.fcos w
  | .fclass w => Laws.Encoding.fclass w
  | .frnd w => Laws.Encoding.frnd w
  | .cvt w => Laws.Encoding.cvt w
  | .pack w => Laws.Encoding.pack w
  | .unpk w => Laws.Encoding.unpk w
  | .qnt w => Laws.Encoding.qnt w
  | .dqnt w => Laws.Encoding.dqnt w
  | .seed w => Laws.Encoding.seed w
  | .shfl w => Laws.Encoding.shfl w
  | .vote w => Laws.Encoding.vote w
  | .wred w => Laws.Encoding.wred w
  | .wscan w => Laws.Encoding.wscan w
  | .plop w => Laws.Encoding.plop w
  | .pmov w => Laws.Encoding.pmov w
  | .ld w => Laws.Encoding.ld w
  | .st w => Laws.Encoding.st w
  | .stbm w => Laws.Encoding.stbm w
  | .pref w => Laws.Encoding.pref w
  | .clean w => Laws.Encoding.clean w
  | .inval w => Laws.Encoding.inval w
  | .evh w => Laws.Encoding.evh w
  | .fence w => Laws.Encoding.fence w
  | .xfence w => Laws.Encoding.xfence w
  | .amo w => Laws.Encoding.amo w
  | .amocas w => Laws.Encoding.amocas w
  | .red w => Laws.Encoding.red w
  | .sgadd w => Laws.Encoding.sgadd w
  | .sgwait w => Laws.Encoding.sgwait w
  | .sgtest w => Laws.Encoding.sgtest w
  | .sgread w => Laws.Encoding.sgread w
  | .sgset w => Laws.Encoding.sgset w
  | .rgresv w => Laws.Encoding.rgresv w
  | .rgpub w => Laws.Encoding.rgpub w
  | .rgawait w => Laws.Encoding.rgawait w
  | .rgrel w => Laws.Encoding.rgrel w
  | .bjoin w => Laws.Encoding.bjoin w
  | .bleave w => Laws.Encoding.bleave w
  | .barrive w => Laws.Encoding.barrive w
  | .bwait w => Laws.Encoding.bwait w
  | .ginfo w => Laws.Encoding.ginfo w
  | .gbar w => Laws.Encoding.gbar w
  | .wsync w => Laws.Encoding.wsync w
  | .sloop w => Laws.Encoding.sloop w
  | .yield w => Laws.Encoding.yield w
  | .pdone w => Laws.Encoding.pdone w
  | .cend w => Laws.Encoding.cend w
  | .rsb w => Laws.Encoding.rsb w
  | .rse w => Laws.Encoding.rse w
  | .gpnum w => Laws.Encoding.gpnum w
  | .gpwait w => Laws.Encoding.gpwait w
  | .dfree w => Laws.Encoding.dfree w
  | .wload w => Laws.Encoding.wload w
  | .wfree w => Laws.Encoding.wfree w
  | .mmaRegisters w => Laws.Encoding.mmaRegisters w
  | .mmaTile w => Laws.Encoding.mmaTile w
  | .mmaShapeRecord w => Laws.Encoding.mmaShapeRecord w
  | .accrd w => Laws.Encoding.accrd w
  | .accwr w => Laws.Encoding.accwr w
  | .accz w => Laws.Encoding.accz w
  | .drain w => Laws.Encoding.drain w
  | .tdld w => Laws.Encoding.tdld w
  | .tld w => Laws.Encoding.tld w
  | .tst w => Laws.Encoding.tst w
  | .ctld w => Laws.Encoding.ctld w
  | .ctinv w => Laws.Encoding.ctinv w
  | .bixrd w => Laws.Encoding.bixrd w
  | .xform w => Laws.Encoding.xform w
  | .poolq w => Laws.Encoding.poolq w
  | .cpy w => Laws.Encoding.cpy w
  | .cpy2 w => Laws.Encoding.cpy2 w
  | .cpyt w => Laws.Encoding.cpyt w
  | .stadv w => Laws.Encoding.stadv w
  | .gset w => Laws.Encoding.gset w
  | .gclr w => Laws.Encoding.gclr w
  | .launch w => Laws.Encoding.launch w
  | .spawn w => Laws.Encoding.spawn w
  | .trig w => Laws.Encoding.trig w
  | .taskq w => Laws.Encoding.taskq w
  | .feat w => Laws.Encoding.feat w
  | .implq w => Laws.Encoding.implq w
  | .srrd w => Laws.Encoding.srrd w
  | .srwr w => Laws.Encoding.srwr w
  | .clk w => Laws.Encoding.clk w
  | .resume w => Laws.Encoding.resume w
  | .kill w => Laws.Encoding.kill w
  | .trcmk w => Laws.Encoding.trcmk w
  | .perfrd w => Laws.Encoding.perfrd w
  | .lnkq w => Laws.Encoding.lnkq w
  | .registerWrite r v => Laws.Encoding.registerWrite r v
  | .queueEnable q => Laws.Encoding.queueEnable q
  | .queueDisable q => Laws.Encoding.queueDisable q
  | .queueSuspend q => Laws.Encoding.queueSuspend q
  | .queueResume q => Laws.Encoding.queueResume q
  | .queueSkip q => Laws.Encoding.queueSkip q
  | .queueRetry q => Laws.Encoding.queueRetry q
  | .queueDrain q => Laws.Encoding.queueDrain q
  | .copyEngineRetry core => Laws.Encoding.copyEngineRetry core
  | .copyEngineDrop core => Laws.Encoding.copyEngineDrop core
  | .xformEngineRetry core => Laws.Encoding.xformEngineRetry core
  | .xformEngineDrop core => Laws.Encoding.xformEngineDrop core
  | .tlbinvWrite ctx va => Laws.Encoding.tlbinvWrite ctx va
  | .fringWrite ctx v => Laws.Encoding.fringWrite ctx v
  | .dresResume w => Laws.Encoding.dresResume w
  | .dresKill w => Laws.Encoding.dresKill w
  | .traceEnable core v => Laws.Encoding.traceEnable core v
  | .bootgo a => Laws.Encoding.bootgo a
  | .mccfgEnable v => Laws.Encoding.mccfgEnable v
  | .mcfill v => Laws.Encoding.mcfill v
  | .create c => Laws.Encoding.create c
  | .assign c => Laws.Encoding.assign c
  | .negotiate c => Laws.Encoding.negotiate c
  | .start c => Laws.Encoding.start c
  | .preempt c => Laws.Encoding.preempt c
  | .save c => Laws.Encoding.save c
  | .restore c => Laws.Encoding.restore c
  | .migrateOut c => Laws.Encoding.migrateOut c
  | .migrateIn c => Laws.Encoding.migrateIn c
  | .teardown c => Laws.Encoding.teardown c
  | .srwrite c => Laws.Encoding.srwrite c
  | .srread c => Laws.Encoding.srread c
  | .warpresume c => Laws.Encoding.warpresume c
  | .warpkill c => Laws.Encoding.warpkill c
  | .portenable c => Laws.Encoding.portenable c
  | .portdisable c => Laws.Encoding.portdisable c
  | .route c => Laws.Encoding.route c
  | .exportRange c => Laws.Encoding.exportRange c
  | .window c => Laws.Encoding.window c
  | .debugset c => Laws.Encoding.debugset c
  | .tlbinv c => Laws.Encoding.tlbinv c
  | .checkpoint c => Laws.Encoding.checkpoint c
  | .getVersion fn => Laws.Encoding.getVersion fn
  | .getCapabilities fn => Laws.Encoding.getCapabilities fn
  | .negotiateAlgorithms fn asym hash => Laws.Encoding.negotiateAlgorithms fn asym hash
  | .getDigests fn => Laws.Encoding.getDigests fn
  | .getCertificate fn off len => Laws.Encoding.getCertificate fn off len
  | .challenge fn nonce => Laws.Encoding.challenge fn nonce
  | .getMeasurements fn index => Laws.Encoding.getMeasurements fn index
  | .powerControlTick draw temp => Laws.Encoding.powerControlTick draw temp
  | .thermalEmergency temp => Laws.Encoding.thermalEmergency temp
  | .icacheFill core n => Laws.Encoding.icacheFill core n
  | .stallSwitch w => Laws.Encoding.stallSwitch w
  | .warpQuantum w => Laws.Encoding.warpQuantum w
  | .stalagmiteAddApply pa amt => Laws.Encoding.stalagmiteAddApply pa amt
  | .wakeDelivery w => Laws.Encoding.wakeDelivery w
  | .waitRepresent w => Laws.Encoding.waitRepresent w
  | .sgWaitTimeout w => Laws.Encoding.sgWaitTimeout w
  | .queueHeadRead q => Laws.Encoding.queueHeadRead q
  | .queueHeadSubmit q => Laws.Encoding.queueHeadSubmit q
  | .queuePriorityAge q => Laws.Encoding.queuePriorityAge q
  | .kernelStart k => Laws.Encoding.kernelStart k
  | .kernelExpansion k => Laws.Encoding.kernelExpansion k
  | .corePlacement core => Laws.Encoding.corePlacement core
  | .taskTimeout t => Laws.Encoding.taskTimeout t
  | .taskEnd t => Laws.Encoding.taskEnd t
  | .kernelComplete k => Laws.Encoding.kernelComplete k
  | .gracePeriodStart ctx => Laws.Encoding.gracePeriodStart ctx
  | .gracePeriodEnd ctx => Laws.Encoding.gracePeriodEnd ctx
  | .deferredFreeDeliver ctx => Laws.Encoding.deferredFreeDeliver ctx
  | .planeLoadComplete w => Laws.Encoding.planeLoadComplete w
  | .mmaPortEntry w => Laws.Encoding.mmaPortEntry w
  | .matrixPass core => Laws.Encoding.matrixPass core
  | .passRetire core => Laws.Encoding.passRetire core
  | .drainPublish core => Laws.Encoding.drainPublish core
  | .matrixReset core => Laws.Encoding.matrixReset core
  | .copyCommandStart core => Laws.Encoding.copyCommandStart core
  | .copyCommandComplete core => Laws.Encoding.copyCommandComplete core
  | .ringCopyWrite core => Laws.Encoding.ringCopyWrite core
  | .xformCommandStart cluster => Laws.Encoding.xformCommandStart cluster
  | .xformCommandComplete cluster => Laws.Encoding.xformCommandComplete cluster
  | .ownershipRecall core pa => Laws.Encoding.ownershipRecall core pa
  | .faultRecordPush ctx => Laws.Encoding.faultRecordPush ctx
  | .portTrained port lanes rate peer => Laws.Encoding.portTrained port lanes rate peer
  | .portTrainingTimeout port => Laws.Encoding.portTrainingTimeout port
  | .portRetrain port => Laws.Encoding.portRetrain port
  | .flitReceive port f crcOk => Laws.Encoding.flitReceive port f crcOk
  | .controlFlit port allow cls ack => Laws.Encoding.controlFlit port allow cls ack
  | .remoteRequest port => Laws.Encoding.remoteRequest port
  | .remoteResponse port => Laws.Encoding.remoteResponse port
  | .reductionResult pa size op v => Laws.Encoding.reductionResult pa size op v
  | .contextStateError ctx => Laws.Encoding.contextStateError ctx
  | .preemptComplete ctx => Laws.Encoding.preemptComplete ctx
  | .saveComplete ctx => Laws.Encoding.saveComplete ctx
  | .migrationAnswer ctx cause => Laws.Encoding.migrationAnswer ctx cause
  | .teardownRelease ctx => Laws.Encoding.teardownRelease ctx
  | .unassignedOpcode w => Laws.Encoding.unassignedOpcode w
  | .passLeavesArray core => Laws.Encoding.passLeavesArray core
  | .cxlMemAccess write pa len v => Laws.Encoding.cxlMemAccess write pa len v
  | .dbgctlFreeze => Laws.Encoding.dbgctlFreeze
  | .dbgctlThaw => Laws.Encoding.dbgctlThaw
  | .powerGood => Laws.Encoding.powerGood
  | .hostReset => Laws.Encoding.hostReset
  | .imageVerify => Laws.Encoding.imageVerify
  | .thermalTrip => Laws.Encoding.thermalTrip
  | .invalidationComplete => Laws.Encoding.invalidationComplete
  | .checkpointComplete => Laws.Encoding.checkpointComplete
  | .profileCycle => Laws.Encoding.profileCycle

end Sys2Proof

/-!
PROOFS. O7, O9, O10 and O11: the registers of management (R371, R389 to R397), what keeps them and what keeps them legal.
-/

namespace Sys2Proof.Machine

open Sys2Proof

/-! ## Instruction words leave them (R371) -/

theorem issueK_keeps {x : KWord → Enc} {w : KWord} {flow : Flow} {body : Ctx → KWord → Op Unit} {s t : State}
    (e : issueK x w flow body s = .next t) : SameManagement s t := by
  unfold issueK at e
  exact issue_keeps e

theorem issueJ_keeps {x : JWord → Enc} {w : JWord} {flow : Flow} {body : Ctx → JWord → Op Unit} {s t : State}
    (e : issueJ x w flow body s = .next t) : SameManagement s t := by
  unfold issueJ at e
  exact issue_keeps e

theorem issueM_keeps {x : MWord → Enc} {w : MWord} {flow : Flow} {body : Ctx → MWord → Op Unit} {s t : State}
    (e : issueM x w flow body s = .next t) : SameManagement s t := by
  unfold issueM at e
  exact issue_keeps e

theorem issueT_keeps {x : TWord → Enc} {w : TWord} {flow : Flow} {body : Ctx → TWord → Op Unit} {s t : State}
    (e : issueT x w flow body s = .next t) : SameManagement s t := by
  unfold issueT at e
  exact issue_keeps e

theorem issueE_keeps {x : EWord → Enc} {w : EWord} {flow : Flow} {body : Ctx → EWord → Op Unit} {s t : State}
    (e : issueE x w flow body s = .next t) : SameManagement s t := by
  unfold issueE at e
  exact issue_keeps e

/-- Settles O11: a word is issued by the shared `issue`, and a slot without an instruction takes its fault by `State.keeping`. -/
theorem wordsKeepManagement : Obligations.WordsKeepManagement := by
  intro i s t word e
  cases i <;> dsimp only [exec] at e
  case nop | brx | callx | ret | iadd | isub | imul | imulh | imad | iabs | ineg | imin | imax | icmp | sel | mov | movi | lea |
    addc | and | or | xor | andn | shl | shr | sar | rot | bfx | bfi | popc | clz | ctz | brev | perm | fadd | fsub | fmul | ffma |
    fmin | fmax | fcmp | frcp | frsq | fsqrt | fexp2 | flog2 | fsin | fcos | fclass | frnd | cvt | pack | unpk | qnt | dqnt | seed |
    shfl | vote | wred | wscan | plop | pmov =>
    exact issueK_keeps e
  case bra | call | loop | ipf =>
    exact issueJ_keeps e
  case ld | st | stbm | pref | clean | inval | evh | amo | amocas | red =>
    exact issueM_keeps e
  case wload | wfree | mmaRegisters | mmaTile | mmaShapeRecord | accrd | accwr | accz | drain | tdld | tld | tst | ctld | ctinv |
    bixrd =>
    exact issueT_keeps e
  case rgn | exit | mcall | ifence | trap | bkpt | fence | xfence | sgadd | sgwait | sgtest | sgread | sgset | rgresv | rgpub |
    rgawait | rgrel | bjoin | bleave | barrive | bwait | ginfo | gbar | wsync | sloop | yield | pdone | cend | rsb | rse | gpnum |
    gpwait | dfree | xform | poolq | cpy | cpy2 | cpyt | stadv | gset | gclr | launch | spawn | trig | taskq | feat | implq | srrd |
    srwr | clk | resume | kill | trcmk | perfrd | lnkq =>
    exact issueE_keeps e
  case unassignedOpcode => exact State.keeping_next e
  all_goals exact absurd rfl word

/-! ## Reset (R392, R397) -/

theorem vget_vfill {α : Type} (n i : Nat) (x : α) : vget (vfill n x) i x = x := by
  simp only [vget, vfill, List.getD_eq_getElem?_getD, List.getElem?_replicate]
  split <;> rfl

/-- Settles O7: the registers as `State.reset` gives them, a part past the end of its file as its default. -/
theorem resetValues : Obligations.ResetValues := by
  refine ⟨rfl, rfl, rfl, rfl, rfl, fun c => ?_, fun q => ?_, fun p => ?_, rfl⟩
  · exact congrArg Context.st (vget_vfill 64 c .reset)
  · exact congrArg Queue.st (vget_vfill 64 q .reset)
  · exact congrArg Port.st (vget_vfill 18 p .reset)

theorem Mgmt.reset_legal : Mgmt.reset.Legal :=
  { boot := by decide, err := by decide, clkMax := by decide, clkLvl := by decide, cap := by decide, temp := by decide,
    draw := by decide, ring := by decide }

/-- Settles O10. -/
theorem managementLegalAtReset : Obligations.ManagementLegalAtReset := Mgmt.reset_legal

/-! ## What changes them keeps them legal -/

theorem Mgmt.Legal.cleared {s : State} {boot : Nat} {therm : Bool} (hb : boot ≤ 3) : (s.cleared boot therm).mgmt.Legal :=
  { Mgmt.reset_legal with boot := hb }

/-- The end of a command changes MCDONE alone of the legal registers (R389, R391). -/
theorem State.finishCommand_mgmt (s : State) (tag : W32) (status cause result : Nat) :
    (s.finishCommand tag status cause result).mgmt =
      { s.mgmt with mcDone := if s.endingSlot.2 then s.mgmt.mcDone + 1 else s.mgmt.mcDone, busy := none } := by
  unfold State.finishCommand
  dsimp only
  split <;> rfl

theorem State.finishCommand_legal {s : State} (h : s.mgmt.Legal) (tag : W32) (status cause result : Nat) :
    (s.finishCommand tag status cause result).mgmt.Legal := by
  rw [State.finishCommand_mgmt]
  exact { h with }

theorem State.finishGuarded_legal {s : State} (h : s.mgmt.Legal) (s' : State) (tag : W32) (status cause result : Nat) :
    ((s.guarded s').finishCommand tag status cause result).mgmt.Legal :=
  State.finishCommand_legal (s := s.guarded s') h ..

theorem Mgmt.Legal.writeCfg {m : Mgmt} (h : m.Legal) (v : W64) : (m.writeCfg v).Legal := by
  unfold Mgmt.writeCfg
  dsimp only
  split
  · next hc =>
    simp only [Bool.and_eq_true, decide_eq_true_eq] at hc
    obtain ⟨⟨-, lo⟩, hi⟩ := hc
    exact { h with ring := fun _ => ⟨lo, hi⟩ }
  · exact { h with ring := fun e => absurd e Bool.false_ne_true }

theorem Mgmt.Legal.writeFill {m : Mgmt} (h : m.Legal) (v : W64) : (m.writeFill v).Legal := by
  unfold Mgmt.writeFill
  split
  · exact h
  · exact { h with }

theorem clampCap_bounds (n : Nat) : 1000 ≤ clampCap n ∧ clampCap n ≤ 3000 := by
  unfold clampCap
  split
  · omega
  · split <;> omega

theorem cap16_lt (n : Nat) : cap16 n < 65536 := by unfold cap16; omega

/-- The clock rises only below CLKMAX (R396). -/
theorem nextLevel_le {m : Mgmt} (h : m.Legal) (draw temp : Nat) : nextLevel m draw temp ≤ 15 := by
  have := h.clkMax
  have := h.clkLvl
  unfold nextLevel
  split
  · omega
  · split <;> omega

theorem State.writeBootgo_legal {s : State} (h : s.mgmt.Legal) (a : W64) : (s.writeBootgo a).mgmt.Legal := by
  unfold State.writeBootgo
  split
  · exact h
  · exact { h with boot := (by decide : 2 ≤ 3) }

theorem State.writeBar_legal {s : State} (h : s.mgmt.Legal) (off : Nat) (v : W64) : (s.writeBar off v).mgmt.Legal := by
  unfold State.writeBar
  split
  · exact { h with }
  · exact State.writeBootgo_legal h v
  · exact { h with
      clkMax := Nat.le_of_lt_succ (v.extractLsb' 16 4).isLt
      cap := clampCap_bounds _ }
  · exact { h with }
  · exact h.writeCfg v
  · exact h.writeFill v
  · exact h

/-- The error that a verification leaves is one of R393's four. -/
theorem imageError_le (m : Memory) : imageError m ≤ 4 := by
  unfold imageError
  dsimp only
  repeat' split
  all_goals decide

theorem State.answerMigration_legal {s : State} (h : s.mgmt.Legal) (ctx cause : Nat) : (s.answerMigration ctx cause).mgmt.Legal := by
  unfold State.answerMigration
  split
  · split
    · exact h
    · split <;> exact State.finishGuarded_legal h ..
  · exact h

/-! ## Outcomes with legal registers -/

/-- An outcome leaves the management registers legal. -/
def Out.Legal (o : Out) : Prop := ∀ t, o = .next t → t.mgmt.Legal

theorem Out.legal_next {t : State} (h : t.mgmt.Legal) : Out.Legal (.next t) := fun _ e => by cases e; exact h

/-- What leaves the registers as they were leaves them legal. -/
theorem SameManagement.legal {s t : State} (k : SameManagement s t) (h : s.mgmt.Legal) : t.mgmt.Legal := by
  rw [k.mgmt]; exact h

theorem State.keeping_legal {s : State} (h : s.mgmt.Legal) (o : Out) : Out.Legal (s.keeping o) :=
  fun _ e => (State.keeping_next e).legal h

theorem Ended.out_legal {s : State} (h : s.mgmt.Legal) (tag : W32) (e : Ended) : Out.Legal (e.out s tag) := by
  cases e with
  | done s' r => exact Out.legal_next (State.finishCommand_legal (s := { s' with mgmt := s.mgmt }) h ..)
  | invalid => exact Out.legal_next (State.finishCommand_legal h ..)
  | refused c s' => exact Out.legal_next (State.finishCommand_legal (s := { s' with mgmt := s.mgmt }) h ..)
  | small n => exact Out.legal_next (State.finishCommand_legal h ..)
  | begun s' b => exact Out.legal_next { h with }
  | held s' => exact Out.legal_next h

/-- A command of the ring, however it ends. -/
theorem runCommand_legal {s : State} (h : s.mgmt.Legal) (used : List (Nat × Nat)) (f : State → Ended) (c : Command) :
    Out.Legal (runCommand used f c s) := by
  unfold runCommand
  split
  · exact Out.legal_next h
  split
  · exact Out.legal_next (State.finishCommand_legal h ..)
  split
  · exact Out.legal_next (State.finishCommand_legal h ..)
  · exact Ended.out_legal h _ _

section
variable {s : State} (h : s.mgmt.Legal)
include h

theorem execRegisterWrite_legal (r : RegTarget) (v : W64) : Out.Legal (execRegisterWrite r v s) := by
  unfold execRegisterWrite
  split
  · exact Out.legal_next (State.writeBar_legal h ..)
  · split
    · exact State.keeping_legal h _
    · exact Out.legal_next h
  · split
    · exact State.keeping_legal h _
    · exact Out.legal_next h

theorem execNegotiateAlgorithms_legal (fn : Nat) (asym hash : W32) : Out.Legal (execNegotiateAlgorithms fn asym hash s) := by
  unfold execNegotiateAlgorithms State.spdmSend
  split
  · exact Out.legal_next { h with }
  · exact Out.legal_next h

theorem execPowerControlTick_legal (draw temp : Nat) : Out.Legal (execPowerControlTick draw temp s) := by
  unfold execPowerControlTick
  split
  · exact Out.legal_next h
  · exact Out.legal_next { h with clkLvl := nextLevel_le h draw temp, temp := cap16_lt temp, draw := cap16_lt draw }

theorem execThermalEmergency_legal (temp : Nat) : Out.Legal (execThermalEmergency temp s) := by
  unfold execThermalEmergency
  split
  · exact Out.legal_next h
  · exact Out.legal_next { h with clkLvl := Nat.zero_le 15, temp := cap16_lt temp }

theorem execRemoteResponse_legal (port : Nat) : Out.Legal (execRemoteResponse port s) := by
  unfold execRemoteResponse
  split
  · exact Out.legal_next h
  split
  · split
    · split
      · exact State.keeping_legal h _
      · exact Out.legal_next h
    · exact State.keeping_legal h _
  · dsimp only
    split
    · split
      · exact Out.legal_next (State.answerMigration_legal (s := s.guarded (s.take ..)) h ..)
      · exact Out.legal_next h
    · exact Out.legal_next h
  · exact Out.legal_next h

theorem execPreemptComplete_legal (ctx : Nat) : Out.Legal (execPreemptComplete ctx s) := by
  unfold execPreemptComplete
  split
  · split
    · exact Out.legal_next h
    split
    · exact Out.legal_next (State.finishCommand_legal h ..)
    split
    · exact Out.legal_next h
    dsimp only
    split
    · exact Out.legal_next (State.finishGuarded_legal h ..)
    · exact State.keeping_legal h _
  · exact Out.legal_next h

theorem execSaveComplete_legal (ctx : Nat) : Out.Legal (execSaveComplete ctx s) := by
  unfold execSaveComplete
  split
  · split
    · exact Out.legal_next h
    split
    · exact Out.legal_next (State.finishCommand_legal h ..)
    · exact Out.legal_next (State.finishGuarded_legal h ..)
  · exact Out.legal_next h

theorem execMigrationAnswer_legal (ctx cause : Nat) : Out.Legal (execMigrationAnswer ctx cause s) := by
  unfold execMigrationAnswer
  split
  · exact Out.legal_next (State.answerMigration_legal h ..)
  · exact Out.legal_next h

theorem execPowerGood_legal : Out.Legal (execPowerGood s) := by
  unfold execPowerGood
  split
  · exact Out.legal_next (Mgmt.Legal.cleared (by decide))
  · exact Out.legal_next h

theorem execHostReset_legal : Out.Legal (execHostReset s) := by
  unfold execHostReset
  split
  · exact Out.legal_next (Mgmt.Legal.cleared (by decide))
  · exact Out.legal_next (Mgmt.Legal.cleared (by decide))
  · exact Out.legal_next h

theorem execThermalTrip_legal : Out.Legal (execThermalTrip s) := by
  unfold execThermalTrip
  split
  · exact Out.legal_next (Mgmt.Legal.cleared (by decide))
  · exact Out.legal_next h

theorem execImageVerify_legal : Out.Legal (execImageVerify s) := by
  unfold execImageVerify
  have err := imageError_le s.mgmt.image
  split
  · exact Out.legal_next h
  split
  · exact Out.legal_next { h with boot := (by decide : 3 ≤ 3), err := (by decide : 0 ≤ 4) }
  · exact Out.legal_next { h with boot := (by decide : 1 ≤ 3), err := err }

theorem execInvalidationComplete_legal : Out.Legal (execInvalidationComplete s) := by
  unfold execInvalidationComplete
  split
  · exact Out.legal_next h
  · next x rest _ =>
    extract_lets held u r v
    have begun : u.mgmt.Legal := by dsimp only [u]; split <;> exact h
    split
    · exact Out.legal_next begun
    · split
      · exact Out.legal_next (State.finishGuarded_legal begun ..)
      · exact Out.legal_next begun

theorem execCheckpointComplete_legal : Out.Legal (execCheckpointComplete s) := by
  unfold execCheckpointComplete
  split
  · split
    · exact Out.legal_next h
    dsimp only
    split
    · exact Out.legal_next (State.finishCommand_legal h ..)
    · exact Out.legal_next (State.finishGuarded_legal h ..)
  · exact Out.legal_next h

/-- Every instruction and every step of the table leaves the registers legal: words and the steps of other agents leave them as they
were, and the management interface's own keep their limits. -/
theorem exec_legal (i : Instr) : Out.Legal (exec i s) := by
  intro t e
  by_cases word : encodeWord i = none
  case neg => exact (wordsKeepManagement i s t word e).legal h
  cases i <;> dsimp only [exec] at e
  case queueEnable | queueDisable | queueSuspend | queueResume | queueSkip | queueRetry | queueDrain | copyEngineRetry |
    copyEngineDrop | xformEngineRetry | xformEngineDrop | tlbinvWrite | fringWrite | dresResume | dresKill | traceEnable |
    getVersion | getCapabilities | getDigests | getCertificate | challenge | getMeasurements | icacheFill | stallSwitch |
    warpQuantum | stalagmiteAddApply | wakeDelivery | waitRepresent | sgWaitTimeout | queueHeadRead | queueHeadSubmit |
    queuePriorityAge | kernelStart | kernelExpansion | corePlacement | taskTimeout | taskEnd | kernelComplete | gracePeriodStart |
    gracePeriodEnd | deferredFreeDeliver | planeLoadComplete | mmaPortEntry | matrixPass | passRetire | drainPublish | matrixReset |
    copyCommandStart | copyCommandComplete | ringCopyWrite | xformCommandStart | xformCommandComplete | ownershipRecall |
    faultRecordPush | portTrained | portTrainingTimeout | portRetrain | flitReceive | controlFlit | remoteRequest |
    reductionResult | contextStateError | teardownRelease | unassignedOpcode | passLeavesArray | cxlMemAccess | dbgctlFreeze |
    dbgctlThaw | profileCycle =>
    exact State.keeping_legal h _ t e
  case create | assign | negotiate | start | preempt | save | restore | migrateOut | migrateIn | teardown | srwrite | srread |
    warpresume | warpkill | portenable | portdisable | route | exportRange | window | debugset | tlbinv | checkpoint =>
    exact runCommand_legal h _ _ _ t e
  case registerWrite r v => exact execRegisterWrite_legal h r v t e
  case bootgo a => exact Out.legal_next (State.writeBootgo_legal h a) t e
  case mccfgEnable v => exact Out.legal_next (h.writeCfg v) t e
  case mcfill v => exact Out.legal_next (h.writeFill v) t e
  case negotiateAlgorithms fn asym hash => exact execNegotiateAlgorithms_legal h fn asym hash t e
  case powerControlTick draw temp => exact execPowerControlTick_legal h draw temp t e
  case thermalEmergency temp => exact execThermalEmergency_legal h temp t e
  case remoteResponse port => exact execRemoteResponse_legal h port t e
  case preemptComplete ctx => exact execPreemptComplete_legal h ctx t e
  case saveComplete ctx => exact execSaveComplete_legal h ctx t e
  case migrationAnswer ctx cause => exact execMigrationAnswer_legal h ctx cause t e
  case powerGood => exact execPowerGood_legal h t e
  case hostReset => exact execHostReset_legal h t e
  case imageVerify => exact execImageVerify_legal h t e
  case thermalTrip => exact execThermalTrip_legal h t e
  case invalidationComplete => exact execInvalidationComplete_legal h t e
  case checkpointComplete => exact execCheckpointComplete_legal h t e
  all_goals exact absurd word (Option.some_ne_none _)

end

/-! ## A step -/

/-- A turn of an agent other than the management interface. -/
theorem State.keepingTurn_legal {s : State} (h : s.mgmt.Legal) (x : Turned) : Out.Legal (s.keepingTurn x).outcome := by
  cases x with
  | run i s' => exact exec_legal (s := s.guarded s') h i
  | rest s' => exact Out.legal_next (t := s.guarded s') h

theorem State.coreTurn_legal {s : State} (h : s.mgmt.Legal) (core wid : Nat) : Out.Legal (s.coreTurn core wid).outcome :=
  State.keepingTurn_legal h _

theorem State.ringTurn_legal {s : State} (h : s.mgmt.Legal) : Out.Legal s.ringTurn.outcome := by
  unfold State.ringTurn
  split
  · exact Out.legal_next h
  split
  · exact exec_legal (s := { s with issuer := none }) h _
  · exact Out.legal_next (State.finishCommand_legal h ..)

theorem State.nextTurn_mgmt (s : State) : s.nextTurn.2.mgmt = s.mgmt := by
  unfold State.nextTurn
  split <;> rfl

/-- Settles O9: whoever's turn it is, its step leaves the registers legal. -/
theorem managementStaysLegal : Obligations.ManagementStaysLegal := by
  intro s t h e
  have h' : s.nextTurn.2.mgmt.Legal := by rw [State.nextTurn_mgmt]; exact h
  unfold step at e
  generalize s.nextTurn = n at h' e
  split at e
  · exact State.coreTurn_legal h' _ _ t e
  · next u => exact exec_legal (s := { u with issuer := none }) h' _ t e
  · exact State.ringTurn_legal h' t e
  · exact Out.legal_next h' t e

end Sys2Proof.Machine

/-!
PROOFS. The issue of a word in each format, and O12 to O16: the instructions that compute from what their warp holds (R95, R98 to R119).
-/

namespace Sys2Proof.Machine

open Sys2Proof

/-! ## The issue of a word, format by format -/

section
variable {flow : Flow} {s t : State} {v : View} {y : Trap}

theorem issueK_run {x : KWord → Enc} {w : KWord} {body : Ctx → KWord → Op Unit} (i : IssuesK x w flow s v)
    (b : Runs (body v.c (v.seenK w)) s () t) : issueK x w flow body s = .next (v.ended flow s t) :=
  i.run (body := fun c h => body c { w with h := h }) b

theorem issueE_run {x : EWord → Enc} {w : EWord} {body : Ctx → EWord → Op Unit} (i : IssuesE x w flow s v)
    (b : Runs (body v.c (v.seenE w)) s () t) : issueE x w flow body s = .next (v.ended flow s t) :=
  i.run (body := fun c h => body c { w with h := h }) b

theorem issueM_run {x : MWord → Enc} {w : MWord} {body : Ctx → MWord → Op Unit} (i : IssuesM x w flow s v)
    (b : Runs (body v.c (v.seenM w)) s () t) : issueM x w flow body s = .next (v.ended flow s t) :=
  i.run (body := fun c h => body c { w with h := h }) b

theorem issueJ_run {x : JWord → Enc} {w : JWord} {body : Ctx → JWord → Op Unit} (i : IssuesJ x w flow s v)
    (b : Runs (body v.c (v.seenJ w)) s () t) : issueJ x w flow body s = .next (v.ended flow s t) :=
  i.run (body := fun c h => body c { w with h := h }) b

theorem issueT_run {x : TWord → Enc} {w : TWord} {body : Ctx → TWord → Op Unit} (i : IssuesT x w flow s v)
    (b : Runs (body v.c (v.seenT w)) s () t) : issueT x w flow body s = .next (v.ended flow s t) :=
  i.run (body := fun c h => body c { w with h := h }) b

theorem issueK_traps {x : KWord → Enc} {w : KWord} {body : Ctx → KWord → Op Unit} (i : IssuesK x w flow s v)
    (b : body v.c (v.seenK w) s = .error (.trap y)) : issueK x w flow body s = .next (v.trapped s y) :=
  i.traps (body := fun c h => body c { w with h := h }) b

theorem issueK_trapsAt {x : KWord → Enc} {w : KWord} {body : Ctx → KWord → Op Unit} (i : IssuesK x w flow s v)
    (b : body v.c (v.seenK w) s = .error (.trapAt t y)) :
    issueK x w flow body s = .next (s.guarded (t.takeFault v.c.task v.c.warp v.c.pc y)) :=
  i.trapsAt (body := fun c h => body c { w with h := h }) b

end

/-! ## FLAGS and FP_TRAP (R56, R57) -/

/-- Flags none of which FPTE enables are set in FLAGS. -/
theorem raise_run {c : Ctx} {fl : W32} (mask : BitVec 16) (s : State) (h : fl &&& c.fpte = 0) :
    Runs (raise c fl mask) s () (if fl = 0 then s else s.modWarp c.task c.warp fun w => w.orFlags fl) := by
  simp [Runs, raise, h]

/-- A raised flag that FPTE enables stops the instruction, with all raised flags set in FLAGS. -/
theorem raise_traps {c : Ctx} {fl : W32} (mask : BitVec 16) (s : State) (h : fl &&& c.fpte ≠ 0) :
    raise c fl mask s = .error (.trapAt (s.modWarp c.task c.warp fun w => w.orFlags fl)
      { cause := .fpTrap, mask := mask, extra := fl.toNat }) := by
  have hf : fl ≠ 0 := by
    rintro rfl
    exact h BitVec.zero_and
  unfold raise
  dsimp only
  rw [if_neg h, if_neg hf]

/-- The results of a computing instruction are not written when a flag that they raise traps. -/
theorem aluRun_traps {x : Head → Enc} {h : Head} {imm : W32} {flow : Flow} {s : State} {v : View} (i : Issues x h imm flow s v)
    (hd : Head) (wd : Width) (f : Warp → Tid → AluOut)
    (hf : raisedFlags (v.c.units.map fun t => (t, f v.w t)) &&& v.c.fpte ≠ 0) :
    aluRun v.c hd wd f s = .error (.trapAt (v.onWarp s fun w => w.orFlags (raisedFlags (v.c.units.map fun t => (t, f v.w t))))
      { cause := .fpTrap, mask := raisers v.c (v.c.units.map fun t => (t, f v.w t)),
        extra := (raisedFlags (v.c.units.map fun t => (t, f v.w t))).toNat }) := by
  unfold aluRun
  rw [Op.bind_of i.warp, Op.bind_run, raise_traps _ _ hf]
  rfl

/-! ## Instructions that compute (R98) -/

/-- An instruction whose body is the shared run of computing instructions computes what the run's function gives. -/
theorem computes_of_aluRun {i : KWord → Instr} {x : KWord → Enc} {wd : KWord → Width} {f : Ctx → KWord → Warp → Tid → AluOut}
    (h : ∀ w s, exec (i w) s = issueK x w .straight (fun c k => aluRun c k.h (wd k) (f c k)) s) : Computes i x wd f := by
  intro w s v iss
  rw [h]
  refine ⟨fun hf => ?_, fun hf => ?_⟩
  · exact issueK_run iss (aluRun_run iss _ (f v.c (v.seenK w)) hf)
  · exact issueK_trapsAt iss (aluRun_traps iss v.h _ (f v.c (v.seenK w)) hf)

/-- Settles O12: every integer and bit instruction is the shared run of its function. -/
theorem integerAndBitInstructionsComplete : Obligations.IntegerAndBitInstructionsComplete := by
  refine ⟨⟨?_, ?_, ?_, ?_, ?_, ?_, ?_, ?_, ?_, ?_⟩, ?_, ?_, ?_, ?_, ?_, ?_, ?_, ?_, ?_, ?_, ?_, ?_, ?_, ?_, ?_⟩
  all_goals exact computes_of_aluRun fun _ _ => rfl

/-- Settles O13 in the same way. -/
theorem selectAndMoveInstructionsComplete : Obligations.SelectAndMoveInstructionsComplete := by
  refine ⟨?_, ?_, ?_, ?_, ?_, ?_, ?_, ?_⟩
  all_goals exact computes_of_aluRun fun _ _ => rfl

/-- Settles O14 in the same way. -/
theorem floatAndMathInstructionsComplete : Obligations.FloatAndMathInstructionsComplete := by
  refine ⟨⟨?_, ?_, ?_, ?_, ?_, ?_, ?_, ?_, ?_⟩, ?_, ?_, ?_, ?_, ?_, ?_, ?_⟩
  all_goals exact computes_of_aluRun fun _ _ => rfl

/-! ## DQNT and QNT (R117, R118) -/

/-- The participants of a DQNT whose scale words are reserved. -/
def dqntBad (c : Ctx) (w : Warp) (a : Selector) : List Tid :=
  c.parts.filter fun t => !scaleOk ((read64 c w t a).extractLsb' 32 32) true

/-- What DQNT gives a unit. -/
def dqntGives (c : Ctx) (k : KWord) (w : Warp) (t : Tid) : AluOut :=
  { val := some (dqntValue (elemTy (srcType k)).f (read64 c w t k.h.a)).1,
    flags := (dqntValue (elemTy (srcType k)).f (read64 c w t k.h.a)).2 }

/-- The body of DQNT: its check, then the shared run. -/
def dqntRun (c : Ctx) (k : KWord) : Op Unit := do
  let w ← Op.warp c
  if !(dqntBad c w k.h.a).isEmpty then Op.trap .decodeScale (maskOf (dqntBad c w k.h.a))
  aluRun c k.h .w64 (dqntGives c k)

theorem exec_dqnt (w : KWord) (s : State) : exec (.dqnt w) s = issueK encOfDqnt w .straight dqntRun s := rfl

section
variable {w : KWord} {s : State} {v : View} (i : IssuesK encOfDqnt w .straight s v)
include i

theorem dqntRun_of_good (h : dqntBad v.c v.w v.h.a = []) :
    dqntRun v.c (v.seenK w) s = aluRun v.c v.h .w64 (dqntGives v.c (v.seenK w)) s := by
  unfold dqntRun
  rw [Op.bind_of i.warp, if_neg (by simpa [View.seenK] using h)]
  rfl

theorem exec_dqnt_bad (h : dqntBad v.c v.w v.h.a ≠ []) :
    exec (.dqnt w) s = .next (v.trapped s { cause := .decodeScale, mask := maskOf (dqntBad v.c v.w v.h.a) }) := by
  refine issueK_traps (body := dqntRun) i ?_
  unfold dqntRun
  rw [Op.bind_of i.warp, if_pos (by simpa [View.seenK] using h)]
  rfl

end

/-- What QNT gives a participant, from the codes and the scale of the warp's block. -/
def qntGives (k : KWord) (w : Warp) (q : Quantised) (t : Tid) : AluOut :=
  { val := some (q.scale ++ BitVec.ofNat 32 ((q.elems.getD (2 * t.val) (0, 0)).1 +
      (q.elems.getD (2 * t.val + 1) (0, 0)).1 * 2 ^ codeShift (elemTy k.tyN).f)),
    seed := if Mode.ofCode k.mode = .rsr then some (srands 2 (w.thread t).seed).2 else none }

/-- The quantised block of a QNT. -/
def qntOf (c : Ctx) (k : KWord) (w : Warp) : Quantised :=
  quantise (qntBlock c w k.h.a) (elemTy k.tyN).f (k.hi.testBit 0) (k.hi.testBit 1) (Mode.ofCode k.mode) (qntDraws c w (Mode.ofCode k.mode))

/-- The body of QNT. -/
def qntRun (c : Ctx) (k : KWord) : Op Unit := do
  let w ← Op.warp c
  if c.parts.isEmpty then return ()
  raise c (qntOf c k w).flags (qntRaisers c (qntOf c k w))
  Op.modWarp c (applyAll c k.h .w64 (c.parts.map fun t => (t, qntGives k w (qntOf c k w) t)))

theorem exec_qnt (w : KWord) (s : State) : exec (.qnt w) s = issueK encOfQnt w .straight qntRun s := rfl

section
variable {w : KWord} {s : State} {v : View} (i : IssuesK encOfQnt w .straight s v)
include i

/-- QNT with participants: its flags, then its results. -/
theorem qntRun_of_parts (h : v.c.parts ≠ []) :
    qntRun v.c (v.seenK w) s =
      (do raise v.c (qntOf v.c (v.seenK w) v.w).flags (qntRaisers v.c (qntOf v.c (v.seenK w) v.w))
          Op.modWarp v.c (applyAll v.c v.h .w64
            (v.c.parts.map fun t => (t, qntGives (v.seenK w) v.w (qntOf v.c (v.seenK w) v.w) t))) : Op Unit) s := by
  unfold qntRun
  rw [Op.bind_of i.warp, if_neg (by simpa [View.seenK] using h)]
  rfl

theorem exec_qnt_traps (h : v.c.parts ≠ []) (hf : (qntOf v.c (v.seenK w) v.w).flags &&& v.c.fpte ≠ 0) :
    exec (.qnt w) s = .next (s.guarded ((v.onWarp s fun x => x.orFlags (qntOf v.c (v.seenK w) v.w).flags).takeFault v.c.task
      v.c.warp v.c.pc { cause := .fpTrap, mask := qntRaisers v.c (qntOf v.c (v.seenK w) v.w),
                        extra := (qntOf v.c (v.seenK w) v.w).flags.toNat })) := by
  refine issueK_trapsAt (body := qntRun) i ?_
  rw [qntRun_of_parts i h, Op.bind_run, raise_traps _ _ hf]
  rfl

theorem exec_qnt_run (h : v.c.parts ≠ []) (hf : (qntOf v.c (v.seenK w) v.w).flags &&& v.c.fpte = 0) :
    exec (.qnt w) s = .next (v.ended .straight s (v.onWarp
      (if (qntOf v.c (v.seenK w) v.w).flags = 0 then s else v.onWarp s fun x => x.orFlags (qntOf v.c (v.seenK w) v.w).flags)
      (applyAll v.c v.h .w64 (v.c.parts.map fun t => (t, qntGives (v.seenK w) v.w (qntOf v.c (v.seenK w) v.w) t))))) := by
  refine issueK_run (body := qntRun) i ?_
  show qntRun _ _ _ = _
  rw [qntRun_of_parts i h, Op.bind_of (raise_run _ _ hf)]
  rfl

end

/-- Settles O15: CVT, PACK and UNPK are the shared run; DQNT is it after its check; QNT raises its flags and writes its codes. -/
theorem conversionsComplete : Obligations.ConversionsComplete := by
  refine ⟨computes_of_aluRun fun _ _ => rfl, computes_of_aluRun fun _ _ => rfl, computes_of_aluRun fun _ _ => rfl,
    fun w s v i good => ?_, fun w s v i => exec_dqnt_bad i, fun w s v i parts => exec_qnt_traps i parts,
    fun w s v i parts => ?_⟩
  · refine ⟨fun hf => ?_, fun hf => ?_⟩
    · refine issueK_run (body := dqntRun) i ((dqntRun_of_good i good).trans ?_)
      exact aluRun_run i .w64 (dqntGives v.c (v.seenK w)) hf
    · refine issueK_trapsAt (body := dqntRun) i ((dqntRun_of_good i good).trans ?_)
      exact aluRun_traps i v.h .w64 (dqntGives v.c (v.seenK w)) hf
  · dsimp only [quantiseBlock]
    intro hf
    have code (q : Quantised) (n : Nat) : (q.elems.map (·.1)).getD n 0 = (q.elems.getD n (0, 0)).1 :=
      List.getD_map q.elems (0, 0) Prod.fst
    simp only [code]
    exact exec_qnt_run i parts hf

/-! ## Instructions over the threads of a warp (R95) -/

section
variable {w : KWord} {s : State} {v : View}

theorem exec_shfl (i : IssuesK encOfShfl w .straight s v) :
    exec (.shfl w) s = .next (v.ended .straight s (v.onWarp s fun x =>
      (shflGives v.c (v.seenK w) v.w).foldl (fun x o => putResult v.c v.h (tyWidth w.tyN) x o.1 o.2) x)) := by
  show execShfl w s = _
  refine issueK_run i ?_
  dsimp only [Runs]
  rw [Op.bind_of i.warp]
  rfl

theorem exec_vote (i : IssuesK encOfVote w .straight s v) :
    exec (.vote w) s = .next (v.ended .straight s (if v.c.executing = [] then s else v.onWarp s fun x =>
      (v.c.units.map fun t => (t, voteGives v.c (v.seenK w) v.w)).foldl
        (fun x o => putResult v.c v.h (tyWidth w.tyN) x o.1 o.2) x)) := by
  show execVote w s = _
  refine issueK_run i ?_
  dsimp only [Runs]
  rw [Op.bind_of i.warp]
  by_cases h : v.c.executing = []
  · simp [h]
  · simp only [List.isEmpty_iff, h, if_false]
    rfl

theorem exec_wred {y : Tid × W64} {ys : List (Tid × W64)} (i : IssuesK encOfWred w .straight s v)
    (hv : crossValues v.c v.w (v.seenK w) v.h.a = y :: ys) :
    let xs := reduceSteps (reduceStep w.tyN w.hi w.sat (Mode.ofCode w.mode)) y.2 ys
    let fl := xs.foldl (fun f x => f ||| x.2.2) 0
    fl &&& v.c.fpte = 0 →
    exec (.wred w) s = .next (v.ended .straight s
      (v.onWarp (if fl = 0 then s else v.onWarp s fun x => x.orFlags fl) fun x =>
        (v.c.units.map fun t => (t, (xs.getLast?.map (·.2.1)).getD y.2)).foldl
          (fun x o => putResult v.c v.h (tyWidth w.tyN) x o.1 o.2) x)) := by
  intro xs fl hf
  have last : (xs.getLast?.map (·.2.1)).getD y.2 = match xs.getLast? with | some x => x.2.1 | none => y.2 := by
    cases xs.getLast? <;> rfl
  rw [last]
  show execWred w s = _
  refine issueK_run i ?_
  dsimp only [Runs]
  rw [Op.bind_of i.warp, show crossValues v.c v.w (v.seenK w) (v.seenK w).h.a = y :: ys from hv]
  exact Op.bind_of (raise_run _ _ hf)

theorem exec_wscan {y : Tid × W64} {ys : List (Tid × W64)} (i : IssuesK encOfWscan w .straight s v)
    (hv : crossValues v.c v.w (v.seenK w) v.h.a = y :: ys) :
    let xs := reduceSteps (reduceStep w.tyN w.hi w.sat (Mode.ofCode w.mode)) (scanSeed v.c v.w (v.seenK w) y.1) (y :: ys)
    let fl := xs.foldl (fun f x => f ||| x.2.2) 0
    fl &&& v.c.fpte = 0 →
    exec (.wscan w) s = .next (v.ended .straight s
      (v.onWarp (if fl = 0 then s else v.onWarp s fun x => x.orFlags fl) fun x =>
        (xs.map fun x => (x.1, x.2.1)).foldl (fun x o => putResult v.c v.h (tyWidth w.tyN) x o.1 o.2) x)) := by
  intro xs fl hf
  show execWscan w s = _
  refine issueK_run i ?_
  dsimp only [Runs]
  rw [Op.bind_of i.warp, show crossValues v.c v.w (v.seenK w) (v.seenK w).h.a = y :: ys from hv]
  exact Op.bind_of (raise_run _ _ hf)

end

/-- Settles O16. -/
theorem crossThreadInstructionsComplete : Obligations.CrossThreadInstructionsComplete :=
  ⟨fun _ _ _ => exec_shfl, fun _ _ _ => exec_vote, fun _ _ _ _ _ => exec_wred, fun _ _ _ _ _ => exec_wscan⟩

end Sys2Proof.Machine

/-!
PROOFS. O17, O18 and O20: control transfers, the instructions of a thread's regions and lines, and sump loops (R87 to R91, R241 to R255).
-/

namespace Sys2Proof.Machine

open Sys2Proof

/-! ## Operations in turn -/

section
variable {α β : Type} {s t r : State}

/-- An operation that runs, and then one that runs after it. -/
theorem Runs.bind {m : Op α} {f : α → Op β} {a : α} {b : β} (h : Runs m s a t) (k : Runs (f a) t b r) : Runs (m >>= f) s b r :=
  (Op.bind_of h).trans k

theorem Runs.pure (a : α) (s : State) : Runs (pure a : Op α) s a s := rfl

theorem Runs.modify (f : State → State) (s : State) : Runs (Op.modify f) s () (f s) := rfl

theorem Runs.yes {p : Prop} [Decidable p] {m n : Op α} {a : α} (h : p) (k : Runs m s a t) : Runs (if p then m else n) s a t := by
  rw [if_pos h]
  exact k

theorem Runs.no {p : Prop} [Decidable p] {m n : Op α} {a : α} (h : ¬ p) (k : Runs n s a t) : Runs (if p then m else n) s a t := by
  rw [if_neg h]
  exact k

/-- The first check of most bodies, for a word with participants. -/
theorem Runs.some_parts {ts : List Tid} {m n : Op α} {a : α} (h : ts ≠ []) (k : Runs n s a t) :
    Runs (if ts.isEmpty then m else n) s a t :=
  .no (by simpa using h) k

theorem Runs.modWarp (c : Ctx) (f : Warp → Warp) (s : State) : Runs (Op.modWarp c f) s () (s.modWarp c.task c.warp f) := rfl

end

/-! ## Transfers (R88) -/

section
variable {s : State} {v : View} {k : Aim} {hops : List Hop} {write : Warp → Hop → Warp}

/-- A J-format word whose body is a transfer. -/
theorem transfers_of_issueJ {i : JWord → Instr} {x : JWord → Enc} {w : JWord} {body : Ctx → JWord → Op Unit}
    (h : exec (i w) s = issueJ x w .transfer body s) (iss : IssuesJ x w .transfer s v)
    (hb : body v.c (v.seenJ w) s = Op.transfer v.c k hops write s) : v.Transfers k hops write s (exec (i w) s) := by
  intro lines s₁ w₁ hl hw hbad
  rw [h]
  exact issueJ_run iss (hb.trans (Op.transfer_run hl hw hbad))

/-- A K-format word whose body is a transfer. -/
theorem transfers_of_issueK {i : KWord → Instr} {x : KWord → Enc} {w : KWord} {body : Ctx → KWord → Op Unit}
    (h : exec (i w) s = issueK x w .transfer body s) (iss : IssuesK x w .transfer s v)
    (hb : body v.c (v.seenK w) s = Op.transfer v.c k hops write s) : v.Transfers k hops write s (exec (i w) s) := by
  intro lines s₁ w₁ hl hw hbad
  rw [h]
  exact issueK_run iss (hb.trans (Op.transfer_run hl hw hbad))

theorem targetRun_of_warp {c : Ctx} {link : Bool} {w : KWord} {x : Warp} (h : Runs (Op.warp c) s x s) :
    targetRun k link c w s = Op.transfer c k (c.units.map fun t => { tid := t, target := read64 c x t w.h.a, taken := true })
      (if link then putLink c w.h .w64 fun _ => nextPc c.pc else fun w _ => w) s := by
  unfold targetRun
  rw [Op.bind_of h]

end

/-- Settles O17: the body of each is the transfer of R88, after the read of the warp where the target stands in a register. -/
theorem transfersComplete : Obligations.TransfersComplete := by
  refine ⟨fun w s v i => ?_, fun w s v i => ?_, fun w s v i => ?_, fun w s v i => ?_, fun w s v i => ?_, fun w s v i => ?_⟩
  · exact transfers_of_issueJ (show _ = execBra w s from rfl) i rfl
  · exact transfers_of_issueJ (show _ = execCall w s from rfl) i rfl
  · exact transfers_of_issueK (show _ = execBrx w s from rfl) i (targetRun_of_warp i.warp)
  · exact transfers_of_issueK (show _ = execCallx w s from rfl) i (targetRun_of_warp i.warp)
  · exact transfers_of_issueK (show _ = execRet w s from rfl) i (targetRun_of_warp i.warp)
  · refine transfers_of_issueJ (show _ = execLoop w s from rfl) i ?_
    rw [Op.bind_of i.warp]
    simp only [decide_eq_true_eq]
    rfl

/-! ## Regions, lines and the end of a thread (R87, R89 to R91) -/

theorem exec_exit {w : EWord} {s : State} {v : View} {t : Task} (i : IssuesE encOfExit w .boundary s v) (ht : s.task? v.c.task = some t)
    (hp : v.c.parts ≠ []) (hm : v.w.sump.mode = .inactive) (hr : Runs (Op.release v.c (maskOf v.c.parts)) s () s) :
    let s₁ := v.onWarp s fun x => x.exitThreads v.c.parts
    let s₂ := if t.counted then s₁.countDown v.c.kid (v.c.parts.filter fun i => !(v.w.thread i).triggered).length else s₁
    exec (.exit w) s = .next (v.ended .boundary s ((s₂.wsyncExited v.c.task v.c.warp).endSwitch v.c.task v.c.warp)) := by
  intro s₁ s₂
  show execExit w s = _
  refine issueE_run i (.bind i.warp <| .bind (Op.task_run ht) <| .some_parts hp <| .no (not_not.2 hm) <| .bind hr <|
    .bind (.modWarp ..) ?_)
  by_cases hc : t.counted
  · rw [show s₂ = _ from if_pos hc]
    exact .yes hc <| .bind (.modify ..) <| .bind (.modify ..) (.modify ..)
  · rw [show s₂ = _ from if_neg hc]
    exact .no hc <| .bind (.modify ..) (.modify ..)

/-- Settles O18. -/
theorem threadInstructionsComplete : Obligations.ThreadInstructionsComplete := by
  refine ⟨fun w s v i => ?_, fun w s s₁ v live i hl => ?_, fun w s v t i => exec_exit i, fun w s v t n x xs i ht hf => ?_,
   fun w s v i hp => ?_, fun w s v i hp hs => ?_⟩
  · show execNop w s = _
    exact issueK_run i (.pure ..)
  · show execRgn w s = _
    exact issueE_run i (.bind hl (.modify ..))
  · show execMcall w s = _
    refine issueE_run i (.bind (Op.task_run ht) ?_)
    rw [show List.find? (fun m => m.1 == (v.seenE w).imm.toNat) t.macros = _ from hf]
    exact .modWarp ..
  · show execIpf w s = _
    exact issueJ_run i (.some_parts hp (.modify ..))
  · show execIfence w s = _
    exact issueE_run i (.some_parts hp <| .bind rfl <| .no (by simp [hs]) (.modify ..))

/-! ## Sump loops (R241 to R255) -/

theorem exec_sloop {w : EWord} {s s₁ : State} {v : View} {t : Task} {u : Tid} {d : Sump} {lines : List (Hop × Memory)}
    (i : IssuesE encOfSloop w .transfer s v) (ht : s.task? v.c.task = some t) (hm : v.c.mslot = none) (hu : v.c.units = [u])
    (hi : v.w.sump.mode = .inactive) (ha : v.c.active.length = 16) :
    let r (i : Nat) : W64 := vget v.w.s (v.h.a.toNat - 0x80 + i) 0
    sumpDescriptor t.spad v.c.regs (r 0) (r 1) (r 2) (r 3) = some d →
    Runs (Op.checkHops v.c .byte ([r 0, r 1, r 2].map fun pc => { tid := u, target := pc, taken := true })) s lines s₁ →
    hopsBad v.c v.w v.w (lines.take 1) = [] → Runs (Op.release v.c (maskOf v.c.active)) s₁ () s₁ →
    exec (.sloop w) s = .next (v.ended .transfer s (s₁.switchMode v.c fun x _ =>
      { x.modThreads allTids (fun th => { th.enterAt d.pe with bank := vfill 32 0 }) with sump := d })) := by
  intro r hd hl hb hr
  show execSloop w s = _
  refine issueE_run i (.bind i.warp <| .bind (Op.task_run ht) <| .no (by simp [hm]) ?_)
  rw [hu]
  refine .no (by simp [hi, ha]) ?_
  dsimp only [View.seenE]
  rw [show sumpDescriptor t.spad v.c.regs _ _ _ _ = some d from hd]
  exact .bind hl <| .no (by simp [hb]) <| .bind hr (.modify ..)

theorem exec_yield {w : EWord} {s s₁ : State} {v : View} {live : LiveRecord} (i : IssuesE encOfYield w .body s v) (hm : v.c.mslot = none)
    (hp : v.c.parts ≠ []) (hi : v.w.sump.mode = .producing) (ha : v.h.a.toNat + v.w.sump.width - 1 ≤ 127)
    (hc : v.w.sump.count + v.c.parts.length ≤ v.w.sump.cap) (hl : Runs (Op.liveRecord v.c w.imm) s live s₁)
    (hr : v.w.sump.high ≤ v.w.sump.count + v.c.parts.length → Runs (Op.release v.c (maskOf v.c.active)) s₁ () s₁) :
    exec (.yield w) s = .next (v.ended .body s
      (let s₂ := s₁.yielded v.c v.h.a.toNat v.w live
       if v.w.sump.high ≤ v.w.sump.count + v.c.parts.length then s₂.switchMode v.c Warp.endProducing else s₂)) := by
  show execYield w s = _
  refine issueE_run i (.bind i.warp <| .no (by simp [hm]) <| .some_parts hp <| .no (not_not.2 hi) <| .no (not_lt.2 ha) <|
    .no (not_lt.2 hc) <| .bind hl ?_)
  by_cases hf : v.w.sump.high ≤ v.w.sump.count + v.c.parts.length
  · rw [if_pos hf]
    exact .yes (decide_eq_true hf) <| .bind (hr hf) <| .bind (.modify ..) <| .yes (decide_eq_true hf) (.modify ..)
  · rw [if_neg hf]
    exact .no (by simpa using hf) <| .bind (.modify ..) <| .no (by simpa using hf) (.pure ..)

/-- PDONE and CEND with participants (R249). -/
theorem endBody_run {modes : List SumpMode} {mark : Sump → BitVec 16 → Sump} {last : Sump → Bool} {f : Warp → Memory → Warp}
    {c : Ctx} {s : State} {w : Warp} (hw : Runs (Op.warp c) s w s) (hm : c.mslot = none) (hi : modes.contains w.sump.mode = true)
    (hp : c.parts ≠ []) (hr : last (mark w.sump (maskOf c.parts)) = true → Runs (Op.release c (maskOf c.active)) s () s) :
    let x := mark w.sump (maskOf c.parts)
    let s₁ := s.modWarp c.task c.warp fun w =>
      ({ w.modThreads c.parts (fun th => { th with region := .none }) with sump := x } : Warp).modThreads
        c.active fun th => { th with pc := nextPc c.pc }
    Runs (endBody modes mark last f c) s () (if last x then s₁.switchMode c f else s₁.wsyncParked c.task c.warp) := by
  intro x s₁
  have start : ¬ (c.mslot.isSome ∨ modes.contains w.sump.mode = false) := by
    simp only [hm, hi]
    decide
  have two : s₁ = (s.modWarp c.task c.warp fun w =>
        { w.modThreads c.parts (fun th => { th with region := .none }) with sump := x }).modWarp c.task c.warp
      fun w => w.modThreads c.active fun th => { th with pc := nextPc c.pc } := by
    rw [State.modWarp_modWarp]
  by_cases hf : last x
  · rw [if_pos hf, two]
    exact .bind hw <| .no start <| .some_parts hp <| .yes hf <| .bind (hr hf) <| .bind (.modWarp ..) <| .bind (.modWarp ..) <| .yes hf (.modify ..)
  · rw [if_neg hf, two]
    exact .bind hw <| .no start <| .some_parts hp <| .no hf <| .bind (.modWarp ..) <| .bind (.modWarp ..) <| .no hf (.modify ..)

/-- Settles O20. -/
theorem sumpLoopsComplete : Obligations.SumpLoopsComplete := by
  refine ⟨fun w s s₁ v t u d lines i => exec_sloop i, fun w s s₁ v live i => exec_yield i, fun w s v i hm hi hp => ?_,
    fun w s v i hm hi hp => ?_⟩
  · intro d hr s₁
    show execPdone w s = _
    have run := endBody_run (modes := [.producing]) (mark := fun x m => { x with done := x.done ||| m })
      (last := fun x => x.done == 0xFFFF) (f := Warp.endProducing) i.warp hm (by simp [hi]) hp (fun h => hr (by simpa using h))
    simp only [beq_iff_eq] at run
    exact issueE_run i run
  · intro d hr s₁
    show execCend w s = _
    have run := endBody_run (modes := [.consuming, .draining]) (mark := fun x m => { x with cmask := x.cmask ||| m })
      (last := fun x => x.cmask == x.rmask) (f := Warp.endRound) i.warp hm (by rcases hi with h | h <;> simp [h]) hp
      (fun h => hr (by simpa using h))
    simp only [beq_iff_eq] at run
    exact issueE_run i run

end Sys2Proof.Machine

/-!
PROOFS. O21, O22, O24 and O25: the memory instructions, the fences and the atomics (R214 to R223, R235 to R240).
-/

namespace Sys2Proof.Machine

open Sys2Proof

section
variable {α : Type} {s t : State}

theorem Runs.no_parts {ts : List Tid} {m n : Op α} {a : α} (h : ts = []) (k : Runs m s a t) :
    Runs (if ts.isEmpty then m else n) s a t :=
  .yes (by simpa using h) k

theorem Runs.put (s t : State) : Runs (Op.put t) s () t := rfl

theorem Runs.state (s : State) : Runs Op.state s s s := rfl

theorem Runs.acquire (c : Ctx) (s : State) : Runs (Op.acquire c) s () (s.acquire c.core) := rfl

end

/-! ## LD (R215, R216) -/

section
variable {w : MWord} {s s₁ s₂ s₃ : State} {v : View} {vs : List (Tid × Nat)}

theorem exec_ld {as : List Aimed} (i : IssuesM encOfLd w .straight s v) (hp : v.c.parts ≠ []) (h3 : w.space ≠ 3)
    (ha : Runs (Op.aim v.c w.space.toNat .load (bytesOf w) (bytesOf w) (indexed v.c v.w (v.seenM w))) s as s₁)
    (hl : Runs (Op.loadEach v.c (v.seenM w) as) s₁ vs s₂) (hn : Runs (Op.noteLoads v.c (bytesOf w) as) s₂ () s₃) :
    let s₄ := v.onWarp s₃ fun x => vs.foldl (putLoaded v.c (v.seenM w)) x
    exec (.ld w) s = .next (v.ended .straight s (if w.ord = 1 then s₄.acquire v.c.core else s₄)) := by
  intro s₄
  refine issueM_run (body := loadRun) i (.some_parts hp <| .bind i.warp <| .no h3 <| .bind ha <| .bind hl <| .bind hn <|
    .bind (.pure ..) <| .bind (.modWarp ..) ?_)
  by_cases ho : w.ord = 1
  · rw [show (if w.ord = 1 then s₄.acquire v.c.core else s₄) = _ from if_pos ho]
    exact .yes ⟨ho, h3⟩ (.acquire ..)
  · rw [show (if w.ord = 1 then s₄.acquire v.c.core else s₄) = _ from if_neg ho]
    exact .no (fun h => ho h.1) (.pure ..)

theorem exec_ld_debug {as : List (Tid × Nat × DebugAt)} (i : IssuesM encOfLd w .straight s v) (hp : v.c.parts ≠ [])
    (h3 : w.space = 3) (ha : Runs (Op.debugAim v.c (bytesOf w) (w.size == 4) (indexed v.c v.w (v.seenM w))) s as s)
    (hl : Runs (Op.debugEach v.c (v.seenM w) as) s vs s₂) :
    exec (.ld w) s = .next (v.ended .straight s (v.onWarp s₂ fun x => vs.foldl (putLoaded v.c (v.seenM w)) x)) := by
  exact issueM_run (body := loadRun) i (.some_parts hp <| .bind i.warp <| .yes h3 <| .bind ha <| .bind hl <|
    .bind (.modWarp ..) <| .no (fun h => h.2 h3) (.pure ..))

end

/-- Settles O21. -/
theorem loadsComplete : Obligations.LoadsComplete :=
  ⟨fun _ _ _ i hp => issueM_run (body := loadRun) i (.no_parts hp (.pure ..)), fun _ _ _ _ _ _ _ _ => exec_ld,
    fun _ _ _ _ _ _ => exec_ld_debug⟩

/-! ## ST and STBM (R215, R217, R219) -/

/-- A release that an instruction makes only in some forms. -/
theorem Runs.release_if {α : Type} {p : Prop} [Decidable p] {r m : Op α} {s t : State} {a : α} (h : p → r s = m s)
    (k : Runs m s a t) : Runs (if p then r else m) s a t := by
  by_cases hp : p
  · exact .yes hp ((h hp).trans k)
  · exact .no hp k

section
variable {w : MWord} {s s₁ s₂ : State} {v : View}

theorem exec_st {as : List Aimed} (i : IssuesM encOfSt w .straight s v) (hp : v.c.parts ≠ []) (h3 : w.space ≠ 3)
    (ha : Runs (Op.aim v.c w.space.toNat .store (bytesOf w) (bytesOf w) (indexed v.c v.w (v.seenM w))) s as s₁)
    (hr : w.ord = 2 → Runs (Op.release v.c (maskOf v.c.executing)) s₁ () s₁)
    (hs : Runs (Op.storeEach v.c (bytesOf w) (fun a => Op.storeAt v.c a (bytesOf w) w.hint.toNat
      (dataOf v.c v.w (v.seenM w) a.tid v.h.c)) as) s₁ () s₂) :
    exec (.st w) s = .next (v.ended .straight s s₂) :=
  issueM_run (body := storeRun) i (.some_parts hp <| .bind i.warp <| .no h3 <| .bind ha <|
    .release_if (fun h => Op.bind_of (hr h)) hs)

theorem exec_st_debug {as : List (Tid × Nat × DebugAt)} (i : IssuesM encOfSt w .straight s v) (hp : v.c.parts ≠ [])
    (h3 : w.space = 3) (ha : Runs (Op.debugAim v.c (bytesOf w) (w.size == 4) (indexed v.c v.w (v.seenM w))) s as s)
    (hs : Runs (Op.debugStoreEach v.c (bytesOf w) (fun t => dataOf v.c v.w (v.seenM w) t v.h.c) as) s () s₂) :
    exec (.st w) s = .next (v.ended .straight s s₂) :=
  issueM_run (body := storeRun) i (.some_parts hp <| .bind i.warp <| .yes h3 <| .bind ha hs)

theorem exec_stbm {as : List Aimed} (i : IssuesM encOfStbm w .straight s v) (hp : v.c.parts ≠ []) (h3 : w.space ≠ 3)
    (ha : Runs (Op.aim v.c w.space.toNat .store (bytesOf w) (bytesOf w) (based v.c v.w (v.seenM w))) s as s₁)
    (hr : w.ord = 2 → Runs (Op.release v.c (maskOf v.c.executing)) s₁ () s₁)
    (hs : Runs (Op.storeEach v.c (bytesOf w) (fun a => Op.mergeAt v.c (bytesOf w) (dataOf v.c v.w (v.seenM w) a.tid v.h.b)
      (dataOf v.c v.w (v.seenM w) a.tid v.h.c) a) as) s₁ () s₂) :
    exec (.stbm w) s = .next (v.ended .straight s s₂) :=
  issueM_run (body := mergeRun) i (.some_parts hp <| .bind i.warp <| .no h3 <| .bind ha <|
    .release_if (fun h => Op.bind_of (hr h)) hs)

end

/-- Settles O22. -/
theorem storesComplete : Obligations.StoresComplete :=
  ⟨fun _ _ _ _ _ _ => exec_st, fun _ _ _ _ _ => exec_st_debug, fun _ _ _ _ _ _ => exec_stbm⟩

/-! ## Cache instructions and fences (R220 to R222, R235) -/

/-- What CLEAN and INVAL do to the lines that their units name. -/
theorem cleanRun_run {keep : Bool} {x : MWord → Enc} {w : MWord} {s s₁ : State} {v : View} {as : List Aimed} (i : IssuesM x w .straight s v)
    (ha : Runs (Op.aim v.c 0 .load (bytesOf w) 1 (indexed v.c v.w (v.seenM w))) s as s₁) :
    Runs (cleanRun keep v.c (v.seenM w)) s () (as.foldl (fun (s : State) (a : Aimed) => match a.target.place with
      | .phys pa => s.cleanLine v.c.core pa keep
      | _ => s) s₁) :=
  .bind i.warp <| .bind ha <| .modify ..

/-- A fence with participants: it waits, and it acquires. -/
theorem fenceRun_run {rel acq : Bool} {c : Ctx} {s : State} (hp : c.parts ≠ [])
    (hr : rel = true → Runs (Op.release c (maskOf c.executing)) s () s) :
    Runs (fenceRun rel acq c) s () (if acq then s.acquire c.core else s) := by
  cases acq with
  | true => exact .some_parts hp <| .release_if (fun h => Op.bind_of (hr h)) <| .yes rfl (.acquire ..)
  | false => exact .some_parts hp <| .release_if (fun h => Op.bind_of (hr h)) <| .no Bool.false_ne_true (.pure ..)

/-- Settles O24. -/
theorem cacheInstructionsComplete : Obligations.CacheInstructionsComplete := by
  refine ⟨fun w s v i => ?_, fun w s s₁ v as i ha => ?_, fun w s s₁ v as i ha => ?_, fun w s v i => ?_, fun w s v i hp hr => ?_,
    fun w s v i hp hr => ?_⟩
  · show execPref w s = _
    exact issueM_run i (.bind i.warp (.modify ..))
  · exact issueM_run (body := cleanRun true) i (cleanRun_run i ha)
  · exact issueM_run (body := cleanRun false) i (cleanRun_run i ha)
  · show execEvh w s = _
    exact issueM_run i (.bind i.warp (.modify ..))
  · show execFence w s = _
    have run := fenceRun_run (rel := w.sub != 1) (acq := w.sub != 2) hp fun h => hr (by simpa using h)
    simp only [bne_iff_ne] at run
    exact issueE_run i run
  · show execXfence w s = _
    exact issueE_run i (fenceRun_run (acq := true) hp fun _ => hr)

/-- Settles O25: each is the thread-by-thread run of its checks and its act. -/
theorem atomicsComplete : Obligations.AtomicsComplete := by
  refine ⟨fun w s t v i h => ?_, fun w s t v i h => ?_, fun w s t v i h => ?_⟩
  · show execAmo w s = _
    exact issueM_run i (Op.eachFrom_run h)
  · show execAmocas w s = _
    exact issueM_run i (Op.eachFrom_run h)
  · show execRed w s = _
    exact issueM_run i (Op.eachFrom_run h)

end Sys2Proof.Machine

/-!
PROOFS. O8, O23 and O26: memory as its homes hold it, with the words that cores have registered (R5, R206 to R213, R236 to R238).
-/

namespace Sys2Proof.Machine

open Sys2Proof

/-! ## Memory -/

theorem Memory.getN_setN {m : Memory} (a n v : Nat) (h : m.wf = true) : (m.setN a n v).getN a n = v % 256 ^ n := by
  have read := Memory.bytes_setBytes a (toBytes n v) h
  rw [length_toBytes] at read
  rw [Memory.getN, Memory.setN, read, ofBytes_toBytes]

theorem Memory.get_setN_other (m : Memory) {a n x : Nat} (v : Nat) (h : x < a ∨ a + n ≤ x) : (m.setN a n v).get x = m.get x :=
  Memory.get_setBytes_other m _ (by rwa [length_toBytes])

/-- Settles O8. -/
theorem memoryReadsWhatWasWritten : Obligations.MemoryReadsWhatWasWritten :=
  ⟨fun _ h => ⟨fun a b => Memory.wf_set a b h, fun a bs => Memory.wf_setBytes a bs h, fun a n v => Memory.wf_setN a n v h⟩,
    fun m a n v h => ⟨Memory.getN_setN a n v h, fun _ => Memory.get_setN_other m v⟩⟩

theorem Memory.wf_merge {m : Memory} (bs : List (Nat × Byte)) (h : m.wf = true) : (m.merge bs).wf = true := by
  induction bs generalizing m with
  | nil => exact h
  | cons b bs ih => exact ih (Memory.wf_set b.1 b.2 h)

theorem Memory.get_merge_other (m : Memory) {bs : List (Nat × Byte)} {x : Nat} (h : ∀ b ∈ bs, b.1 ≠ x) :
    (m.merge bs).get x = m.get x := by
  induction bs generalizing m with
  | nil => rfl
  | cons b bs ih =>
    have tail : ∀ y ∈ bs, y.1 ≠ x := fun y hy => h y (List.mem_cons_of_mem _ hy)
    exact (ih _ tail).trans (Memory.get_set_other m b.2 (h b List.mem_cons_self).symm)

/-- Some bytes from a base up merged: each offset that is among them has its byte. -/
theorem Memory.get_merge_offsets {m : Memory} (h : m.wf = true) (base : Nat) (f : Nat → Byte) (is : List Nat) (j : Nat) :
    (m.merge (is.map fun i => (base + i, f i))).get (base + j) = if j ∈ is then f j else m.get (base + j) := by
  induction is generalizing m with
  | nil => simp [Memory.merge]
  | cons i is ih =>
    have step := ih (Memory.wf_set (base + i) (f i) h)
    refine step.trans ?_
    by_cases e : j = i
    · subst e
      simp [Memory.get_set_same _ _ h]
    · simp [e, Memory.get_set_other m (f i) (show base + j ≠ base + i by omega)]

/-- The bytes of a word that its core has written, merged at the word's home. -/
theorem L1Word.get_merge_written {m : Memory} (h : m.wf = true) (w : L1Word) (line : Nat) {j : Nat} (hj : j < 4) :
    (m.merge (w.written line)).get (line + w.idx * 4 + j) =
      if w.mask.getLsbD j then w.val.extractLsb' (8 * j) 8 else m.get (line + w.idx * 4 + j) := by
  have get := Memory.get_merge_offsets h (line + w.idx * 4) (fun i => w.val.extractLsb' (8 * i) 8)
    ((List.range 4).filter fun i => w.mask.getLsbD i) j
  simpa [L1Word.written, hj] using get

/-! ## The cores of a state -/

theorem State.core_modCore_same (s : State) {c : Nat} (f : Core → Core) (h : c < 192) : (s.modCore c f).core c = f (s.core c) := by
  simp [State.core, State.modCore, vmod, vget, List.getD, h]

theorem State.core_modCore_other (s : State) {c d : Nat} (f : Core → Core) (h : d ≠ c) : (s.modCore c f).core d = s.core d := by
  simp [State.core, State.modCore, vmod, vget, List.getD, h.symm]

/-- Past the last core nothing is held. -/
theorem State.core_of_ge (s : State) {c : Nat} (h : 192 ≤ c) : s.core c = .reset := by
  simp [State.core, vget, List.getD, h]

/-! ## Words of an L1 (R209, R210) -/

theorem wordOf_wordOf (a : Nat) : wordOf (wordOf a) = wordOf a := by
  unfold wordOf
  omega

theorem lineOf_wordOf (a : Nat) : lineOf (wordOf a) = lineOf a := by
  unfold lineOf wordOf
  omega

theorem wordOf_eq_iff {a b : Nat} : wordOf a = wordOf b ↔ lineOf a = lineOf b ∧ a % 128 / 4 = b % 128 / 4 := by
  unfold lineOf wordOf
  omega

theorem line_add_idx (a : Nat) : lineOf a + a % 128 / 4 * 4 = wordOf a := by
  unfold lineOf wordOf
  omega

/-- A word that an L1 holds has the index of its address. -/
theorem Core.idx_of_word? {c : Core} {a : Nat} {w : L1Word} (h : c.word? a = some w) : w.idx = a % 128 / 4 := by
  obtain ⟨l, -, hw⟩ := Option.bind_eq_some_iff.1 h
  simpa using List.find?_some hw

/-- The loss of one word leaves the others that an L1 holds. -/
theorem Core.word?_dropWord {c : Core} {a b : Nat} {w : L1Word} (h : c.word? a = some w) (hne : wordOf a ≠ wordOf b) :
    ({ c with l1 := dropWord c.l1 b } : Core).word? a = some w := by
  obtain ⟨l, hl, hw⟩ := Option.bind_eq_some_iff.1 h
  simp only [Core.line?] at hl
  suffices ∀ ls : List L1Line, ls.find? (fun l => l.pa == lineOf a) = some l →
      ((dropWord ls b).find? fun l => l.pa == lineOf a).bind (fun l => l.words.find? fun w => w.idx == a % 128 / 4) = some w from
    this _ hl
  intro ls
  have kept : lineOf a = lineOf b → (l.words.filter fun w => w.idx != b % 128 / 4).find? (fun w => w.idx == a % 128 / 4) = some w := by
    intro e
    have hi : a % 128 / 4 ≠ b % 128 / 4 := fun hi => hne (wordOf_eq_iff.2 ⟨e, hi⟩)
    rw [List.find?_filter, ← hw]
    congr 1
    funext x
    by_cases hx : x.idx = a % 128 / 4 <;> simp [hx, hi]
  induction ls with
  | nil => simp
  | cons x ls ih =>
    intro hx
    by_cases hp : x.pa = lineOf a
    · obtain rfl : x = l := by simpa [hp] using hx
      by_cases hb : x.pa = lineOf b
      · have some := kept (hp.symm.trans hb)
        have ne : (x.words.filter fun w => w.idx != b % 128 / 4).isEmpty = false := by
          cases e : x.words.filter fun w => w.idx != b % 128 / 4 with
          | nil => rw [e] at some; cases some
          | cons _ _ => rfl
        simp [dropWord, hb, ne, ← hp] at some ⊢
        simpa [← hb, hp] using some
      · have ne : x.words.isEmpty = false := by
          cases e : x.words with
          | nil => rw [e] at hw; cases hw
          | cons _ _ => rfl
        have pb : lineOf a ≠ lineOf b := hp ▸ hb
        simp [dropWord, hp, pb, ne, hw]
    · have rest := ih (by simpa [hp] using hx)
      by_cases hb : x.pa = lineOf b
      · by_cases e : (x.words.filter fun w => w.idx != b % 128 / 4).isEmpty
        · simpa [dropWord, hb, e] using rest
        · simpa [dropWord, hb, e, hb ▸ hp] using rest
      · by_cases e : x.words.isEmpty
        · simpa [dropWord, hb, e] using rest
        · simpa [dropWord, hb, e, hp] using rest

/-! ## Registered words (R210, R212) -/

/-- Every registered word is a word's address, and is Owned in the L1 that registered it. -/
def State.Backed (s : State) : Prop :=
  ∀ o ∈ s.owners, wordOf o.1 = o.1 ∧ ∃ w, (s.core o.2).word? o.1 = some w ∧ w.owned = true

theorem State.mem_of_ownerOf {s : State} {b c : Nat} (h : s.ownerOf b = some c) : (wordOf b, c) ∈ s.owners := by
  obtain ⟨o, ho, rfl⟩ := Option.map_eq_some_iff.1 h
  have key : o.1 = wordOf b := by simpa using List.find?_some ho
  exact key ▸ List.mem_of_find?_eq_some ho

/-- The core that has registered a word holds it Owned. -/
theorem State.Backed.word {s : State} (k : s.Backed) {b c : Nat} (h : s.ownerOf b = some c) :
    ∃ w, (s.core c).word? (wordOf b) = some w ∧ w.owned = true := (k _ (State.mem_of_ownerOf h)).2

theorem State.homeByte_of_no_owner {s : State} {b : Nat} (h : s.ownerOf b = none) : s.homeByte b = s.mem.get b := by
  simp [State.homeByte, h]

theorem State.homeByte_of_owned {s : State} {b c : Nat} {w : L1Word} (h : s.ownerOf b = some c)
    (hw : (s.core c).word? (wordOf b) = some w) (ho : w.owned = true) :
    s.homeByte b = if w.mask.getLsbD (b % 4) then w.val.extractLsb' (8 * (b % 4)) 8 else s.mem.get b := by
  simp [State.homeByte, h, hw, ho]

/-- A read at the home depends on memory, the registrations and the cores alone. -/
theorem State.homeByte_congr {s t : State} (hm : t.mem = s.mem) (ho : t.owners = s.owners) (hc : t.cores = s.cores) (b : Nat) :
    t.homeByte b = s.homeByte b := by
  simp [State.homeByte, State.ownerOf, State.core, hm, ho, hc]

theorem State.homeN_congr {s t : State} {a n : Nat} (h : ∀ i < n, t.homeByte (a + i) = s.homeByte (a + i)) : t.homeN a n = s.homeN a n := by
  unfold State.homeN State.homeBytes
  congr 1
  exact List.map_congr_left fun i hi => h i (List.mem_range.1 hi)

theorem Memory.bytes_eq_map (m : Memory) (a n : Nat) : m.bytes a n = (List.range n).map fun i => m.get (a + i) := by
  induction n generalizing a with
  | zero => rfl
  | succ n ih =>
    rw [Memory.bytes, ih, List.range_succ_eq_map]
    simp only [List.map_cons, List.map_map, Nat.add_zero, Function.comp_def, List.cons.injEq, true_and]
    exact List.map_congr_left fun i _ => by rw [Nat.add_right_comm, Nat.add_assoc]

/-- With no registration the homes hold what memory holds. -/
theorem State.homeN_of_no_owners {s : State} (h : s.owners = []) (a n : Nat) : s.homeN a n = s.mem.getN a n := by
  rw [Memory.getN, Memory.bytes_eq_map, State.homeN, State.homeBytes]
  congr 1
  refine List.map_congr_left fun i _ => State.homeByte_of_no_owner ?_
  simp [State.ownerOf, h]

theorem ofBytes_lt (bs : List Byte) : ofBytes bs < 256 ^ bs.length := by
  induction bs with
  | nil => simp [ofBytes]
  | cons b bs ih =>
    have := b.isLt
    simp only [ofBytes, List.length_cons, Nat.pow_succ]
    omega

theorem State.homeN_lt (s : State) (a n : Nat) : s.homeN a n < 256 ^ n := by
  simpa [State.homeN, State.homeBytes] using ofBytes_lt (s.homeBytes a n)

/-! ## The end of a registration (R210) -/

section
variable {s : State} {a : Nat}

theorem State.release_owners (keep : Bool) : (s.release a keep).owners = s.owners.filter fun o => o.1 != wordOf a := by
  unfold State.release
  split
  · next h =>
    refine (List.filter_eq_self.2 fun o ho => ?_).symm
    have := List.find?_eq_none.1 (Option.map_eq_none_iff.1 h) o ho
    simpa using this
  · dsimp only
    split <;> rfl

/-- A registered word that is released: its bytes reach the home, and the owner's copy goes. -/
theorem State.release_of_owned {c : Nat} {w : L1Word} (h : s.ownerOf a = some c) (hw : (s.core c).word? (wordOf a) = some w) :
    s.release a false = ({ s with owners := s.owners.filter fun o => o.1 != wordOf a, mem := s.mem.merge (w.written (lineOf a)) } : State).modCore
      c fun k => { k with l1 := dropWord k.l1 (wordOf a) } := by
  have hw' : (State.core { s with owners := s.owners.filter fun o => o.1 != wordOf a } c).word? (wordOf a) = some w := hw
  unfold State.release
  rw [h]
  dsimp only
  rw [hw']
  rfl

theorem State.release_of_free (keep : Bool) (h : s.ownerOf a = none) : s.release a keep = s := by
  unfold State.release
  rw [h]

theorem State.ownerOf_release (keep : Bool) (b : Nat) :
    (s.release a keep).ownerOf b = if wordOf b = wordOf a then none else s.ownerOf b := by
  simp only [State.ownerOf, State.release_owners, List.find?_filter]
  split
  · next h =>
    rw [Option.map_eq_none_iff, List.find?_eq_none]
    intro o _
    simp [h]
  · next h =>
    congr 2
    funext o
    by_cases e : o.1 = wordOf b <;> simp [e, h]

theorem State.release_wf (keep : Bool) (h : s.mem.wf = true) : (s.release a keep).mem.wf = true := by
  unfold State.release
  split
  · exact h
  · dsimp only
    split
    · exact h
    · exact Memory.wf_merge _ h

variable (k : s.Backed)
include k

theorem State.release_word? {d b : Nat} {w : L1Word} (hb : wordOf b ≠ wordOf a) (h : (s.core d).word? b = some w) :
    ((s.release a false).core d).word? b = some w := by
  cases e : s.ownerOf a with
  | none => rwa [State.release_of_free _ e]
  | some c =>
    obtain ⟨x, hx, -⟩ := k.word e
    rw [State.release_of_owned e hx]
    by_cases hd : d = c
    · subst hd
      by_cases lt : d < 192
      · rw [State.core_modCore_same _ _ lt]
        exact Core.word?_dropWord h (by rwa [wordOf_wordOf])
      · rw [State.core_of_ge s (by omega)] at hx
        cases hx
    · rw [State.core_modCore_other _ _ hd]
      exact h

theorem State.release_backed : (s.release a false).Backed := by
  intro o ho
  rw [State.release_owners, List.mem_filter] at ho
  obtain ⟨mem, ne⟩ := ho
  obtain ⟨hal, w, hw, hown⟩ := k o mem
  refine ⟨hal, w, State.release_word? k ?_ hw, hown⟩
  rw [hal]
  simpa using ne

/-- The end of a registration changes no byte at its home. -/
theorem State.release_homeByte (h : s.mem.wf = true) (b : Nat) : (s.release a false).homeByte b = s.homeByte b := by
  cases e : s.ownerOf a with
  | none => rw [State.release_of_free _ e]
  | some c =>
    obtain ⟨x, hx, hown⟩ := k.word e
    have idx : x.idx = a % 128 / 4 := by
      rw [Core.idx_of_word? hx]
      unfold wordOf
      omega
    have mem : (s.release a false).mem = s.mem.merge (x.written (lineOf a)) := by rw [State.release_of_owned e hx]; rfl
    by_cases hb : wordOf b = wordOf a
    · have owner : s.ownerOf b = some c := by rw [← e, State.ownerOf, hb]; rfl
      have place : lineOf a + x.idx * 4 + b % 4 = b := by
        rw [idx, line_add_idx, ← hb]
        unfold wordOf
        omega
      have got := L1Word.get_merge_written h x (lineOf a) (Nat.mod_lt b (by decide))
      rw [State.homeByte_of_no_owner (by rw [State.ownerOf_release, if_pos hb]), mem,
        State.homeByte_of_owned owner (hb ▸ hx) hown]
      rwa [place] at got
    · have get : (s.release a false).mem.get b = s.mem.get b := by
        rw [mem]
        refine Memory.get_merge_other _ fun y hy => ?_
        simp only [L1Word.written, List.mem_map, List.mem_filter, List.mem_range] at hy
        obtain ⟨i, ⟨hi, -⟩, rfl⟩ := hy
        rintro rfl
        refine hb ?_
        rw [idx, line_add_idx]
        unfold wordOf
        omega
      have owner : (s.release a false).ownerOf b = s.ownerOf b := by rw [State.ownerOf_release, if_neg hb]
      cases eb : s.ownerOf b with
      | none => rw [State.homeByte_of_no_owner (owner.trans eb), State.homeByte_of_no_owner eb, get]
      | some d =>
        obtain ⟨y, hy, yown⟩ := k.word eb
        have hy' := State.release_word? (a := a) k (by rwa [wordOf_wordOf]) hy
        rw [State.homeByte_of_owned (owner.trans eb) hy' yown, State.homeByte_of_owned eb hy yown, get]

end

/-! ## Operations at a home (R219, R236) -/

theorem wordOf_of_mem_wordsOf {x pa n : Nat} (h : x ∈ wordsOf pa n) : wordOf x = x := by
  simp only [wordsOf, List.mem_map, List.mem_range] at h
  obtain ⟨i, -, rfl⟩ := h
  unfold wordOf
  omega

/-- The recall of some words, one after another. -/
def State.recallAll (s : State) (ws : List Nat) : State := ws.foldl (fun s w => s.release w false) s

theorem State.recallAll_keeps {s : State} (k : s.Backed) (h : s.mem.wf = true) (ws : List Nat) :
    (s.recallAll ws).mem.wf = true ∧ ∀ b, (s.recallAll ws).homeByte b = s.homeByte b := by
  induction ws generalizing s with
  | nil => exact ⟨h, fun _ => rfl⟩
  | cons w ws ih =>
    obtain ⟨wf, same⟩ := ih (State.release_backed (a := w) k) (State.release_wf _ h)
    exact ⟨wf, fun b => (same b).trans (State.release_homeByte k h b)⟩

theorem State.mem_recallAll_owners {s : State} {ws : List Nat} (hw : ∀ w ∈ ws, wordOf w = w) {o : Nat × Nat}
    (h : o ∈ (s.recallAll ws).owners) : o ∈ s.owners ∧ o.1 ∉ ws := by
  induction ws generalizing s with
  | nil => exact ⟨h, List.not_mem_nil⟩
  | cons w ws ih =>
    obtain ⟨mem, not⟩ := ih (s := s.release w false) (fun x hx => hw x (List.mem_cons_of_mem _ hx)) h
    rw [State.release_owners, List.mem_filter, hw w List.mem_cons_self] at mem
    exact ⟨mem.1, by simpa [not] using mem.2⟩

theorem OnlyRegistered.backed {s : State} {pa n : Nat} (h : OnlyRegistered s pa n) : s.Backed :=
  fun o ho => ⟨wordOf_of_mem_wordsOf (h o ho).1, (h o ho).2⟩

/-- Once every word of the range is recalled, none is registered. -/
theorem State.recall_owners {s : State} {pa n : Nat} (h : OnlyRegistered s pa n) : (s.recall pa n).owners = [] := by
  refine List.eq_nil_iff_forall_not_mem.2 fun o ho => ?_
  obtain ⟨mem, not⟩ := State.mem_recallAll_owners (ws := wordsOf pa n) (fun _ => wordOf_of_mem_wordsOf) ho
  exact not (h o mem).1

/-- What is written at the home of a range that alone holds registered words: no word is registered, and only the range changes. -/
theorem State.atomicWrite_spec {s : State} {pa n : Nat} (v : Nat) (h : s.mem.wf = true) (reg : OnlyRegistered s pa n) :
    (s.atomicWrite pa n v).owners = [] ∧ (s.atomicWrite pa n v).homeN pa n = v % 256 ^ n ∧
      ∀ x, x < pa ∨ pa + n ≤ x → (s.atomicWrite pa n v).homeByte x = s.homeByte x := by
  obtain ⟨wf, same⟩ := State.recallAll_keeps reg.backed h (wordsOf pa n)
  have none : (s.atomicWrite pa n v).owners = [] := State.recall_owners reg
  have before : (s.recall pa n).owners = [] := State.recall_owners reg
  refine ⟨none, ?_, fun x hx => ?_⟩
  · rw [State.homeN_of_no_owners none]
    exact Memory.getN_setN pa n v wf
  · rw [State.homeByte_of_no_owner (by simp [State.ownerOf, none]), ← same x]
    refine Eq.trans (Memory.get_setN_other _ v hx) ?_
    exact (State.homeByte_of_no_owner (s := s.recall pa n) (by simp [State.ownerOf, before])).symm

/-! ## Wakes leave the homes (R123, R153) -/

/-- Two states hold the same at every home. -/
structure State.SameHomes (s t : State) : Prop where
  mem : t.mem = s.mem
  owners : t.owners = s.owners
  cores : t.cores = s.cores

theorem State.SameHomes.refl (s : State) : s.SameHomes s := ⟨rfl, rfl, rfl⟩

theorem State.SameHomes.trans {s t u : State} (h : s.SameHomes t) (k : t.SameHomes u) : s.SameHomes u :=
  ⟨k.mem.trans h.mem, k.owners.trans h.owners, k.cores.trans h.cores⟩

theorem State.SameHomes.homeByte {s t : State} (h : s.SameHomes t) (b : Nat) : t.homeByte b = s.homeByte b :=
  State.homeByte_congr h.mem h.owners h.cores b

theorem State.SameHomes.homeN {s t : State} (h : s.SameHomes t) (a n : Nat) : t.homeN a n = s.homeN a n :=
  State.homeN_congr fun _ _ => h.homeByte _

theorem State.SameHomes.foldl {α : Type} {f : State → α → State} (hf : ∀ (s : State) x, s.SameHomes (f s x)) (l : List α) (s : State) :
    s.SameHomes (l.foldl f s) := by
  induction l generalizing s with
  | nil => exact .refl s
  | cons x l ih => exact (hf s x).trans (ih _)

theorem State.respond_sameHomes (s : State) (p tag : Nat) (ok : Bool) (v : Nat) : s.SameHomes (s.respond p tag ok v) := by
  unfold State.respond
  dsimp only
  split <;> exact ⟨rfl, rfl, rfl⟩

theorem State.sendWake_sameHomes (s : State) (who : Waiter) (v : Nat) : s.SameHomes (s.sendWake who v) := by
  unfold State.sendWake
  cases who with
  | warp t w => dsimp only; split <;> exact ⟨rfl, rfl, rfl⟩
  | peer p tag => exact State.respond_sameHomes s p tag true v
  | agent _ _ => exact .refl s

theorem State.wakeAt_sameHomes (s : State) (pa : Nat) : s.SameHomes (s.wakeAt pa) := by
  unfold State.wakeAt
  refine State.SameHomes.trans ?_ (.foldl (f := fun (s : State) (w : WaiterEntry) => s.sendWake w.who _)
    (fun s w => State.sendWake_sameHomes s w.who _) _ _)
  exact ⟨rfl, rfl, rfl⟩

theorem State.addHeard_sameHomes (s : State) (pa : Nat) : s.SameHomes (s.addHeard pa) := by
  unfold State.addHeard
  dsimp only
  split <;> exact ⟨rfl, rfl, rfl⟩

/-! ## What a home does with a value (R122, R236 to R238) -/

/-- Half of a two's complement range is the other half's offset. -/
theorem signedOf_mod (w v : Nat) : signedOf w (v % 2 ^ w) = signedOf w v := by
  simp [signedOf]

theorem two_pow_bytes (n : Nat) : 2 ^ (8 * n) = 256 ^ n := by
  rw [Nat.pow_mul]

theorem State.amo_spec {s : State} {pa n v : Nat} (who : Waiter) (op : Nat) (h : s.mem.wf = true) (reg : OnlyRegistered s pa n)
    (np : s.poisoned pa n = false) :
    (s.homeExec (.amo pa n op v) who).1 = s.homeN pa n ∧
      (∀ x, x < pa ∨ pa + n ≤ x → (s.homeExec (.amo pa n op v) who).2.homeByte x = s.homeByte x) ∧
      (s.homeExec (.amo pa n op v) who).2.homeN pa n = amoOp op (8 * n) (s.homeN pa n) v % 256 ^ n := by
  have e : s.homeExec (.amo pa n op v) who = (s.homeN pa n, s.atomicWrite pa n (amoOp op (8 * n) (s.homeN pa n) v)) := by
    simp [State.homeExec, np]
  obtain ⟨-, val, frame⟩ := State.atomicWrite_spec (amoOp op (8 * n) (s.homeN pa n) v) h reg
  rw [e]
  exact ⟨rfl, frame, val⟩

theorem State.cas_spec {s : State} {pa n : Nat} (who : Waiter) (cmp new : Nat) (h : s.mem.wf = true) (reg : OnlyRegistered s pa n)
    (np : s.poisoned pa n = false) :
    (s.homeExec (.cas pa n cmp new) who).1 = s.homeN pa n ∧
      (∀ x, x < pa ∨ pa + n ≤ x → (s.homeExec (.cas pa n cmp new) who).2.homeByte x = s.homeByte x) ∧
      (s.homeExec (.cas pa n cmp new) who).2.homeN pa n = (if s.homeN pa n = cmp then new else s.homeN pa n) % 256 ^ n := by
  have e : s.homeExec (.cas pa n cmp new) who = (s.homeN pa n, s.atomicWrite pa n (if s.homeN pa n = cmp then new else s.homeN pa n)) := by
    simp [State.homeExec, np]
  obtain ⟨-, val, frame⟩ := State.atomicWrite_spec (if s.homeN pa n = cmp then new else s.homeN pa n) h reg
  rw [e]
  exact ⟨rfl, frame, val⟩

/-- The operation codes of R237 on two values of `n` bytes, where the result is the value that stays. -/
theorem amoOp_spec {n old v : Nat} (ho : old < 256 ^ n) (hv : v < 256 ^ n) (op : Nat) :
    (op = 0 → amoOp op (8 * n) old v % 256 ^ n = (old + v) % 256 ^ n) ∧ (op = 1 → amoOp op (8 * n) old v % 256 ^ n = old &&& v) ∧
    (op = 2 → amoOp op (8 * n) old v % 256 ^ n = old ||| v) ∧ (op = 3 → amoOp op (8 * n) old v % 256 ^ n = old ^^^ v) ∧
    (op = 4 → signedOf (8 * n) (amoOp op (8 * n) old v % 256 ^ n) = min (signedOf (8 * n) old) (signedOf (8 * n) v)) ∧
    (op = 5 → signedOf (8 * n) (amoOp op (8 * n) old v % 256 ^ n) = max (signedOf (8 * n) old) (signedOf (8 * n) v)) ∧
    (op = 6 → amoOp op (8 * n) old v % 256 ^ n = min old v) ∧ (op = 7 → amoOp op (8 * n) old v % 256 ^ n = max old v) ∧
    (op = 8 → amoOp op (8 * n) old v % 256 ^ n = v) := by
  rw [← two_pow_bytes] at ho hv ⊢
  refine ⟨?_, ?_, ?_, ?_, ?_, ?_, ?_, ?_, ?_⟩ <;> rintro rfl
  · simp [amoOp]
  · exact Nat.mod_eq_of_lt (Nat.and_lt_two_pow _ hv)
  · exact Nat.mod_eq_of_lt (Nat.or_lt_two_pow ho hv)
  · exact Nat.mod_eq_of_lt (Nat.xor_lt_two_pow ho hv)
  · rw [signedOf_mod]
    simp only [amoOp]
    split <;> omega
  · rw [signedOf_mod]
    simp only [amoOp]
    split <;> omega
  · exact Nat.mod_eq_of_lt (lt_of_le_of_lt (min_le_left _ _) ho)
  · exact Nat.mod_eq_of_lt (max_lt ho hv)
  · exact Nat.mod_eq_of_lt hv

/-- The FP32 sum of an AMO (R238). -/
theorem amoOp_fadd (old v : Nat) :
    let x := Fmt.fp32.value old
    let y := Fmt.fp32.value v
    amoOp 9 32 old v % 256 ^ 4 = if x.isNan || y.isNan then 0x7FC00000 else match x.add .rne y with
      | none => 0x7FC00000
      | some z => (Fmt.fp32.round z false .rne false 0).1 % 256 ^ 4 := by
  intro x y
  simp only [amoOp, fp32Add, fp32Sum]
  split
  · rfl
  · cases x.add .rne y <;> rfl

theorem State.sgAddAt_spec {s : State} {pa amt : Nat} (h : s.mem.wf = true) (reg : OnlyRegistered s pa 8) (lt : s.homeN pa 8 + amt < 2 ^ 64) :
    (s.sgAddAt pa amt).1 = s.homeN pa 8 ∧ (s.sgAddAt pa amt).2.homeN pa 8 = s.homeN pa 8 + amt ∧
      ∀ x, x < pa ∨ pa + 8 ≤ x → (s.sgAddAt pa amt).2.homeByte x = s.homeByte x := by
  obtain ⟨-, val, frame⟩ := State.atomicWrite_spec (s.homeN pa 8 + amt) h reg
  have e : s.sgAddAt pa amt = (s.homeN pa 8, (if amt = 0 then s.atomicWrite pa 8 (s.homeN pa 8 + amt)
      else (s.atomicWrite pa 8 (s.homeN pa 8 + amt)).wakeAt pa).addHeard pa) := if_neg (not_le.2 lt)
  have homes : (s.atomicWrite pa 8 (s.homeN pa 8 + amt)).SameHomes (s.sgAddAt pa amt).2 := by
    rw [e]
    refine State.SameHomes.trans ?_ (State.addHeard_sameHomes _ pa)
    split
    · exact .refl _
    · exact State.wakeAt_sameHomes _ pa
  refine ⟨by rw [e], ?_, fun x hx => (homes.homeByte x).trans (frame x hx)⟩
  rw [homes.homeN, val]
  exact Nat.mod_eq_of_lt lt

/-- Settles O26: an operation at the home of words that alone are registered writes its value over what their owners wrote. -/
theorem homeOperationsCombine : Obligations.HomeOperationsCombine := by
  refine ⟨fun s who pa n wf reg np hn => ?_, fun s pa amt wf reg => ⟨fun big => if_pos big, State.sgAddAt_spec wf reg⟩⟩
  intro old keeps
  refine ⟨fun op v hv => ?_, fun cmp new => ?_⟩
  · obtain ⟨one, frame, val⟩ := State.amo_spec (v := v) who op wf reg np
    obtain ⟨h₀, h₁, h₂, h₃, h₄, h₅, h₆, h₇, h₈⟩ := amoOp_spec (s.homeN_lt pa n) hv op
    refine ⟨⟨one, frame⟩, ?_⟩
    dsimp only
    rw [val]
    refine ⟨h₀, h₁, h₂, h₃, h₄, h₅, h₆, h₇, h₈, ?_⟩
    rintro rfl rfl
    exact amoOp_fadd _ _
  · obtain ⟨one, frame, val⟩ := State.cas_spec who cmp new wf reg np
    exact ⟨⟨one, frame⟩, val⟩

/-! ## An access at a home that evicts a line by an address of another (R212) -/

/-- A word at address 0 that core 0 has registered. -/
def ownedWord : L1Word := { idx := 0, owned := true, mask := 0, val := 0 }

/-- The registration of `ownedWord`, in a device whose slice holds 16 lines under an address that is no line's: an access to line 0
finds none of them to be line 0, evicts one of them, and with it recalls the words of line 0. -/
def crookedLines : State :=
  { State.reset.modCore 0 (fun c => { c with l1 := [{ pa := 0, way := 0, prio := 0, words := [ownedWord] }] }) with
    owners := [(0, 0)], l2 := List.replicate 16 { pa := 1, prio := 0 } }

theorem crookedLines_word : (crookedLines.core 0).word? 0 = some ownedWord := rfl

theorem crookedLines_only : OnlyRegistered crookedLines 0 4 := by
  intro o ho
  obtain rfl : o = (0, 0) := List.mem_singleton.1 ho
  exact ⟨by decide, ownedWord, crookedLines_word, rfl⟩

/-- The slice evicts the line of the address 1, and recalls the word at 0 with it. -/
theorem crookedLines_access : (crookedLines.l2Access 0 0 4).owners = [] := by
  have evict : (crookedLines.l2Evict 1).owners = [] := by
    show ((crookedLines.release 0 false).owners) = []
    rw [State.release_owners]
    rfl
  exact evict

/-- Refutes O23: in a state whose slice lists a line under an address that is no line's, an access to memory through the home evicts a
line and recalls the word that it reads, so that the registrations are not as they were. -/
theorem not_accessesReachTheirBytes : ¬ Obligations.AccessesReachTheirBytes := by
  rintro ⟨-, -, home, -⟩
  have access := home
    { task := 0, warp := 0, core := 0, ctx := 0, kid := 0, lane := 0, wid := 0, index := 0, regs := 128, prof := 2, priv := false,
      fpte := 0, u := false, active := [0], parts := [0], pc := 0, imm := 0, mslot := none }
    { tid := 0, ea := 0, target := { place := .phys 0, trans := none } } crookedLines 0 4 3 0 rfl (.inr rfl)
  have same := (access.2 (by decide) crookedLines_only).2.2.1
  rw [show (Aimed.target _).bits = 0 from rfl, crookedLines_access] at same
  cases same

end Sys2Proof.Machine

/-!
PROOFS. O27 to O31: stalagmites, rings, barriers and groups (R120 to R135, R168 to R182).
-/

namespace Sys2Proof.Machine

open Sys2Proof

/-- Settles O27: each is the thread-by-thread run of its checks and its add. -/
theorem addsComplete : Obligations.AddsComplete := by
  refine ⟨fun w s t v i h => ?_, fun w s t v i h => ?_, fun w s t v i h => ?_⟩
  · show execSgadd w s = _
    exact issueE_run i (Op.eachFrom_run h)
  · exact issueE_run (body := ringAdd (·.fill)) i (Op.eachFrom_run h)
  · exact issueE_run (body := ringAdd (·.rel)) i (Op.eachFrom_run h)

/-! ## Waits (R123, R125) -/

theorem issueE_holds {x : EWord → Enc} {w : EWord} {flow : Flow} {s t : State} {v : View} {body : Ctx → EWord → Op Unit}
    (i : IssuesE x w flow s v) (b : body v.c (v.seenE w) s = .error (.hold t)) :
    issueE x w flow body s = .next (s.guarded t) :=
  i.holds (body := fun c h => body c { w with h := h }) b

/-- A wait whose stalagmites have reached their targets, or whose wake has come, is over. -/
theorem Op.waitAll_run {c : Ctx} {sub why : Nat} {xs : List WaitFor} {s t : State} (h : Waited c sub xs s t) :
    Runs (Op.waitAll c sub why xs) s () (t.waited c xs) := by
  obtain ⟨w, hw, h⟩ := h
  refine .bind (t := s) (a := w) (by simp [Runs, Op.warp, hw]) ?_
  by_cases woken : w.wait.any fun y => y.woken && y.parts == partsOf c xs
  · rw [if_pos woken] at h
    subst h
    exact .yes woken (.modify ..)
  · rw [if_neg woken] at h
    exact .no woken <| .bind h <| .yes rfl (.modify ..)

/-- A wait with a stalagmite that has not reached its target leaves its warp Blocked. -/
theorem Op.waitAll_blocks {c : Ctx} {sub why : Nat} {xs : List WaitFor} {s t : State} {w : Warp} {y : WaitItem} {ys : List WaitItem}
    (hw : Runs (Op.warp c) s w s) (fresh : w.wait = none) (h : Runs (Op.unmet c sub (waitItems xs)) s (y :: ys) t)
    (told : t.unanswered c.asker = false) :
    Op.waitAll c sub why xs s = .error (.hold (t.block c.task c.warp why (y :: ys) (partsOf c xs))) := by
  unfold Op.waitAll
  rw [Op.bind_of hw, if_neg (by simp [fresh]), Op.bind_of h, if_neg (by simp)]
  simp [told]

theorem Runs.some_items {α β : Type} {as : List β} {m n : Op α} {s t : State} {a : α} (h : as ≠ []) (k : Runs n s a t) :
    Runs (if as.isEmpty then m else n) s a t :=
  .no (by simpa using h) k

/-- RGRESV and RGAWAIT once their wait is over. -/
theorem ringWait_run {f : RingDesc → Nat} {target : RingDesc → Nat → Nat} {c : Ctx} {k : EWord} {w : Warp} {s s₁ s₂ : State}
    {ds : List (Tid × RingDesc × Aimed)} (hw : Runs (Op.warp c) s w s) (hd : ds ≠ [])
    (hg : Runs (Op.gather c fun t => do
      let d ← Op.ringDesc c t (sgAddr c w k t)
      let a ← Op.aimSg c .sgRead t (f d)
      return (d, a)) s ds s₁) (h : Waited c 0 (ringFor target c k w ds) s₁ s₂) :
    Runs (ringWait f target c k) s () ((s₂.waited c (ringFor target c k w ds)).modWarp c.task c.warp (putSlots c k w ds)) :=
  .bind hw <| .bind hg <| .some_items hd <| .bind (Op.waitAll_run h) <| .modWarp ..

/-! ## The checks of an address leave the tasks -/

@[simp] theorem State.release_tasks (s : State) (a : Nat) (keep : Bool) : (s.release a keep).tasks = s.tasks := by
  unfold State.release
  split
  · rfl
  · dsimp only
    split <;> rfl

@[simp] theorem State.homeWrite_tasks (s : State) (a : Nat) (bs : List Byte) : (s.homeWrite a bs).tasks = s.tasks :=
  foldl_keeps State.tasks (fun s w => State.release_tasks s w false) s _

@[simp] theorem State.markAD_tasks (s : State) (w : Who) (k : Access) (va : Nat) (t : Trans) : (s.markAD w k va t).tasks = s.tasks := by
  unfold State.markAD
  generalize (if k.needsWR then 0xC0 else 0x40) = want
  by_cases h : t.bits &&& want = want
  · simp [h]
  · simp [h]

@[simp] theorem State.translate_tasks (s : State) (w : Who) (k : Access) (va align : Nat) : (s.translate w k va align).2.tasks = s.tasks := by
  unfold State.translate
  split
  · rfl
  · dsimp only
    repeat' split
    all_goals rfl

@[simp] theorem State.target_tasks (s : State) (w : Who) (spad space : Nat) (k : Access) (ea size align : Nat) :
    (s.target w spad space k ea size align).2.tasks = s.tasks := by
  unfold State.target
  dsimp only
  split
  · split <;> rename_i h <;> exact (congrArg (·.2.tasks) h).symm.trans (State.translate_tasks ..)
  · rfl
  · rfl
  · repeat' split
    all_goals rfl

/-- An operation that leaves the tasks as they were wherever it answers. -/
def Op.KeepsTasks {α : Type} (m : Op α) : Prop := ∀ (s : State) (a : α) (t : State), m s = .ok (a, t) → t.tasks = s.tasks

theorem Op.Keeps.tasks {α : Type} {m : Op α} (h : m.Keeps) : m.KeepsTasks := fun s a t e => by rw [h s a t e]

theorem Op.KeepsTasks.bind {α β : Type} {m : Op α} {f : α → Op β} (hm : m.KeepsTasks) (hf : ∀ a, (f a).KeepsTasks) :
    (m >>= f).KeepsTasks := by
  intro s b t h
  rw [Op.bind_run] at h
  split at h
  · next a u e => exact (hf a u b t h).trans (hm s a u e)
  · cases h

theorem Op.aim_keepsTasks (c : Ctx) (space : Nat) (k : Access) (size align : Nat) (eas : List (Tid × Nat)) :
    (Op.aim c space k size align eas).KeepsTasks := by
  refine (Op.keeps_task c).tasks.bind fun task s as t h => ?_
  rw [Op.bind_of (Op.state_run s)] at h
  generalize hr : List.foldl _ (([], [], s) : List Aimed × List (Tid × Nat × Cause) × State) eas = r at h
  have kept : r.2.2.tasks = s.tasks := by
    rw [← hr]
    refine foldl_keeps (fun acc : List Aimed × List (Tid × Nat × Cause) × State => acc.2.2.tasks) (fun acc x => ?_) _ _
    split <;> rename_i e <;> exact (congrArg (·.2.tasks) e).symm.trans (State.target_tasks ..)
  cases e : failTrap c r.2.1 with
  | some x => rw [e] at h; cases h
  | none =>
    rw [e] at h
    cases h
    refine (foldl_keeps State.tasks (fun s a => ?_) _ _).trans kept
    split
    · exact State.markAD_tasks ..
    · rfl

theorem Op.aimSg_keepsTasks (c : Ctx) (kind : Access) (t : Tid) (ea : Nat) : (Op.aimSg c kind t ea).KeepsTasks := by
  refine Op.KeepsTasks.bind (Op.aim_keepsTasks _ _ _ _ _ _) fun as => ?_
  cases as with
  | nil => exact Op.Keeps.tasks (Op.keeps_trap _ _ _ _)
  | cons a _ => exact (Op.keeps_pure a).tasks

theorem Op.gatherFrom_keepsTasks {α : Type} {check : Tid → Op α} (h : ∀ t, (check t).KeepsTasks) (ts : List Tid) :
    (Op.gatherFrom check ts).KeepsTasks := by
  induction ts with
  | nil => exact (Op.keeps_pure _).tasks
  | cons i is ih =>
    intro s b t e
    unfold Op.gatherFrom at e
    split at e
    · next x s' hc => exact ((ih.bind fun _ => (Op.keeps_pure _).tasks) s' b t e).trans (h i s x s' hc)
    all_goals cases e

/-- A check of every unit that leaves the tasks leaves the issuing warp. -/
theorem Op.KeepsTasks.warp {α : Type} {m : Op α} (k : m.KeepsTasks) {s t : State} {a : α} (h : Runs m s a t) {c : Ctx} {w : Warp}
    (hw : Runs (Op.warp c) s w s) : Runs (Op.warp c) t w t := by
  have e : t.warp? c.task c.warp = s.warp? c.task c.warp := by simp only [State.warp?, State.task?, k s a t h]
  unfold Runs Op.warp at hw ⊢
  rw [e]
  split at hw <;> simp_all

/-! ## Stalagmites (R123, R130, R131, R135) -/

theorem exec_sgwait {w : EWord} {s s₁ s₂ : State} {v : View} {as : List (Tid × Aimed)} (i : IssuesE encOfSgwait w .wait s v) (ha : as ≠ [])
    (hg : Runs (Op.gather v.c fun t => Op.aimSg v.c .sgRead t (sgAddr v.c v.w (v.seenE w) t)) s as s₁)
    (h : Waited v.c 0 (sgwaitFor v.c (v.seenE w) v.w as) s₁ s₂) :
    exec (.sgwait w) s = .next (v.ended .wait s (s₂.waited v.c (sgwaitFor v.c (v.seenE w) v.w as))) := by
  show execSgwait w s = _
  exact issueE_run i (.bind i.warp <| .bind hg <| .some_items ha (Op.waitAll_run h))

theorem exec_sgwait_blocks {w : EWord} {s s₁ s₂ : State} {v : View} {as : List (Tid × Aimed)} {x : WaitItem} {xs : List WaitItem}
    (i : IssuesE encOfSgwait w .wait s v) (ha : as ≠ [])
    (hg : Runs (Op.gather v.c fun t => Op.aimSg v.c .sgRead t (sgAddr v.c v.w (v.seenE w) t)) s as s₁)
    (fresh : ∀ y, s₁.warp? v.c.task v.c.warp = some y → y.wait = none)
    (h : Runs (Op.unmet v.c 0 (waitItems (sgwaitFor v.c (v.seenE w) v.w as))) s₁ (x :: xs) s₂)
    (told : s₂.unanswered v.c.asker = false) :
    exec (.sgwait w) s =
      .next (s.guarded (s₂.block v.c.task v.c.warp 3 (x :: xs) (partsOf v.c (sgwaitFor v.c (v.seenE w) v.w as)))) := by
  have warp : Runs (Op.warp v.c) s₁ v.w s₁ := (Op.gatherFrom_keepsTasks (fun t => Op.aimSg_keepsTasks _ _ _ _) _).warp hg i.warp
  have still : v.w.wait = none := by
    refine fresh _ ?_
    unfold Runs Op.warp at warp
    split at warp <;> simp_all
  show execSgwait w s = _
  refine issueE_holds i ?_
  rw [Op.bind_of i.warp, Op.bind_of hg, if_neg (by simpa using ha)]
  exact Op.waitAll_blocks warp still h told

/-- Settles O28: the wait of a unit's stalagmite runs to its end or blocks; the others read or set once. -/
theorem stalagmiteInstructionsComplete : Obligations.StalagmiteInstructionsComplete := by
  refine ⟨fun w s s₁ s₂ v as => exec_sgwait, fun w s s₁ s₂ v as x xs i ha hg => exec_sgwait_blocks i ha hg,
    fun w s s₁ s₂ v as vs i hg hv => ?_, fun w s s₁ s₂ v as vs i ha hg hv => ?_, fun w s s₁ s₂ v as i hg hs => ?_,
    fun w s s₁ s₂ v ds i hd hg => ?_, fun w s s₁ s₂ v ds i hd hg => ?_⟩
  · intro yes
    show execSgtest w s = _
    refine issueE_run i (.bind i.warp <| .bind hg <| .bind hv ?_)
    by_cases any : vs.any yes
    · rw [if_pos any]
      exact .yes any <| .bind (.acquire ..) (.modWarp ..)
    · rw [if_neg any]
      exact .no any (.modWarp ..)
  · show execSgread w s = _
    exact issueE_run i (.bind i.warp <| .bind hg <| .some_items ha <| .bind hv <| .bind (.acquire ..) (.modWarp ..))
  · show execSgset w s = _
    exact issueE_run i (.bind i.warp <| .bind hg hs)
  · intro fs h
    exact issueE_run (body := ringWait (·.rel) fun d n => n + 1 - 2 ^ d.logcap) i (ringWait_run i.warp hd hg h)
  · intro fs h
    exact issueE_run (body := ringWait (·.fill) fun _ n => n + 1) i (ringWait_run i.warp hd hg h)

/-- Settles O29: three run thread by thread, and BWAIT observes once its wait is over. -/
theorem barrierInstructionsComplete : Obligations.BarrierInstructionsComplete := by
  refine ⟨fun w s t v i h => ?_, fun w s t v i h => ?_, fun w s t v i h => ?_, fun w s s₁ s₂ s₃ s₄ v as i ha hg hc hw ho => ?_⟩
  · exact issueE_run (body := barrierRun bjoinAct) i (Op.eachFrom_run h)
  · exact issueE_run (body := barrierRun bleaveAct) i (Op.eachFrom_run h)
  · exact issueE_run (body := barrierRun barriveAct) i (Op.eachFrom_run h)
  · show execBwait w s = _
    exact issueE_run i (.bind i.warp <| .bind hg <| .some_items ha <| .bind hc <| .bind (Op.waitAll_run hw) ho)

/-! ## The arrival at a barrier (R169, R170) -/

theorem Barrier.ok_iff (b : Barrier) :
    b.ok = true ↔ b.expect ≠ 0 ∧ b.expect * b.phase ≤ b.arrive ∧ b.arrive < b.expect * (b.phase + 1) ∧ b.obs &&& ~~~b.reg = 0 ∧
      b.wcnt = popcount32 b.reg ∧ b.high = 0 := by
  simp [Barrier.ok, and_assoc]

/-- Settles O30: an arrival reaches the end of the phase or stays inside it. -/
theorem arrivalsKeepBarriers : Obligations.ArrivalsKeepBarriers := by
  intro b h
  obtain ⟨pos, lo, hi, obs, cnt, high⟩ := (Barrier.ok_iff b).1 h
  rw [Barrier.ok_iff]
  have pos' : 0 < b.expect := Nat.pos_of_ne_zero pos
  by_cases e : b.arrive + 1 = b.expect * (b.phase + 1)
  · have next : (b.arrive + 1) / b.expect = b.phase + 1 := by rw [e, Nat.mul_div_cancel_left _ pos']
    have more : b.expect * (b.phase + 1) < b.expect * (b.phase + 1 + 1) := (Nat.mul_lt_mul_left pos').2 (Nat.lt_succ_self _)
    rw [show b.arrival = { b with arrive := b.arrive + 1, phase := b.phase + 1, obs := 0 } from if_pos e]
    refine ⟨⟨pos, e.ge, e ▸ more, by simp, cnt, high⟩, rfl, next.symm, rfl, rfl, ?_⟩
    rw [next, if_neg (Nat.succ_ne_self _)]
  · have same : (b.arrive + 1) / b.expect = b.phase :=
      Nat.div_eq_of_lt_le (by rw [Nat.mul_comm]; omega) (by rw [Nat.mul_comm]; omega)
    rw [show b.arrival = { b with arrive := b.arrive + 1 } from if_neg e]
    refine ⟨⟨pos, le_trans lo (Nat.le_succ _), lt_of_le_of_ne hi e, obs, cnt, high⟩, rfl, same.symm, rfl, rfl, ?_⟩
    rw [if_pos same]

/-! ## Groups (R179 to R182) -/

theorem Op.warp_run {s : State} {c : Ctx} {w : Warp} (h : s.warp? c.task c.warp = some w) : Runs (Op.warp c) s w s := by
  simp [Runs, Op.warp, h]

/-- Two warps hold the same registers. -/
structure Warp.SameRegs (y w : Warp) : Prop where
  s : y.s = w.s
  g (t : Tid) : (y.thread t).g = (w.thread t).g
  k (t : Tid) : (y.thread t).k = (w.thread t).k

theorem Warp.SameRegs.read32 {y w : Warp} (h : y.SameRegs w) (c : Ctx) (t : Tid) (sel : Selector) :
    read32 c y t sel = read32 c w t sel := by
  simp only [Machine.read32, read64, Thread.pair, h.s, h.g, h.k]

theorem Warp.SameRegs.modThread {y w : Warp} (h : y.SameRegs w) (t : Tid) {f : Thread → Thread} (hg : ∀ th, (f th).g = th.g)
    (hk : ∀ th, (f th).k = th.k) : (y.modThread t f).SameRegs w := by
  refine ⟨h.s, fun i => ?_, fun i => ?_⟩
  · rw [Warp.thread_modThread]
    split
    · exact (hg _).trans (h.g i)
    · exact h.g i
  · rw [Warp.thread_modThread]
    split
    · exact (hk _).trans (h.k i)
    · exact h.k i

theorem Warp.SameRegs.modThreads {y w : Warp} (h : y.SameRegs w) (ts : List Tid) {f : Thread → Thread} (hg : ∀ th, (f th).g = th.g)
    (hk : ∀ th, (f th).k = th.k) : (y.modThreads ts f).SameRegs w := by
  induction ts generalizing y with
  | nil => exact h
  | cons t ts ih => exact ih (h.modThread t hg hk)

/-- The participants of a WSYNC become waiting, and the other threads pass on; `read` is the warp whose registers hold the masks. -/
def Warp.awaiting (c : Ctx) (sel : Selector) (n : Nat) (read : Warp → Warp) (w : Warp) : Warp :=
  c.parts.foldl (fun x t => x.modThread t fun th => { th with wsync := some (read32 c (read x) t sel, n) })
    (w.modThreads (c.active.filter fun t => !c.parts.contains t) fun th => { th with pc := nextPc th.pc })

theorem Warp.foldl_awaiting {y w : Warp} (h : y.SameRegs w) (c : Ctx) (sel : Selector) (n : Nat) (ts : List Tid) :
    ts.foldl (fun x t => x.modThread t fun th => { th with wsync := some (read32 c x t sel, n) }) y =
      ts.foldl (fun x t => x.modThread t fun th => { th with wsync := some (read32 c w t sel, n) }) y := by
  induction ts generalizing y with
  | nil => simp only [List.foldl_nil]
  | cons t ts ih =>
    simp only [List.foldl_cons, h.read32]
    refine ih (h.modThread t ?_ ?_) <;> exact fun _ => rfl

/-- Each mask is what its register held before the first participant became waiting. -/
theorem Warp.awaiting_id (w : Warp) (c : Ctx) (sel : Selector) (n : Nat) : w.awaiting c sel n (fun x => x) = w.awaiting c sel n fun _ => w := by
  refine Warp.foldl_awaiting (.modThreads ⟨rfl, fun _ => rfl, fun _ => rfl⟩ _ ?_ ?_) c sel n c.parts <;> exact fun _ => rfl

/-- What a WSYNC settles depends on the warp that has just become waiting. -/
theorem State.wsyncSettle_congr {s : State} {c : Ctx} {w : Warp} {f g : Warp → Warp} (hw : s.warp? c.task c.warp = some w)
    (h : f w = g w) : (s.modWarp c.task c.warp f).wsyncSettle c = (s.modWarp c.task c.warp g).wsyncSettle c := by
  have at_ (f : Warp → Warp) : (s.modWarp c.task c.warp f).warp? c.task c.warp = some (f w) := by
    simp [State.warp?_modWarp, hw]
  unfold State.wsyncSettle
  rw [at_ f, at_ g, h]
  simp only [State.modWarp_modWarp]

theorem exec_ginfo {w : EWord} {s : State} {v : View} (i : IssuesE encOfGinfo w .straight s v) (hp : v.c.parts ≠ [])
    (h : vget v.w.groups w.imm.toNat none = none → w.sub = 0) :
    exec (.ginfo w) s = .next (v.ended .straight s (v.onWarp s fun x => v.c.units.foldl (fun x t => putResult v.c v.h .w64 x t
      (match vget v.w.groups w.imm.toNat none with
        | some g => g.query w.sub.toNat
        | none => BitVec.allOnes 64)) x)) := by
  show execGinfo w s = _
  refine issueE_run i (.bind i.warp <| .some_parts hp ?_)
  dsimp only [View.seenE]
  cases e : vget v.w.groups w.imm.toNat none with
  | some g =>
    dsimp only
    exact .bind (.pure ..) (.modWarp ..)
  | none =>
    dsimp only
    exact .yes (h e) <| .bind (.pure ..) (.modWarp ..)

section
variable {w : EWord} {s s₁ s₂ s₃ s₄ : State} {v : View} {t : Tid} {g : GroupSlot} {a : Aimed} {b : Barrier}
  (i : IssuesE encOfGbar w .boundary s v) (hg : vget v.w.groups w.sub.toNat none = some g)
  (ha : Runs (Op.aimBarrier v.c .sgAdd t g.bar.toNat) s a s₁) (hb : Runs (Op.readBarrier v.c t a 0) s₁ b s₂) (reg : b.reg = 0)
  (exp : b.expect = g.nmem)
include i hg ha hb reg exp

/-- The wait half of GBAR, where the phase has come. -/
theorem exec_gbar_wait (half : v.w.atHalf v.c.active = true) (ht : v.c.active.take 1 = [t])
    (hw : s₂.warp? v.c.task v.c.warp = some v.w) :
    let fs : List WaitFor := [{ tid := t, va := a.ea + 8, place := a.target.place.after 8, target := v.w.gwt.toNat, timeout := 0 }]
    Waited v.c 2 fs s₂ s₃ →
    exec (.gbar w) s = .next (v.ended .boundary s (v.onWarp (s₃.waited v.c fs) fun x => x.leaveHalf v.c.active)) := by
  intro fs h
  show execGbar w s = _
  refine issueE_run i (.bind i.warp ?_)
  simp only [half, Bool.not_true, Bool.false_eq_true, if_false, ht, View.seenE, hg]
  exact .bind (.pure ..) <| .bind ha <| .bind hb <| .no (by simp [reg, exp]) <| .bind (Op.warp_run hw) <|
    .bind (Op.waitAll_run h) <| .bind (.modWarp ..) (.pure ..)

/-- GBAR as it arrives, where the phase comes with its arrival. -/
theorem exec_gbar_first {x : Warp} (half : v.w.atHalf v.c.active = false) (ht : v.c.units = [t])
    (arr : Runs (Op.gbarArrive v.c (v.seenE w) t a) s₂ () s₃) (hw : s₃.warp? v.c.task v.c.warp = some x) :
    let fs : List WaitFor := [{ tid := t, va := a.ea + 8, place := a.target.place.after 8, target := x.gwt.toNat, timeout := 0 }]
    Waited v.c 2 fs s₃ s₄ →
    exec (.gbar w) s = .next (v.ended .boundary s
      ((v.onWarp (s₄.waited v.c fs) fun x => x.leaveHalf v.c.active).freeSwitch v.c.task v.c.warp)) := by
  intro fs h
  show execGbar w s = _
  refine issueE_run i (.bind i.warp ?_)
  simp only [half, Bool.not_false, if_true, ht, View.seenE, hg]
  exact .bind (.pure ..) <| .bind ha <| .bind hb <| .no (by simp [reg, exp]) <| .bind arr <| .bind (Op.warp_run hw) <|
    .bind (Op.waitAll_run h) <| .bind (.modWarp ..) (.modify ..)

end

/-- WSYNC of participants none of whose masks names a parked thread. -/
theorem exec_wsync {w : EWord} {s : State} {v : View} (i : IssuesE encOfWsync w .sync s v) (hp : v.c.parts ≠ [])
    (hr : Runs (Op.release v.c (maskOf v.c.parts)) s () s) (hk : ∀ t, v.w.parked t = false) :
    exec (.wsync w) s = .next (v.ended .sync s
      (((v.onWarp s fun x => v.c.parts.foldl (fun x t => x.modThread t fun th =>
          { th with wsync := some (read32 v.c v.w t v.h.a, w.sel.toNat) })
        (x.modThreads (v.c.active.filter fun t => !v.c.parts.contains t) fun th => { th with pc := nextPc th.pc })).wsyncSettle
          v.c).switchPoint v.c.task v.c.warp)) := by
  have free : maskOf (allTids.filter v.w.parked) = 0 := by
    rw [List.filter_eq_nil_iff.2 fun t _ => by simp [hk t]]
    rfl
  have good : v.c.parts.foldl (fun m t => let x := members (read32 v.c v.w t v.h.a)
      if x &&& maskOf (allTids.filter v.w.parked) = 0 then m else m ||| x) (0 : BitVec 16) = 0 := by
    rw [free]
    exact foldl_keeps id (fun b t => by simp) 0 v.c.parts
  show execWsync w s = .next (v.ended .sync s
    (((s.modWarp v.c.task v.c.warp (Warp.awaiting v.c v.h.a w.sel.toNat fun _ => v.w)).wsyncSettle v.c).switchPoint v.c.task v.c.warp))
  rw [State.wsyncSettle_congr (issueView_warp i.view) (Warp.awaiting_id v.w v.c v.h.a w.sel.toNat).symm]
  exact issueE_run i (.bind i.warp <| .some_parts hp <| .bind hr <| .no (not_not.2 good) <| .bind (.modWarp ..) (.modify ..))

/-- Settles O31. -/
theorem groupInstructionsComplete : Obligations.GroupInstructionsComplete :=
  ⟨fun _ _ _ => exec_ginfo, fun _ _ _ _ _ _ _ _ _ _ i half ht hg ha hb reg exp => exec_gbar_wait i hg ha hb reg exp half ht,
    fun _ _ _ _ _ _ _ _ _ _ _ _ i half ht hg ha hb reg exp arr => exec_gbar_first i hg ha hb reg exp half ht arr, fun _ _ _ => exec_wsync⟩

end Sys2Proof.Machine

/-!
PROOFS. O32 to O38: kernels, grace periods and special registers (R142, R151 to R167, R256 to R269, R341 to R351), and what accesses of
memory and requests to peers spare.
-/

namespace Sys2Proof.Machine

open Sys2Proof

/-! ## What accesses of memory and requests to peers spare -/

/-- From one state to another only memory, its caches and translations, the ports and the requests under way have changed. -/
structure State.Spares (s t : State) : Prop where
  mgmt : t.mgmt = s.mgmt
  vault : t.vault = s.vault
  host : t.host = s.host
  contexts : t.contexts = s.contexts
  queues : t.queues = s.queues
  kernels : t.kernels = s.kernels
  tasks : t.tasks = s.tasks
  frozen : t.frozen = s.frozen
  debugSlot : t.debugSlot = s.debugSlot
  time : t.time = s.time
  issuer : t.issuer = s.issuer
  nextId : t.nextId = s.nextId

namespace State.Spares

variable {s t u : State}

theorem refl (s : State) : s.Spares s := ⟨rfl, rfl, rfl, rfl, rfl, rfl, rfl, rfl, rfl, rfl, rfl, rfl⟩

theorem trans (h : s.Spares t) (k : t.Spares u) : s.Spares u :=
  ⟨k.mgmt.trans h.mgmt, k.vault.trans h.vault, k.host.trans h.host, k.contexts.trans h.contexts, k.queues.trans h.queues,
    k.kernels.trans h.kernels, k.tasks.trans h.tasks, k.frozen.trans h.frozen, k.debugSlot.trans h.debugSlot, k.time.trans h.time,
    k.issuer.trans h.issuer, k.nextId.trans h.nextId⟩

theorem ctx (h : s.Spares t) (c : Nat) : t.ctx c = s.ctx c := by
  unfold State.ctx
  rw [h.contexts]

theorem foldl {α : Type} {f : State → α → State} (hf : ∀ (s : State) x, s.Spares (f s x)) (l : List α) (s : State) : s.Spares (l.foldl f s) := by
  induction l generalizing s with
  | nil => exact .refl s
  | cons x l ih => exact (hf s x).trans (ih _)

theorem withOutstanding (s : State) (o : List Outstanding) : s.Spares { s with outstanding := o } :=
  ⟨rfl, rfl, rfl, rfl, rfl, rfl, rfl, rfl, rfl, rfl, rfl, rfl⟩

theorem withWaiters (s : State) (w : List WaiterEntry) : s.Spares { s with waiters := w } :=
  ⟨rfl, rfl, rfl, rfl, rfl, rfl, rfl, rfl, rfl, rfl, rfl, rfl⟩

theorem release (s : State) (a : Nat) (keep : Bool) : s.Spares (s.release a keep) := by
  unfold State.release
  split
  · exact .refl s
  · dsimp only
    split <;> exact ⟨rfl, rfl, rfl, rfl, rfl, rfl, rfl, rfl, rfl, rfl, rfl, rfl⟩

theorem ofRecall (s : State) (a n : Nat) : s.Spares (s.recall a n) := foldl (fun s w => release s w false) _ s

theorem homeWrite (s : State) (a : Nat) (bs : List Byte) : s.Spares (s.homeWrite a bs) :=
  (ofRecall s a bs.length).trans ⟨rfl, rfl, rfl, rfl, rfl, rfl, rfl, rfl, rfl, rfl, rfl, rfl⟩

theorem atomicWrite (s : State) (a n v : Nat) : s.Spares (s.atomicWrite a n v) :=
  (ofRecall s a n).trans ⟨rfl, rfl, rfl, rfl, rfl, rfl, rfl, rfl, rfl, rfl, rfl, rfl⟩

theorem l2Evict (s : State) (a : Nat) : s.Spares (s.l2Evict a) :=
  (foldl (fun s w => release s w false) _ s).trans ⟨rfl, rfl, rfl, rfl, rfl, rfl, rfl, rfl, rfl, rfl, rfl, rfl⟩

theorem l2Touch (s : State) (a : Nat) (alloc : Bool) (prio : Nat) : s.Spares (s.l2Touch a alloc prio) := by
  unfold State.l2Touch
  split
  · exact ⟨rfl, rfl, rfl, rfl, rfl, rfl, rfl, rfl, rfl, rfl, rfl, rfl⟩
  · split
    · exact .refl s
    · dsimp only
      split
      · exact ⟨rfl, rfl, rfl, rfl, rfl, rfl, rfl, rfl, rfl, rfl, rfl, rfl⟩
      · split
        · exact ⟨rfl, rfl, rfl, rfl, rfl, rfl, rfl, rfl, rfl, rfl, rfl, rfl⟩
        · next v _ => exact (l2Evict s v.pa).trans ⟨rfl, rfl, rfl, rfl, rfl, rfl, rfl, rfl, rfl, rfl, rfl, rfl⟩

theorem l2Access (s : State) (bits a n : Nat) : s.Spares (s.l2Access bits a n) := foldl (fun s _ => l2Touch s _ _ _) _ s

theorem markAD (s : State) (w : Who) (k : Access) (va : Nat) (x : Trans) : s.Spares (s.markAD w k va x) := by
  unfold State.markAD
  generalize (if k.needsWR then 0xC0 else 0x40) = want
  by_cases h : x.bits &&& want = want
  · simpa [h] using refl s
  · simp only [h, if_false]
    exact (homeWrite s _ _).trans ⟨rfl, rfl, rfl, rfl, rfl, rfl, rfl, rfl, rfl, rfl, rfl, rfl⟩

theorem translate (s : State) (w : Who) (k : Access) (va align : Nat) : s.Spares (s.translate w k va align).2 := by
  unfold State.translate
  split
  · exact .refl s
  · dsimp only
    repeat' split
    all_goals exact ⟨rfl, rfl, rfl, rfl, rfl, rfl, rfl, rfl, rfl, rfl, rfl, rfl⟩

theorem agentAccess (s : State) (w : Who) (k : Access) (va align n : Nat) : s.Spares (s.agentAccess w k va align n).2 := by
  have first := translate s w k va align
  unfold State.agentAccess
  split <;> rename_i e <;> rw [e] at first
  · exact first
  · next x r =>
    refine first.trans ((markAD r w k va x).trans ?_)
    unfold Trans.l2
    split
    · exact .refl _
    · exact l2Access _ _ _ _

theorem sendOn (s : State) (p cls : Nat) (m : FabricMsg) : s.Spares (s.sendOn p cls m) :=
  ⟨rfl, rfl, rfl, rfl, rfl, rfl, rfl, rfl, rfl, rfl, rfl, rfl⟩

theorem request {who : Asker} {key ctx va peer : Nat} {op : HomeOp} (h : s.request who key ctx va peer op = some t) : s.Spares t := by
  obtain ⟨p, -, rfl⟩ := Option.map_eq_some_iff.1 h
  exact ⟨rfl, rfl, rfl, rfl, rfl, rfl, rfl, rfl, rfl, rfl, rfl, rfl⟩

theorem requestD (s : State) (who : Asker) (key ctx va peer : Nat) (op : HomeOp) : s.Spares ((s.request who key ctx va peer op).getD s) := by
  cases e : s.request who key ctx va peer op with
  | none => exact .refl s
  | some t => exact request e

theorem withdrawRemote (s : State) (p : Asker → Nat → Bool) : s.Spares (s.withdrawRemote p) := by
  have sent (s : State) (o : Outstanding) : s.Spares (match s.routeTo o.peer with
      | some port => s.sendOn port 0 (.withdraw o.peer o.tag)
      | none => s) := by
    split
    · exact sendOn s _ _ _
    · exact .refl s
  exact (withOutstanding s _).trans (foldl sent _ _)

theorem quitWaits (s : State) (p : Asker → Nat → Bool) : s.Spares (s.quitWaits p) :=
  (withdrawRemote s p).trans ⟨rfl, rfl, rfl, rfl, rfl, rfl, rfl, rfl, rfl, rfl, rfl, rfl⟩

theorem enterWaiter {a target : Nat} {who : Waiter} (h : s.enterWaiter a target who = some t) : s.Spares t := by
  unfold State.enterWaiter at h
  repeat' split at h
  all_goals cases h
  · exact .refl _
  · exact ⟨rfl, rfl, rfl, rfl, rfl, rfl, rfl, rfl, rfl, rfl, rfl, rfl⟩

theorem enterWaiterD (s : State) (a target : Nat) (who : Waiter) : s.Spares ((s.enterWaiter a target who).getD s) := by
  cases e : s.enterWaiter a target who with
  | none => exact .refl s
  | some t => exact enterWaiter e

theorem agentWaitAt (s : State) (who : Asker) (key ctx va peer : Nat) (op : HomeOp) :
    s.Spares (s.agentWaitAt who key ctx va peer op).2 := by
  have ask (s : State) : s.Spares (match s.request who key ctx va peer op with
      | some s => (AgentRead.waits, s)
      | none => (.fail .remoteUnreachable, s)).2 := by
    split
    · next e => exact request e
    · exact .refl s
  unfold State.agentWaitAt
  dsimp only
  split
  · exact ⟨rfl, rfl, rfl, rfl, rfl, rfl, rfl, rfl, rfl, rfl, rfl, rfl⟩
  · split
    · split
      · exact (withdrawRemote s _).trans (ask _)
      · split
        · exact (withOutstanding s _).trans (ask _)
        · exact .refl s
    · exact ask s

theorem agentWait (s : State) (who : Asker) (key ctx va target : Nat) : s.Spares (s.agentWait who key ctx va target).2 := by
  have first := agentAccess s (s.agentWho ctx) .sgRead va 8 8
  unfold State.agentWait
  split <;> rename_i e <;> rw [e] at first <;> refine first.trans ?_
  · exact quitWaits _ _
  · dsimp only
    split
    · exact ⟨rfl, rfl, rfl, rfl, rfl, rfl, rfl, rfl, rfl, rfl, rfl, rfl⟩
    · exact (withWaiters _ _).trans (enterWaiterD _ _ _ _)
  · exact agentWaitAt _ _ _ _ _ _ _
  · exact .refl _

theorem storeCont (s : State) (ctx : Nat) (r : Cont) : s.Spares (s.storeCont ctx r) := by
  unfold State.storeCont
  dsimp only
  generalize hva : bitsOf (s.ctx ctx).cqcfg.toNat 55 6 * 64 + 32 * r.slot = va
  have first := agentAccess s (s.agentWho ctx) .store va 32 32
  split <;> rename_i e <;> rw [e] at first <;> refine first.trans ?_
  · exact homeWrite _ _ _
  · exact requestD _ _ _ _ _ _ _
  · exact .refl _

end State.Spares

/-! ## Contexts and kernels -/

theorem State.ctx_modCtx_same (s : State) {c : Nat} (f : Context → Context) (h : c < 64) : (s.modCtx c f).ctx c = f (s.ctx c) := by
  simp [State.ctx, State.modCtx, vmod, vget, List.getD, h]

theorem State.ctx_modCtx_other (s : State) {c d : Nat} (f : Context → Context) (h : d ≠ c) : (s.modCtx c f).ctx d = s.ctx d := by
  simp [State.ctx, State.modCtx, vmod, vget, List.getD, h.symm]

/-- A part of a context that a change leaves is left in every slot. -/
theorem State.ctx_modCtx_keeps {α : Type} (g : Context → α) (s : State) (c : Nat) {f : Context → Context} (h : ∀ x, g (f x) = g x)
    (d : Nat) : g ((s.modCtx c f).ctx d) = g (s.ctx d) := by
  by_cases e : d = c
  · subst e
    by_cases lt : d < 64
    · rw [State.ctx_modCtx_same s f lt, h]
    · simp [State.ctx, State.modCtx, vmod, vget, List.getD, lt]
  · rw [State.ctx_modCtx_other s f e]

theorem State.ctx_modKernel (s : State) (id : Nat) (f : Kernel → Kernel) (c : Nat) : (s.modKernel id f).ctx c = s.ctx c := rfl

theorem State.kernel?_modKernel {s : State} {id : Nat} {k : Kernel} {f : Kernel → Kernel} (hf : ∀ x, (f x).id = x.id)
    (h : s.kernel? id = some k) : (s.modKernel id f).kernel? id = some (f k) := by
  have key : k.id = id := by simpa using List.find?_some h
  have same : (fun x : Kernel => (if x.id = id then f x else x).id == id) = fun x => x.id == id := by
    funext x
    by_cases e : x.id = id <;> simp [e, hf]
  simp only [State.kernel?, State.modKernel, List.find?_map, Function.comp_def, same]
  rw [show s.kernels.find? (fun x => x.id == id) = some k from h]
  simp [key]

/-! ## Spawned tasks (R151, R153, R158, R165) -/

/-- A record of the continuation queue but for what the distributor notes of its conditions and for its place. -/
def Cont.record (x : Cont) : Nat × Nat × W64 × W64 × W64 × W64 × Nat × Bool :=
  (x.id, x.kid, x.w0, x.w1, x.w2, x.w3, x.index, x.counted)

/-- Two states hold the same records in a context's continuation queue, and the same kernels. -/
structure State.SameRecords (ctx : Nat) (s t : State) : Prop where
  kernels : t.kernels = s.kernels
  records : (t.ctx ctx).cq.map Cont.record = (s.ctx ctx).cq.map Cont.record

namespace State.SameRecords

variable {ctx : Nat} {s t u : State}

theorem refl (s : State) : SameRecords ctx s s := ⟨rfl, rfl⟩

theorem trans (h : SameRecords ctx s t) (k : SameRecords ctx t u) : SameRecords ctx s u :=
  ⟨k.kernels.trans h.kernels, k.records.trans h.records⟩

theorem of_spares (h : s.Spares t) : SameRecords ctx s t := ⟨h.kernels, by rw [h.ctx]⟩

theorem modCont (s : State) (r : Cont) {f : Cont → Cont} (h : ∀ x, (f x).record = x.record) : SameRecords ctx s (s.modCont ctx r f) := by
  refine ⟨rfl, State.ctx_modCtx_keeps (fun c => c.cq.map Cont.record) s ctx (fun c => ?_) ctx⟩
  rw [List.map_map]
  refine List.map_congr_left fun x _ => ?_
  simp only [Function.comp_apply]
  split
  · exact h x
  · rfl

theorem dependenceRecord (s : State) (kid addr : Nat) : SameRecords ctx s (s.dependenceRecord ctx kid addr) := by
  refine ⟨rfl, State.ctx_modCtx_keeps (fun c => c.cq.map Cont.record) s ctx ?_ ctx⟩
  exact fun _ => rfl

theorem condHolds {r : Cont} {i : Nat} {b : Bool} (h : Op.condHolds ctx r i s = .ok (b, t)) : SameRecords ctx s t := by
  have meet (s : State) : SameRecords ctx s (s.modCont ctx r fun x => { x with met := i :: x.met }) := modCont s r fun _ => rfl
  unfold Op.condHolds at h
  dsimp only at h
  split at h
  · cases h
    exact .refl s
  · split at h
    · cases h
      refine trans ?_ (meet _)
      exact (of_spares (.quitWaits s _)).trans ⟨rfl, rfl⟩
    · split at h
      · cases h
        exact .refl s
      · have first := State.Spares.agentWait s (.kernel r.kid) (r.condKey i) ctx (r.condVa i) (r.condThr i)
        split at h <;> rename_i e <;> rw [e] at first <;> cases h <;> refine (of_spares first).trans ?_
        · split
          · exact meet _
          · exact .refl _
        · exact .refl _
        · have lost (s : State) : SameRecords ctx s (s.condLost r i) := ⟨rfl, rfl⟩
          split
          · exact lost _
          · refine (lost _).trans (trans (modCont _ r ?_) (dependenceRecord _ _ _))
            exact fun _ => rfl

theorem eligible {r : Cont} {b : Bool} (h : Op.eligible ctx r s = .ok (b, t)) : SameRecords ctx s t := by
  have bind {α : Type} {m : Op Bool} {f : Bool → Op α} (hm : ∀ s b t, m s = .ok (b, t) → SameRecords ctx s t)
      (hf : ∀ b s a t, f b s = .ok (a, t) → SameRecords ctx s t) (s : State) (a : α) (t : State) (h : (m >>= f) s = .ok (a, t)) :
      SameRecords ctx s t := by
    rw [Op.bind_run] at h
    split at h
    · next b u e => exact (hm s b u e).trans (hf b u a t h)
    · cases h
  have pass {α : Type} (a : α) (s : State) (b : α) (t : State) (h : (pure a : Op α) s = .ok (b, t)) : SameRecords ctx s t := by
    cases h
    exact .refl s
  have second (a : Bool) (s : State) (b : Bool) (t : State) (h : (if 2 ≤ r.conds then Op.condHolds ctx r 2 >>= fun x => pure (a && x)
      else pure true >>= fun x => pure (a && x) : Op Bool) s = .ok (b, t)) : SameRecords ctx s t := by
    split at h
    · exact bind (fun _ _ _ => condHolds) (fun _ => pass _) _ _ _ h
    · exact bind (pass _) (fun _ => pass _) _ _ _ h
  unfold Op.eligible at h
  dsimp only at h
  split at h
  · exact bind (fun _ _ _ => condHolds) second _ _ _ h
  · exact bind (pass _) second _ _ _ h

end State.SameRecords

/-- A record that joins the queue stands behind those that were there. -/
theorem State.pushCont_records (s : State) {ctx : Nat} (r : Cont) (h : ctx < 64) :
    (s.pushCont ctx r).kernels = s.kernels ∧
      ((s.pushCont ctx r).ctx ctx).cq.map Cont.record = (s.ctx ctx).cq.map Cont.record ++ [r.record] := by
  have stored := State.Spares.storeCont s ctx { r with slot := (s.ctx ctx).cqSlot }
  refine ⟨stored.kernels, ?_⟩
  unfold State.pushCont
  rw [State.ctx_modCtx_same _ _ h, List.map_append]
  have ctxs : (s.storeCont ctx { r with slot := (s.ctx ctx).cqSlot }).ctx ctx = s.ctx ctx := stored.ctx ctx
  rw [ctxs]
  rfl

/-- The first judgement of a record. -/
def State.judged (s : State) (ctx : Nat) (r : Cont) : State := match Op.eligible ctx r s with
  | .ok (_, s) => s
  | .error _ => s

theorem State.judged_records (s : State) (ctx : Nat) (r : Cont) : State.SameRecords ctx s (s.judged ctx r) := by
  unfold State.judged
  split
  · next e => exact .eligible e
  · exact .refl s

/-- The record that SPAWN adds. -/
def State.spawned (s : State) (k : Kernel) (r : Cont) (counted : Bool) : Cont :=
  { r with id := s.nextId, w0 := r.w0 ||| BitVec.ofNat 64 (k.handle.getD 0 * 2 ^ 50), index := (k.lr.points + k.spawns) % 2 ^ 32,
           counted := counted }

/-- A kernel with one more task. -/
def Kernel.oneMore (counted : Bool) (x : Kernel) : Kernel :=
  { x with live := x.live + 1, counted := if counted then x.counted + 16 * (x.lr.warps + 1) else x.counted }

/-- The state with one more task counted for its kernel. -/
def State.spawnCount (s : State) (k : Kernel) : State :=
  { s with nextId := s.nextId + 1 }.modKernel k.id fun x => { x with spawns := x.spawns + 1 }

theorem State.ctx_spawnCount (s : State) (k : Kernel) (c : Nat) : (s.spawnCount k).ctx c = s.ctx c := rfl

theorem State.spawnCount_kernel {s : State} {k : Kernel} (h : s.kernel? k.id = some k) :
    (s.spawnCount k).kernel? k.id = some { k with spawns := k.spawns + 1 } :=
  State.kernel?_modKernel (s := { s with nextId := s.nextId + 1 }) (f := fun x => { x with spawns := x.spawns + 1 }) (fun _ => rfl) h

theorem State.spawn_faulted (s : State) (ctx : Nat) {k : Kernel} (r : Cont) (counted : Bool) (h : k.st = 8) :
    s.spawn ctx k r counted = ((k.lr.points + k.spawns) % 2 ^ 32,
      (s.spawnCount k).modKernel k.id fun x => { x with joins := x.joins ++ [r.join].filter fun j => j != 0 }) := if_pos h

theorem State.spawn_joins (s : State) (ctx : Nat) {k : Kernel} (r : Cont) (counted : Bool) (h : k.st ≠ 8) :
    s.spawn ctx k r counted = ((k.lr.points + k.spawns) % 2 ^ 32,
      (((s.spawnCount k).pushCont ctx (s.spawned k r counted)).modKernel k.id (Kernel.oneMore counted)).judged ctx
        (s.spawned k r counted)) := if_neg h

/-- Settles O33: the record joins the end of the queue, whose records no judgement of its conditions changes. -/
theorem spawnsJoinTheQueue : Obligations.SpawnsJoinTheQueue := by
  intro s ctx k r counted hc hk u key
  have count := State.spawnCount_kernel hk
  refine ⟨?_, fun hs => ⟨⟨s.spawned k r counted, ?_, rfl, rfl, rfl, rfl⟩, ?_⟩, fun hs => ⟨?_, ?_⟩⟩
  · by_cases hs : k.st = 8
    · rw [show u = _ from State.spawn_faulted s ctx r counted hs]
    · rw [show u = _ from State.spawn_joins s ctx r counted hs]
  · obtain ⟨-, pushed⟩ := (s.spawnCount k).pushCont_records (s.spawned k r counted) hc
    rw [show u = _ from State.spawn_joins s ctx r counted hs]
    show List.map Cont.record _ = List.map Cont.record (s.ctx ctx).cq ++ [(s.spawned k r counted).record]
    rw [(State.judged_records _ ctx _).records, State.ctx_modKernel, pushed, State.ctx_spawnCount]
  · obtain ⟨same, -⟩ := (s.spawnCount k).pushCont_records (s.spawned k r counted) hc
    have there : ((s.spawnCount k).pushCont ctx (s.spawned k r counted)).kernel? k.id = some { k with spawns := k.spawns + 1 } := by
      rw [← count]
      simp only [State.kernel?, same]
    rw [show u = _ from State.spawn_joins s ctx r counted hs]
    refine ⟨Kernel.oneMore counted { k with spawns := k.spawns + 1 }, ?_, rfl, rfl⟩
    rw [State.kernel?, (State.judged_records _ ctx _).kernels]
    exact State.kernel?_modKernel (f := Kernel.oneMore counted) (fun _ => rfl) there
  · rw [show u = _ from State.spawn_faulted s ctx r counted hs]
    rfl
  · rw [show u = _ from State.spawn_faulted s ctx r counted hs]
    refine ⟨_, State.kernel?_modKernel (fun _ => rfl) count, rfl, rfl, ?_⟩
    by_cases hj : r.join = 0#64 <;> simp [hj]

/-- Settles O32: each is the thread-by-thread run of its checks and its act. -/
theorem kernelInstructionsComplete : Obligations.KernelInstructionsComplete := by
  refine ⟨fun w s t v i h => ?_, fun w s t v i h => ?_, fun w s t v i h => ?_, fun w s t v i h => ?_⟩
  · show execLaunch w s = _
    exact issueE_run i (Op.eachFrom_run h)
  · show execSpawn w s = _
    exact issueE_run i (Op.eachFrom_run h)
  · show execTrig w s = _
    exact issueE_run i (Op.eachFrom_run h)
  · show execTaskq w s = _
    exact issueE_run i (Op.eachFrom_run h)

/-! ## Grace periods (R263 to R267) -/

theorem Op.graceCheck_run {c : Ctx} {s : State} (mask : BitVec 16) (h : s.graceBad c.ctx = none) : Runs (Op.graceCheck c mask) s () s := by
  unfold Op.graceCheck
  refine .bind (.state s) ?_
  rw [h]
  exact .pure ..

theorem exec_gpnum_asks {w : EWord} {s : State} {v : View} (i : IssuesE encOfGpnum w .straight s v) (hp : v.c.parts ≠ [])
    (hs : w.sub = 1) (hc : v.c.ctx < 64) (hg : s.graceBad v.c.ctx = none) (hr : Runs (Op.release v.c (maskOf v.c.parts)) s () s) :
    exec (.gpnum w) s = .next (v.ended .straight s (v.onWarp (s.requestGrace v.c.ctx) fun x =>
      v.c.units.foldl (fun x t => putResult v.c v.h .w64 x t ((s.ctx v.c.ctx).gpreq + 1)) x)) := by
  have same : ((s.requestGrace v.c.ctx).ctx v.c.ctx).gpreq = (s.ctx v.c.ctx).gpreq := by
    rw [State.requestGrace, State.ctx_modCtx_same _ _ hc]
  rw [← same]
  show execGpnum w s = _
  refine issueE_run i (.some_parts hp ?_)
  simp only [View.seenE, hs]
  exact .yes rfl <| .bind (Op.graceCheck_run _ hg) <| .bind hr <| .bind (.modify ..) <| .bind (.state _) (.modWarp ..)

theorem exec_gpwait {w : EWord} {s s₁ s₂ : State} {v : View} {p : Place} (i : IssuesE encOfGpwait w .wait s v) (hp : v.c.parts ≠ [])
    (hg : s.graceBad v.c.ctx = none) (hd : v.w.depth = 0) (hh : v.w.held = 0) :
    let va := (s.ctx v.c.ctx).graceVa + 8
    s.agentAccess (s.agentWho v.c.ctx) .sgRead va 8 8 = (.ok p, s₁) →
    Waited v.c 0 (gpwaitFor v.c (v.seenE w) v.w va p) s₁ s₂ →
    exec (.gpwait w) s = .next (v.ended .wait s (s₂.waited v.c (gpwaitFor v.c (v.seenE w) v.w va p))) := by
  intro va ha h
  show execGpwait w s = _
  refine issueE_run i (.some_parts hp <| .bind i.warp <| .bind (Op.graceCheck_run _ hg) <| .no (by simp [hd, hh]) <| .bind (.state s) ?_)
  dsimp only
  rw [show s.agentAccess (s.agentWho v.c.ctx) .sgRead ((s.ctx v.c.ctx).graceVa + 8) 8 8 = _ from ha]
  exact .bind (.put ..) (Op.waitAll_run h)

/-- Settles O34. -/
theorem graceInstructionsComplete : Obligations.GraceInstructionsComplete := by
  refine ⟨fun w s s₁ v live i hd hl => ?_, fun w s s₁ v live i hd hl hr => ?_, fun w s v i hp hs => ?_,
    fun w s v => exec_gpnum_asks, fun w s s₁ s₂ v p => exec_gpwait, fun w s t v i h => ?_⟩
  · show execRsb w s = _
    exact issueE_run i (.bind i.warp <| .no hd <| .bind hl <| .bind (.acquire ..) (.modify ..))
  · show execRse w s = _
    exact issueE_run i (.bind i.warp <| .no hd <| .bind hl <| .bind hr (.modify ..))
  · show execGpnum w s = _
    refine issueE_run i (.some_parts hp ?_)
    simp only [View.seenE, hs]
    refine .no (by decide) <| .bind (.state s) ?_
    have zero : (s.ctx v.c.ctx).gpreq + 0 = (s.ctx v.c.ctx).gpreq := BitVec.add_zero _
    simp only [show ((0 : BitVec 3) == 1) = false from rfl, Bool.false_eq_true, if_false, zero]
    exact .modWarp ..
  · show execDfree w s = _
    exact issueE_run i (Op.eachFrom_run h)

/-! ## Instructions that read one value (R348, R350, R375, R384, R388) -/

/-- Settles O35. -/
theorem readsComplete : Obligations.ReadsComplete := by
  unfold Obligations.ReadsComplete
  intro gives
  refine ⟨fun w s v i => ?_, fun w s v i => ?_, fun w s v i => ?_, fun w s v i => ?_, fun w s v i => ?_, fun w s v i => ?_⟩
  · show execFeat w s = _
    exact issueE_run i (.modWarp ..)
  · show execImplq w s = _
    exact issueE_run i (.bind i.warp (.modWarp ..))
  · show execClk w s = _
    exact issueE_run i (.bind (.state s) (.modWarp ..))
  · show execPerfrd w s = _
    exact issueE_run i (.bind (.state s) <| .bind i.warp (.modWarp ..))
  · show execLnkq w s = _
    exact issueE_run i (.bind (.state s) (.modWarp ..))
  · show execTrcmk w s = _
    exact issueE_run i (.bind i.warp (.modify ..))

/-! ## SRRD and SRWR (R341, R349) -/

theorem exec_srrd {w : EWord} {s : State} {v : View} {t : Task} {is : List (Tid × Nat)} (i : IssuesE encOfSrrd w .straight s v)
    (ht : s.task? v.c.task = some t) (hi : is ≠ [])
    (hg : Runs (Op.sysIndexes v.c (v.seenE w) fun s i => s.srrdFault v.c (sysNumber w) i w.sub.toNat) s is s) :
    let s₁ := v.onWarp s fun x =>
      let x := is.foldl (fun (x : Warp) (p : Tid × Nat) => putResult v.c v.h .w64 x p.1 (s.sysRead t v.w (sysNumber w) p.2)) x
      if w.sub = 1 then { x with flags := x.flags &&& ~~~v.w.flags } else x
    exec (.srrd w) s = .next (v.ended .straight s (if w.sub = 1 then
      v.onWarp s₁ fun x => x.modThreads (if v.c.u then v.c.active else is.map (·.1)) .commit else s₁)) := by
  intro s₁
  show execSrrd w s = _
  refine issueE_run i (.bind hg <| .some_items hi <| .bind i.warp <| .bind (Op.task_run ht) <| .bind (.state s) <| .bind (.modWarp ..) ?_)
  by_cases h : w.sub = 1
  · rw [show (if w.sub = 1 then v.onWarp s₁ fun x => x.modThreads (if v.c.u then v.c.active else is.map (·.1)) .commit else s₁) = _
      from if_pos h]
    exact .yes h rfl
  · rw [show (if w.sub = 1 then v.onWarp s₁ fun x => x.modThreads (if v.c.u then v.c.active else is.map (·.1)) .commit else s₁) = _
      from if_neg h]
    exact .no h (.pure ..)

/-- A write of TLBINV for which the queue has room. -/
theorem Op.tlbinv_run {c : Ctx} {f : Tid → W64} {ts : List Tid} {s s₁ : State} {xs : List (Tid × Nat)}
    (hg : Runs (Op.gatherFrom (fun t => Op.invRead c t (f t).toNat) ts) s xs s₁) (hq : s₁.invq.length + xs.length ≤ invCap) :
    Runs (Op.tlbinv c f ts) s () (xs.foldl (fun (s : State) (x : Tid × Nat) =>
      s.queueInvalidation (Invalidation.parse x.2 (some c.ctx) c.priv)) (s₁.acquire c.core)) :=
  .bind hg <| .bind (.state _) <| .no (not_lt.2 hq) <| .bind (.acquire ..) (.modify ..)

/-- Settles O36. -/
theorem specialRegistersComplete : Obligations.SpecialRegistersComplete := by
  refine ⟨fun w s v t is => exec_srrd, fun w s t v is i hi hn hg h => ?_, fun w s s₁ v is xs i hi hn hg hx hq => ?_⟩
  · show execSrwr w s = _
    exact issueE_run i (.bind hg <| .some_items hi <| .bind i.warp <| .no hn (Op.eachFrom_run h))
  · show execSrwr w s = _
    exact issueE_run i (.bind hg <| .some_items hi <| .bind i.warp <| .yes hn <| .bind (Op.tlbinv_run hx hq) rfl)

/-! ## Privilege (R31, R42, R351) -/

/-- A privileged word of a warp that is not, whose profile the context has. -/
theorem Enc.fault_privileged {x : Enc} {e : Env} (h : Head) (hp : x.priv = true) (he : e.priv = false) (prof : x.prof ≤ e.prof)
    (fmt : x.fmtProf = 0) (types : x.types = []) : x.fault e h = some .privileged := by
  simp [Enc.fault, hp, he, fmt, types, not_lt.2 prof]

/-- A word whose fields have a fault takes it at once, with the active set. -/
theorem issue_fault {x : Head → Enc} {h : Head} {imm : W32} {flow : Flow} {body : Ctx → Head → Op Unit} {s : State} {v : View} {cause : Cause}
    (hv : issueView x h imm s = some v)
    (hf : v.e.fault { regs := v.c.regs, prof := v.c.prof, priv := v.c.priv, inMacro := v.w.mac.isSome } v.h = some cause) :
    issue x h imm flow body s = .next (v.trapped s { cause := cause, mask := maskOf v.c.active }) := by
  simp [issue, hv, View.early, hf, State.keeping, View.trapped]

/-- What a word makes of its fields is its encoding after the substitution of the parameters of MCALL. -/
theorem issueView_enc {x : Head → Enc} {h : Head} {imm : W32} {s : State} {v : View} (e : issueView x h imm s = some v) : v.e = x v.h := by
  simp only [issueView, Option.bind_eq_some_iff, Option.map_eq_some_iff] at e
  obtain ⟨r, hr, t, ht, w, hw, rfl⟩ := e
  rfl

theorem issueE_privileged {x : EWord → Enc} {w : EWord} {flow : Flow} {body : Ctx → EWord → Op Unit} {s : State} {v : View}
    (hx : ∀ k, (x k).priv = true ∧ (x k).prof = 1 ∧ (x k).fmtProf = 0 ∧ (x k).types = [])
    (hv : issueView (fun h => x { w with h := h }) w.h w.imm s = some v) (hp : v.c.priv = false) (prof : 1 ≤ v.c.prof) :
    issueE x w flow body s = .next (v.trapped s { cause := .privileged, mask := maskOf v.c.active }) := by
  refine issue_fault (body := fun c h => body c { w with h := h }) hv ?_
  obtain ⟨priv, one, fmt, types⟩ := hx { w with h := v.h }
  rw [issueView_enc hv]
  exact Enc.fault_privileged _ priv hp (by rw [one]; exact prof) fmt types

/-- Settles O37. -/
theorem privilegedWordsTrap : Obligations.PrivilegedWordsTrap := by
  refine ⟨fun _ => rfl, fun i s v h hp prof => ?_⟩
  obtain ⟨w, rfl, hv⟩ | ⟨w, rfl, hv⟩ | ⟨w, rfl, hv⟩ | ⟨w, rfl, hv⟩ := h
  · show execResume w s = _
    exact issueE_privileged (fun _ => ⟨rfl, rfl, rfl, rfl⟩) hv hp prof
  · show execKill w s = _
    exact issueE_privileged (fun _ => ⟨rfl, rfl, rfl, rfl⟩) hv hp prof
  · show execSrwr w s = _
    exact issueE_privileged (fun _ => ⟨rfl, rfl, rfl, rfl⟩) hv hp prof
  · show execSgset w s = _
    exact issueE_privileged (fun _ => ⟨rfl, rfl, rfl, rfl⟩) hv hp prof

theorem handleRun_run {act : State → Nat → Bool × State} {c : Ctx} {k : EWord} {s : State} {w : Warp} (hw : Runs (Op.warp c) s w s) :
    Runs (handleRun act c k) s () (c.units.foldl (fun (x : State) t =>
      (act x (read64 c w t k.h.a).toNat).2.modWarp c.task c.warp fun y =>
        putPred c k.pi.toNat y t (act x (read64 c w t k.h.a).toNat).1)
      (s.modWarp c.task c.warp fun y => y.modThreads (if c.u then c.active else c.parts) .commit)) :=
  .bind hw <| .bind rfl (.modify ..)

/-- Settles O38. -/
theorem handleInstructionsComplete : Obligations.HandleInstructionsComplete := by
  unfold Obligations.HandleInstructionsComplete
  intro runs
  refine ⟨fun w s v i => ?_, fun w s v i => ?_⟩
  · show execResume w s = _
    exact issueE_run i (handleRun_run i.warp)
  · show execKill w s = _
    exact issueE_run i (handleRun_run i.warp)

end Sys2Proof.Machine

/-!
PROOFS. O39 to O41, O43 and O44: planes, tiles and multiplies of the matrix array, the codec, and the commands of the engines (R270 to
R334).
-/

namespace Sys2Proof.Machine

open Sys2Proof

/-! ## Words that wait in their place -/

theorem issueT_holds {x : TWord → Enc} {w : TWord} {flow : Flow} {s t : State} {v : View} {body : Ctx → TWord → Op Unit}
    (i : IssuesT x w flow s v) (b : body v.c (v.seenT w) s = .error (.hold t)) :
    issueT x w flow body s = .next (s.guarded t) :=
  i.holds (body := fun c h => body c { w with h := h }) b

section
variable {α β : Type} {s t r : State}

/-- An operation that runs, and then one that waits where it stands. -/
theorem Runs.thenHolds {m : Op α} {f : α → Op β} {a : α} (h : Runs m s a t) (k : f a t = .error (.hold r)) :
    (m >>= f) s = .error (.hold r) := by
  rw [Op.bind_of h, k]

/-- A check that no unit fails. -/
theorem Runs.none_bad {γ : Type} {xs : List γ} {m n : Op α} {a : α} (h : xs = []) (k : Runs n s a t) :
    Runs (if !xs.isEmpty then m else n) s a t :=
  .no (by simp [h]) k

/-- A choice in the program and the same one in the outcome. -/
theorem Runs.either {p : Prop} [Decidable p] {m n : Op α} {a : α} {t₁ t₂ : State}
    (yes : Runs m s a t₁) (no : Runs n s a t₂) :
    Runs (if p then m else n) s a (if p then t₁ else t₂) := by
  split
  · exact yes
  · exact no

/-- What runs in its place of the issue order leaves the place. -/
theorem Runs.inPlace {c : Ctx} {o : MatOp} {f : Op α} {a : α} (h : Runs f s a t) : Runs (Op.inPlace c o f) s a (t.leavePlace c) := by
  unfold Runs Op.inPlace
  rw [show f s = .ok (a, t) from h]

end

/-! ## Planes (R275, R285, R286) -/

section
variable {w : TWord} {s s₁ : State} {v : View} {y : Plane} {t : Task} {x : Shape × Option TDesc} {g : TDesc → Op Unit}

/-- What WLOAD does after its checks (R285). -/
def wloadTakes (v : View) (w : TWord) (s : State) (y : Plane) (t : Task) : Op Unit :=
  if y.st = .loading then pure () else do
    Op.modify fun s => (s.modCore v.c.core fun q => q.issueOp (wloadOp v.c (v.seenT w) v.w t)).modPlane
      v.c.task w.plane.toNat fun p => { p with st := .loading }
    Op.stallHere v.c (s.loadStall v.c.core v.c.task (s.core v.c.core).nextOp w.plane.toNat)

theorem wloadRun_checked (i : IssuesT wloadEnc w .straight s v) (hp : v.c.parts ≠ []) (ht : s.task? v.c.task = some t)
    (first : s.pendingOp v.c.core { task := v.c.task, warp := v.c.warp } 2 = none)
    (own : Runs (Op.ownPlane v.c w.plane.toNat) s y s) (shape : Runs (Op.shape v.c v.w w.osrq.toNat) s x s₁)
    (fits : ¬ (128 < x.1.rows ∨ largestK x.1.format < x.1.cols ∨ v.h.b ≠ 0xC8 ∧ x.1.cols % 2 = 1))
    (tile : ∀ d, x.2 = some d → Runs (Op.coordinate v.c.whole v.w d x.1.tx x.1.ty) s₁ () s₁) :
    wloadRun v.c (v.seenT w) s = wloadTakes v w s y t s₁ := by
  unfold wloadRun
  rw [if_neg (by simpa using hp), Op.bind_of (Runs.state s), first]
  dsimp only [View.seenT]
  rw [Op.bind_of own, Op.bind_of i.warp, Op.bind_of (Op.task_run ht), Op.bind_of shape]
  refine (congrFun (if_neg fits) s₁).trans ?_
  cases d : x.2 with
  | none => rfl
  | some d' =>
    dsimp only
    rw [Op.bind_of (tile d' d)]
    rfl

theorem exec_wload (i : IssuesT wloadEnc w .straight s v) (checked : wloadRun v.c (v.seenT w) s = wloadTakes v w s y t s₁) :
    exec (.wload w) s = .next (if y.st = .loading then v.ended .straight s s₁ else v.stalled s
      ((s₁.modCore v.c.core fun q => q.issueOp (wloadOp v.c (v.seenT w) v.w t)).modPlane
        v.c.task w.plane.toNat fun p => { p with st := .loading })
      (s.loadStall v.c.core v.c.task (s.core v.c.core).nextOp w.plane.toNat)) := by
  show execWload w s = _
  unfold execWload
  by_cases loads : y.st = .loading
  · rw [if_pos loads]
    exact issueT_run i (checked.trans (Runs.yes loads (.pure ..)))
  · rw [if_neg loads]
    refine issueT_holds i (checked.trans ?_)
    unfold wloadTakes
    rw [if_neg loads]
    exact Runs.thenHolds (.modify ..) rfl

end

/-- What agent events of a warp's operations do when their core runs and their operation waits for nothing. -/
theorem exec_planeLoadComplete {i : WarpId} {s s₁ s₂ : State} {r : WarpRef} {o : MatOp} {k : TWord} {v : View} {t : Task}
    {x : Shape × Option TDesc} {rows : List Row × Option (List Byte)} {cols : List (List (Nat × Nat))}
    (at_ : s.warpAt i.core i.warp = some r) (op : s.pendingOp i.core r 2 = some o) (word : o.word = some k)
    (free : s.planeWaits i.core r.task o.n k.plane.toNat = false) (runs : s.coreRuns i.core = true)
    (ready : s.tableWaits i.core o = false) (iss : IssuesT wloadEnc k .straight { s with issuer := some r } v)
    (ht : ({ s with issuer := some r } : State).task? v.c.task = some t)
    (shape : Runs (Op.shape v.c v.w k.osrq.toNat) { s with issuer := some r } x s₁)
    (read : Runs (Op.asWarp v.c.whole (Op.planeRows v.c (v.seenT k) o.maddr t x)) s₁ rows s₂)
    (hc : planeColumns rows.1 rows.2 = some cols) :
    let y : Plane :=
      { st := .loaded, fmt := x.1.fmt, k := if v.h.b = 0xC8 then x.1.cols else 2 * x.1.cols, n := x.1.rows,
        sparse := v.h.b != 0xC8, bs32 := x.1.bs32, unit := x.1.unit, cols := cols, scales := rows.1.map fun (row : Row) => row.2 }
    exec (.planeLoadComplete i) s = .next (s.guarded (v.ended .straight { s with issuer := some r }
      (((s₂.dropOp v.c.core o.n).modPlane v.c.task k.plane.toNat fun _ => y).modCore v.c.core fun q =>
        { q.planeReady v.c.task k.plane.toNat y with idle := 0 }))) := by
  intro y
  show execPlaneLoadComplete i s = _
  unfold execPlaneLoadComplete
  rw [at_]
  simp only [op, word, free, runs, ready, Bool.not_true, Bool.or_self, Bool.false_eq_true, if_false]
  refine congrArg (State.keeping s) (issueT_run iss (.bind iss.warp <| .bind (Op.task_run ht) <| .bind shape <| .bind read ?_))
  rw [hc]
  exact .modify ..

/-- Settles O39. -/
theorem planeInstructionsComplete : Obligations.PlaneInstructionsComplete := by
  refine ⟨fun w s s₁ v y t x i hp ht first own shape rows cols even tile => exec_wload i ?_,
    fun i s s₁ s₂ r o k v t x rows cols at_ op word free runs ready => exec_planeLoadComplete at_ op word free runs ready,
    fun w s v y i hp own => ?_⟩
  · refine wloadRun_checked i hp ht first own shape ?_ tile
    rintro (many | wide | ⟨sparse, odd⟩)
    · omega
    · omega
    · exact sparse (even.resolve_right (by omega))
  · show execWfree w s = _
    exact issueT_run i (.some_parts hp <| .bind own <| .either (.pure ..) (.modify ..))

/-! ## Multiplies (R274, R277, R287) -/

section
variable {s t r : State} {c : Ctx}

/-- A multiply enters its port while the port has a place (R277). -/
theorem Op.enterPort_run {o : MatOp} (room : (s.core c.core).portLoad o.quarter < 4) :
    Runs (Op.enterPort c o) s () (s.takePlace c { o with inPort := true }) :=
  .bind (.state s) <| .no (by omega) (.put ..)

end

theorem exec_mmaRegisters {w : TWord} {s s₁ : State} {v : View} {p : Plane} {t : Task} (i : IssuesT mmaRegEnc w .straight s v)
    (hp : v.c.parts ≠ []) (ht : s.task? v.c.task = some t) (own : Runs (Op.ownTile v.c w.tile.toNat) s () s)
    (plane : Runs (Op.loadedPlane v.c w.plane.toNat (mmaPlace v.c (v.seenT w))) s p s) (fmt : accepts p.fmt v.h.b.toNat = true) :
    let f := (Fmt.ofCode v.h.b.toNat).getD .fp32
    let ns := if f.scaled && !w.md.getLsbD 3 then (p.k + 31) / 32 else 0
    v.h.a.toNat + (p.k * f.bits + 31) / 32 + ns ≤ v.c.regs →
    let rows := v.c.parts.map fun i => registerRow v.w i v.h.a.toNat f.bits p.k ns
    ((v.c.parts.zip rows).filter fun x => x.2.2.any fun y => !scaleOk y true) = [] →
    (s.core v.c.core).portLoad (v.c.lane / 8) < 4 →
    Runs (Op.tileWrite v.c w.tile.toNat (!w.md.getLsbD 0)) (s.takePlace v.c
      { mmaOp v.c t (v.seenT w) p with afmt := v.h.b.toNat, m := v.c.parts.length, kA := p.k, rows := rows, inPort := true }) () s₁ →
    exec (.mmaRegisters w) s = .next (v.ended .straight s s₁) := by
  intro f ns regs rows scales room write
  show execMmaRegisters w s = _
  exact issueT_run i (.some_parts hp <| .bind own <| .bind plane <| .bind i.warp <| .bind (Op.task_run ht) <|
    .no (by simp [TWord.afmt, View.seenT, fmt]) <| .no (Nat.not_lt.2 regs) <| .none_bad scales <|
    .bind (Op.enterPort_run room) write)

theorem exec_mmaTile {w : TWord} {s s₁ s₂ : State} {v : View} {p : Plane} {t : Task} (i : IssuesT mmaTileEnc w .straight s v)
    (hp : v.c.parts ≠ []) (ht : s.task? v.c.task = some t) (own : Runs (Op.ownTile v.c w.tile.toNat) s () s)
    (ownA : Runs (Op.ownTile v.c w.atile.toNat) s () s)
    (plane : Runs (Op.loadedPlane v.c w.plane.toNat (mmaPlace v.c (v.seenT w))) s p s) (fmt : accepts p.fmt v.h.b.toNat = true)
    (wide : p.k ≤ 128) (room : (s.core v.c.core).portLoad (v.c.lane / 8) < 4)
    (write : Runs (Op.tileWrite v.c w.tile.toNat (!w.md.getLsbD 0 || w.atile == w.tile)) (s.takePlace v.c
      { mmaOp v.c t (v.seenT w) p with
        afmt := v.h.b.toNat, atile := some w.atile.toNat, m := v.h.c.toNat % 16 + 1, kA := p.k, inPort := true }) () s₁)
    (read : Runs (Op.tileRead v.c w.atile.toNat) s₁ () s₂) :
    exec (.mmaTile w) s = .next (v.ended .straight s s₂) := by
  show execMmaTile w s = _
  exact issueT_run i (.some_parts hp <| .bind own <| .bind ownA <| .bind plane <| .bind (Op.task_run ht) <|
    .no (by simp [TWord.afmt, View.seenT, fmt]) <| .no (Nat.not_lt.2 wide) <| .bind (Op.enterPort_run room) <| .bind write read)

theorem exec_mmaShapeRecord {w : TWord} {s s₁ : State} {v : View} {p : Plane} {t : Task} {x : Shape × Option TDesc}
    (i : IssuesT mmaShapeEnc w .straight s v) (hp : v.c.parts ≠ []) (ht : s.task? v.c.task = some t)
    (first : s.pendingOp v.c.core { task := v.c.task, warp := v.c.warp } 0 = none)
    (own : Runs (Op.ownTile v.c w.tile.toNat) s () s)
    (plane : Runs (Op.loadedPlane v.c w.plane.toNat ((mmaPlace v.c (v.seenT w)).shaped v.w t w.osrq.toNat)) s p s)
    (shape : Runs (Op.shape v.c v.w w.osrq.toNat) s x s₁) (fmt : accepts p.fmt x.1.fmt = true)
    (fits : ¬ (16 < x.1.rows ∨ p.k < x.1.cols))
    (tile : ∀ d, x.2 = some d → Runs (Op.coordinate v.c.whole v.w d x.1.tx x.1.ty) s₁ () s₁) :
    let held := (s₁.heldOp v.c).getD ((mmaOp v.c t (v.seenT w) p).shaped v.w t w.osrq.toNat)
    exec (.mmaShapeRecord w) s = .next (v.stalled s (s₁.takePlace v.c
      { mmaOp v.c t (v.seenT w) p with
        afmt := x.1.fmt, m := x.1.rows, kA := x.1.cols, coded := x.1.coded, bs32 := x.1.bs32, osr := held.osr, td := held.td })
      .memory) := by
  intro held
  show execMmaShapeRecord w s = _
  refine issueT_holds i ?_
  unfold mmaShapeRun
  rw [if_neg (by simpa using hp), Op.bind_of (Runs.state s), first]
  dsimp only [View.seenT]
  rw [Op.bind_of own, Op.bind_of i.warp, Op.bind_of (Op.task_run ht)]
  refine (Op.bind_of plane).trans ?_
  rw [Op.bind_of shape, if_neg (by simp [fmt])]
  refine (congrFun (if_neg fits) s₁).trans ?_
  cases d : x.2 with
  | none => rfl
  | some d' =>
    dsimp only
    rw [Op.bind_of (tile d' d)]
    rfl

/-- The fetch of an MMA's rows, where they have not come yet (R277, R279). -/
theorem exec_mmaPortEntry {i : WarpId} {s s₂ s₃ : State} {r : WarpRef} {o : MatOp} {k : TWord} {v : View} {t : Task}
    (at_ : s.warpAt i.core i.warp = some r) (op : s.pendingOp i.core r 0 = some o) (word : o.word = some k)
    (runs : s.coreRuns i.core = true) (ready : s.tableWaits i.core o = false)
    (iss : IssuesT mmaShapeEnc k .straight { s with issuer := some r } v)
    (ht : ({ s with issuer := some r } : State).task? v.c.task = some t)
    (fetch : if o.rows.isEmpty then ∃ x s₁ rows s', Runs (Op.shape v.c v.w k.osrq.toNat) { s with issuer := some r } x s₁ ∧
        Runs (Op.asWarp v.c.whole (Op.operandRows v.c.mover x.1 x.2 t.table)) s₁ rows s' ∧
        s₂ = (s'.modOp v.c.core o.n fun y => { y with rows := rows }).modCore v.c.core fun q => { q with idle := 0 }
      else s₂ = { s with issuer := some r })
    (room : (s₂.core v.c.core).portLoad o.quarter < 4)
    (write : Runs (Op.tileWrite v.c k.tile.toNat (!k.md.getLsbD 0)) (s₂.modOp v.c.core o.n fun y => { y with inPort := true }) () s₃) :
    exec (.mmaPortEntry i) s = .next (s.guarded (v.ended .straight { s with issuer := some r } s₃)) := by
  show execMmaPortEntry i s = _
  unfold execMmaPortEntry
  rw [at_]
  simp only [op, word, runs, ready, Bool.not_true, Bool.or_self, Bool.false_eq_true, if_false]
  refine congrArg (State.keeping s) (issueT_run iss (.bind iss.warp <| .bind (Op.task_run ht) ?_))
  by_cases none_ : o.rows.isEmpty
  · rw [if_pos none_] at fetch
    obtain ⟨x, s₁, rows, s', shape, read, rfl⟩ := fetch
    exact .yes none_ <| .bind shape <| .bind read <| .bind (.modify ..) <| .bind (.state _) <| .no (Nat.not_le.2 room) <|
      .bind (.modify ..) write
  · rw [if_neg none_] at fetch
    subst fetch
    exact .no none_ <| .bind (.state _) <| .no (Nat.not_le.2 room) <| .bind (.modify ..) write

/-- Settles O40. -/
theorem matrixMultiplyCompletes : Obligations.MatrixMultiplyCompletes := by
  refine ⟨fun w s s₁ v p t i hp ht own plane fmt => exec_mmaRegisters i hp ht own plane fmt,
    fun w s s₁ s₂ v p t i hp ht own ownA plane fmt => exec_mmaTile i hp ht own ownA plane fmt,
    fun w s s₁ v p t x i hp ht first own plane shape fmt rows cols tile =>
      exec_mmaShapeRecord i hp ht first own plane shape fmt (by omega) tile,
    fun i s s₂ s₃ r o k v t at_ op word runs ready => exec_mmaPortEntry at_ op word runs ready⟩

/-! ## Tiles (R280, R288, R289) -/

theorem exec_accrd {w : TWord} {s s₁ s₂ : State} {v : View} {t : Task} (i : IssuesT accrdEnc w .straight s v) (hp : v.c.parts ≠ [])
    (own : Runs (Op.ownTile v.c w.tile.toNat) s () s) (fits : v.h.b.toNat + (v.seenT w).cols ≤ 128)
    (turn : Runs (Op.tileTurn v.c w.tile.toNat) s () s₁) (ht : s₁.task? v.c.task = some t) :
    let outs := accrdGives v.c (v.seenT w) t
    let fl := outs.foldl (fun f x => f ||| rowFlags x) 0
    fl &&& v.c.fpte = 0 →
    let s₃ := if fl = 0 then s₁ else v.onWarp s₁ fun x => x.orFlags fl
    Runs (Op.tileRead v.c w.tile.toNat) (v.onWarp s₃ fun x => outs.foldl (fun x y =>
      x.modThread y.1 fun th => th.putRegs v.h.d.toNat (packWindow (v.seenT w).conv (y.2.map (·.1)))) x) () s₂ →
    exec (.accrd w) s = .next (v.ended .straight s s₂) := by
  intro outs fl quiet s₃ read
  show execAccrd w s = _
  exact issueT_run i (.some_parts hp <| .bind own <| .no (Nat.not_lt.2 fits) <| .bind turn <| .bind (Op.task_run ht) <|
    .bind (raise_run _ s₁ quiet) <| .bind (.modWarp ..) read)

theorem exec_accwr {w : TWord} {s s₁ s₂ : State} {v : View} {x : Warp} (i : IssuesT accwrEnc w .straight s v) (hp : v.c.parts ≠ [])
    (own : Runs (Op.ownTile v.c w.tile.toNat) s () s) (fits : v.h.b.toNat + (v.seenT w).cols ≤ 128)
    (turn : Runs (Op.tileTurn v.c w.tile.toNat) s () s₁) (hx : s₁.warp? v.c.task v.c.warp = some x)
    (write : Runs (Op.tileWrite v.c w.tile.toNat false) s₁ () s₂) :
    exec (.accwr w) s = .next (v.ended .straight s (s₂.modTask v.c.task fun t =>
      v.c.parts.foldl (fun t i => t.putTile w.tile.toNat i.val v.h.b.toNat (accIn x i (v.seenT w))) t)) := by
  show execAccwr w s = _
  exact issueT_run i (.some_parts hp <| .bind own <| .no (Nat.not_lt.2 fits) <| .bind turn <| .bind (Op.warp_run hx) <|
    .bind write (.modify ..))

/-- Settles O41: each waits its turn, and then reads, writes or clears its tile. -/
theorem tileInstructionsComplete : Obligations.TileInstructionsComplete :=
  ⟨fun _ _ _ _ _ _ i hp own fits turn ht => exec_accrd i hp own fits turn ht, fun _ _ _ _ _ _ => exec_accwr,
    fun _ _ _ _ _ => exec_accz⟩

/-! ## The codec (R290, R328 to R333) -/

section
variable {w : TWord} {s s₁ s₂ s₃ : State} {v : View} {t : Task}

theorem exec_drain {x : TDesc × Nat × CodeTable} {t' : Task} {p : Placing} (i : IssuesT drainEnc w .straight s v) (hp : v.c.parts ≠ [])
    (ht : s.task? v.c.task = some t) (tables : Runs (Op.tableTurn v.c) s () s)
    (checks : Runs (Op.drainChecks v.c (v.seenT w) v.w) s x s₁) (turn : Runs (Op.turnOf v.c w.tile.toNat) s₁ () s₁)
    (encoder : Runs (Op.encoderTurn v.c) s₁ () s₁) (entry : Runs (Op.entryFree v.c x.2.1) s₁ () s₂)
    (release : Runs (Op.release v.c v.c.whole) s₂ () s₂) (ht' : s₂.task? v.c.task = some t') :
    let q := drainMakes (v.seenT w) v.w t' (v.c.active.headD 0) x.1
    Runs (Op.asWarp v.c.whole (Op.placeDrain v.c (v.seenT w) x (drainSg v.c (v.seenT w) v.w) q.1.1)) s₂ p s₃ →
    let s₄ := s₃.leavePlace v.c
    exec (.drain w) s = .next (v.ended .straight s ((v.onWarp s₄ fun y => y.modThreads v.c.active .commit).keepDrain v.c
      (v.c.drainOp s₄ t v.w x.1 p (drainSg v.c (v.seenT w) v.w) (q.1.2 &&& (flagSU ||| flagSN))) (v.c.active.headD 0) q.2)) := by
  intro q place s₄
  show execDrain w s = _
  have work : Runs (Op.drainTile v.c (v.seenT w) v.w) s (x.1, p, q) s₃ :=
    .bind tables <| .bind checks <| .bind turn <| .bind encoder <| .bind entry <| .bind release <| .bind (Op.task_run ht') <|
      .bind place (.pure ..)
  have commit : Runs (Op.commit v.c v.c.active) s₄ () (v.onWarp s₄ fun y => y.modThreads v.c.active .commit) := by
    unfold Op.commit
    rw [ite_self]
    exact .modWarp ..
  exact issueT_run i (.some_parts hp <| .bind i.warp <| .bind (Op.task_run ht) <| .bind (.inPlace work) <| .bind (.state _) <|
    .bind commit (.modify ..))

theorem exec_tdld {bs : List Byte} (i : IssuesT encOfTdld w .straight s v) (hp : v.c.parts ≠ [])
    (read : Runs (Op.plainRecord v.c 64 1 (read64 v.c v.w (v.c.active.headD 0) v.h.a).toNat) s bs s₁)
    (ok : tdescOk (ofBytes bs) = true) :
    exec (.tdld w) s = .next (v.ended .straight s (s₁.modTask v.c.task fun t =>
      { t with td := vset t.td w.td.toNat (BitVec.ofNat 512 (ofBytes bs)) })) := by
  show execTdld w s = _
  exact issueT_run i (.some_parts hp <| .bind i.warp <| .bind read <| .no (by simp [ok]) (.modify ..))

theorem exec_tld {r : Shape × TDesc} {y : TileData} (i : IssuesT tldEnc w .straight s v) (hp : v.c.parts ≠ [])
    (present : (s.task? v.c.task).isSome = true) (tables : Runs (Op.tableTurn v.c) s () s)
    (checks : Runs (Op.windowChecks v.c v.w (v.seenT w) (tldWindow (v.seenT w)) v.h.d.toNat fun _ => false) s r s₁)
    (ht : s₁.task? v.c.task = some t)
    (read : Runs (Op.asWarp v.c.whole (Op.decode v.c.mover 8 r.2 r.1.td r.1.tx r.1.ty t.table)) s₁ y s₂) :
    let s₃ := s₂.leavePlace v.c
    let outs := tldGives v.c (tldWindow (v.seenT w)) r.2 y
    let fl := outs.foldl (fun f x => f ||| rowFlags x) 0
    fl &&& v.c.fpte = 0 →
    exec (.tld w) s = .next (v.ended .straight s
      (v.onWarp (if fl = 0 then s₃ else v.onWarp s₃ fun x => x.orFlags fl) fun x => outs.foldl (fun x z =>
        x.modThread z.1 fun th => th.putRegs v.h.d.toNat (z.2.map (·.1))) x)) := by
  intro s₃ outs fl quiet
  obtain ⟨t₀, ht₀⟩ := Option.isSome_iff_exists.1 present
  show execTld w s = _
  have work : Runs (Op.readTile v.c (v.seenT w) v.w) s (r.2, y) s₂ :=
    .bind tables <| .bind checks <| .bind (Op.task_run ht) <| .bind read (.pure ..)
  exact issueT_run i (.some_parts hp <| .bind i.warp <| .bind (Op.task_run ht₀) <| .bind (.inPlace work) <|
    .bind (raise_run _ s₃ quiet) (.modWarp ..))

/-- The work of TST: its checks and its turn, the old tile with the window replaced, and the new one stored. -/
theorem Op.replaceTile_run {r : Shape × TDesc} {ct : CodeTable} {old : Nat × TileData} (tables : Runs (Op.tableTurn v.c) s () s)
    (checks : Runs (Op.windowChecks v.c v.w (v.seenT w) (tstWindow (v.seenT w)) v.h.a.toNat
      fun d => d.fmt == 6 && (tstCode (v.seenT w) == 1 || tstCode (v.seenT w) == 2)) s r s₁)
    (ht : s₁.task? v.c.task = some t) (table : t.table r.2.dct = some ct) (encoder : Runs (Op.encoderTurn v.c) s₁ () s₁)
    (quiet : ((s₁.core v.c.core).drains.any fun (o : DrainOp) => !o.published) = false)
    (release : Runs (Op.release v.c v.c.whole) s₁ () s₁)
    (read : Runs (Op.asWarp v.c.whole (Op.oldTile v.c r.1 r.2 t.table)) s₁ old s₂) :
    let xs := tstGives v.c (v.seenT w) v.w r.2
    ((tstWindow (v.seenT w)).raw = true → ∀ y ∈ xs, ∀ z ∈ y.2.2.words, scaleOk z r.2.bs32 = true) →
    tstFlags xs &&& v.c.fpte = 0 →
    Runs (Op.storeTile v.c r.1 r.2 ct old.1 (xs.foldl (fun t y => t.supply r.2 y.2.1 (tstWindow (v.seenT w)).w y.2.2) old.2))
      s₂ () s₃ →
    Runs (Op.replaceTile v.c (v.seenT w) v.w) s xs s₃ := by
  intro xs scales flags store
  have good : (if (tstWindow (v.seenT w)).raw then xs.filter fun y => y.2.2.words.any fun z => !scaleOk z r.2.bs32 else []) = [] := by
    by_cases raw : (tstWindow (v.seenT w)).raw
    · simpa [raw] using scales raw
    · simp [raw]
  refine .bind tables <| .bind checks <| .bind (Op.task_run ht) ?_
  rw [table]
  exact .bind encoder <| .bind (.state _) <| .no (by simp [quiet]) <| .bind release <| .bind read <| .none_bad good <|
    .no (not_not.2 flags) <| .bind store (.pure ..)

theorem exec_tst {xs : List (Tid × Nat × Supply)} (i : IssuesT tstEnc w .straight s v) (hp : v.c.parts ≠ [])
    (present : (s.task? v.c.task).isSome = true) (work : Runs (Op.replaceTile v.c (v.seenT w) v.w) s xs s₃) :
    exec (.tst w) s = .next (v.ended .straight s (v.onWarp (s₃.leavePlace v.c) fun x =>
      (xs.foldl (fun x y => x.modThread y.1 fun th => { th with seed := y.2.2.seed })
        (x.modThreads (if v.c.u then v.c.active else v.c.parts) .commit)).orFlags (tstFlags xs))) := by
  obtain ⟨t₀, ht₀⟩ := Option.isSome_iff_exists.1 present
  show execTst w s = _
  unfold View.onWarp
  rw [← State.modWarp_modWarp (s₃.leavePlace v.c) v.c.task v.c.warp (fun x => x.modThreads (if v.c.u then v.c.active else v.c.parts) .commit)
    fun x => (xs.foldl (fun x y => x.modThread y.1 fun th => { th with seed := y.2.2.seed }) x).orFlags (tstFlags xs)]
  exact issueT_run i (.some_parts hp <| .bind i.warp <| .bind (Op.task_run ht₀) <| .bind (.inPlace work) <|
    .bind (.modWarp ..) (.modWarp ..))

/-- A code-table slot below CTN is set (R331). -/
theorem Op.setTable_run {c : Ctx} {n : Nat} (x : Option CodeTable) (ht : s.task? c.task = some t) (below : n < t.ctn) :
    Runs (Op.setTable c n x) s () (s.modTask c.task fun t => { t with ctSlots := t.ctSlots.set n x }) :=
  .bind (Op.task_run ht) <| .no (Nat.not_le.2 below) (.modify ..)

theorem exec_ctld {bs : List Byte} {x : CodeTable} (i : IssuesT encOfCtld w .straight s v) (hp : v.c.parts ≠ [])
    (free : Runs (Op.tablesFree v.c) s () s)
    (read : Runs (Op.plainRecord v.c 32 9 (read64 v.c v.w (v.c.active.headD 0) v.h.a).toNat) s bs s₁) (hx : tableOfRecord bs = some x)
    (ht : s₁.task? v.c.task = some t) (below : w.ct.toNat < t.ctn) :
    exec (.ctld w) s = .next (v.ended .straight s ((s₁.modTask v.c.task fun t =>
      { t with ctSlots := t.ctSlots.set w.ct.toNat (some x) }).leavePlace v.c)) := by
  show execCtld w s = _
  refine issueT_run i (.some_parts hp <| .inPlace <| .bind free <| .bind i.warp <| .bind read ?_)
  rw [hx]
  exact Op.setTable_run (some x) ht below

theorem exec_bixrd {d : TDesc} {as : List (Tid × Aimed)} {vs : List (Tid × Nat)} (i : IssuesT encOfBixrd w .straight s v)
    (hp : v.c.parts ≠ []) (desc : Runs (Op.keptDescriptor v.c w.td.toNat) s d s₁) (index : w.md.getLsbD 3 = true → d.rbix ≠ 0)
    (aim : Runs (Op.gather v.c (Op.aimEntry v.c (v.seenT w) v.w d)) s₁ as s₂) (read : Runs (Op.readEntries v.c as) s₂ vs s₃) :
    exec (.bixrd w) s = .next (v.ended .straight s (v.onWarp (s₃.acquire v.c.core) fun x => vs.foldl (fun x y =>
      putWide v.c v.h.d x y.1 (BitVec.ofNat 64 y.2) (BitVec.ofNat 64 (y.2 / 2 ^ 64))) x)) := by
  show execBixrd w s = _
  exact issueT_run i (.some_parts hp <| .bind i.warp <| .bind desc <| .no (fun h => index h.1 h.2) <| .bind aim <| .bind read <|
    .bind (.acquire ..) (.modWarp ..))

end

/-- Settles O43. -/
theorem codecInstructionsComplete : Obligations.CodecInstructionsComplete := by
  refine ⟨fun w s s₁ s₂ s₃ v x t t' p => exec_drain, fun w s s₁ v bs => exec_tdld, fun w s s₁ s₂ v r t y => exec_tld,
    fun w s s₁ s₂ s₃ v r t ct old i hp present tables checks ht table encoder quiet release read => ?_,
    fun w s s₁ v bs x t => exec_ctld, fun w s v t i hp free ht below => ?_, fun w s s₁ s₂ s₃ v d as vs => exec_bixrd,
    fun w s s₁ v vs i counts => ?_⟩
  · intro xs scales flags store
    exact exec_tst i hp present (Op.replaceTile_run tables checks ht table encoder quiet release read scales flags store)
  · show execCtinv w s = _
    exact issueT_run i (.some_parts hp <| .inPlace <| .bind free <| Op.setTable_run none ht below)
  · show execPoolq w s = _
    exact issueE_run i (.bind i.warp <| .bind counts (.modWarp ..))

/-! ## The engines (R296 to R306, R334) -/

/-- Settles O44. -/
theorem engineInstructionsComplete : Obligations.EngineInstructionsComplete := by
  refine ⟨fun w s t v i h => ?_, fun w s t v i h => ?_, fun w s t v i h => ?_, fun w s t v i h => ?_,
    fun w s v t i hp ht free => ?_, fun w s v i hp => ?_, fun w s s₁ v t i hp ht sched small commit => ?_⟩
  · exact issueE_run (body := copyRun cpyKind fun _ _ _ _ => true) i (Op.eachFrom_run h)
  · exact issueE_run (body := copyRun cpy2Kind cpy2Plain) i (Op.eachFrom_run h)
  · exact issueE_run (body := copyRun cpytKind fun _ _ _ _ => true) i (Op.eachFrom_run h)
  · show execXform w s = _
    exact issueE_run i (Op.eachFrom_run h)
  · intro yes
    show execGset w s = _
    exact issueE_run i (.some_parts hp <| .bind i.warp <| .bind (Op.task_run ht) <| .no (not_not.2 free) (.modify ..))
  · show execGclr w s = _
    exact issueE_run i (.some_parts hp (.modify ..))
  · show execStadv w s = _
    refine issueE_run i (.some_parts hp <| .bind (Op.task_run ht) <| .no ?_ <| .bind commit <| .bind (.modify ..) (.modWarp ..))
    rintro (none_ | big)
    · exact sched (by simpa using none_)
    · exact Nat.not_le.2 small big

end Sys2Proof.Machine

/-!
PROOFS. O45 to O47: the commands and heads of queues, and the engines (R138 to R141, R294 to R308).
-/

namespace Sys2Proof.Machine

open Sys2Proof

/-! ## One element changed -/

/-- Two changes that give an element the same are one. -/
theorem vmod_congr {α : Type} {n : Nat} {v : Vector α n} {i : Nat} {f g : α → α} (d : α) (h : i < n)
    (e : f (vget v i d) = g (vget v i d)) : vmod v i f = vmod v i g := by
  refine Vector.toArray_inj.1 (Array.toList_inj.1 (List.ext_getElem (by simp [vmod]) fun k _ _ => ?_))
  simp only [vmod, List.getElem_modify]
  split
  · next at_ =>
    subst at_
    simpa [vget, List.getD, h] using e
  · rfl

theorem vmod_id {α : Type} {n : Nat} (v : Vector α n) (i : Nat) : vmod v i (fun x => x) = v :=
  Vector.toArray_inj.1 (Array.toList_inj.1 (List.ext_getElem (by simp [vmod]) fun _ _ _ => by simp [vmod, List.getElem_modify]))

/-! ## One queue changed -/

section
variable {s t : State} {q : Nat}

theorem State.queue_modQueue (s : State) (f : Queue → Queue) (h : q < 64) : (s.modQueue q f).queue q = f (s.queue q) := by
  simp [State.queue, State.modQueue, vmod, vget, List.getD, h]

theorem State.modQueue_modQueue (s : State) (q : Nat) (f g : Queue → Queue) :
    (s.modQueue q f).modQueue q g = s.modQueue q fun x => g (f x) := by
  simp [State.modQueue, vmod, List.modify_modify_eq, Function.comp_def]

/-- A change that gives a queue what it has leaves the state. -/
theorem State.modQueue_self {f : Queue → Queue} (h : q < 64) (e : f (s.queue q) = s.queue q) : s.modQueue q f = s := by
  have same : vmod s.queues q f = s.queues := (vmod_congr .reset h e).trans (vmod_id s.queues q)
  simp only [State.modQueue, same]

theorem State.queue_dropHead (s : State) (f : Queue → Queue) (h : q < 64) :
    ∃ y : Queue, (s.dropHead q f).queue q = f { y with head := none, age := 0, retiring := 0 } :=
  ⟨_, State.queue_modQueue _ _ h⟩

theorem State.queueError_queue (s : State) (cause : Cause) (lrec tag : Nat) (h : q < 64) :
    ((s.queueError q cause lrec tag).queue q).retiring = 0 := by
  obtain ⟨y, e⟩ := s.queue_dropHead (fun x : Queue => { x with st := .errored, told := false, todo := 0 }) h
  exact congrArg Queue.retiring e

/-! ## Commands (R141) -/

/-- A command of a queue that retires nothing, once it has run (R141). -/
theorem exec_queueCommand {cmd : Nat} (boot : s.mgmt.boot = 3) (h : q < 64) (real : cmd ≠ 0) (quiet : (s.queue q).retiring = 0)
    (none_ : (s.queue q).later = []) (run : Runs (Op.queueCommand q cmd) s () t) (done : (t.queue q).retiring = 0) :
    s.queueStep q cmd = t.dropAnswers (.queue q) := by
  have back : (s.modQueue q fun x => { x with later := x.later ++ [cmd] }).modQueue q (fun x => { x with later := [] }) = s := by
    rw [State.modQueue_modQueue]
    exact State.modQueue_self h (by simp [← none_])
  have mine : (s.modQueue q fun x => { x with later := x.later ++ [cmd] }).queue q = { s.queue q with later := [cmd] } := by
    rw [State.queue_modQueue _ _ h, none_, List.nil_append]
  unfold State.queueStep State.command State.goOnCommands
  rw [if_pos ⟨boot, h⟩, if_neg real, mine, if_pos quiet]
  simp only [State.laterCommands, back]
  rw [show Op.queueCommand q cmd s = .ok ((), t) from run]
  simp only [done, if_true]

/-- A command that comes while an entry is being retired waits (log 141). -/
theorem State.queueStep_waits {cmd : Nat} (boot : s.mgmt.boot = 3) (h : q < 64) (real : cmd ≠ 0) (busy : (s.queue q).retiring ≠ 0) :
    s.queueStep q cmd = s.modQueue q fun x => { x with later := x.later ++ [cmd] } := by
  unfold State.queueStep State.command State.goOnCommands
  rw [if_pos ⟨boot, h⟩, if_neg real, State.queue_modQueue _ _ h, if_neg busy]

/-- What ends well needs no handler. -/
theorem Runs.onFail {α : Type} {f : Op α} {g : Trap → Op α} {a : α} (h : Runs f s a t) : Runs (f.onFail g) s a t := by
  unfold Runs Op.onFail
  rw [show f s = .ok (a, t) from h]

theorem Runs.orError {f : Op Unit} {cause : Cause} {lrec tag : Nat} (h : Runs f s () t) : Runs (Op.orError q cause lrec tag f) s () t :=
  h.onFail

/-- How a SKIP that begins retires the head. -/
theorem Op.skipHow_begins {how : Nat} (quiet : (s.queue q).retiring = 0) (h : Runs (Op.skipHow q) s how t) : how = 2 ∨ how = 3 := by
  unfold Runs Op.skipHow at h
  rw [Op.bind_of (Runs.state s), if_neg (not_not.2 quiet), Op.bind_run] at h
  split at h
  · next r u _ =>
    rw [Op.bind_of (Runs.state u)] at h
    cases h
    split <;> simp
  · cases h

theorem State.guarded_dropAnswers (s : State) (who : Asker) : s.guarded (s.dropAnswers who) = s.dropAnswers who := rfl

end

section
variable {q : Nat} {s : State}

/-- A served queue, as its commands test it. -/
theorem serving_iff (x : Queue) : (x.st == .enabled || x.st == .running || x.st == .blocked) = true ↔
    x.st = .enabled ∨ x.st = .running ∨ x.st = .blocked := by
  simp [or_assoc]

theorem Op.queueEnable_run {d : RingDesc} {s₁ s₂ s₃ : State} {rel fill : Nat} (hx : (s.queue q).st = .disabled)
    (told : s.queueRecorded q = false) (free : (s.queue q).appending = none) (ring : Runs (Op.queueRing q) s d s₁)
    (hrel : Runs (Op.queueSg q 20 d.rel) s₁ rel s₂) (hfill : Runs (Op.queueSg q 21 d.fill) s₂ fill s₃) :
    Runs (Op.queueEnable q) s () (s₃.modQueue q fun y =>
      { y with st := .enabled, rdpos := BitVec.ofNat 64 rel, appends := fill, drain := none, head := none, age := 0, served := 0 }) := by
  refine .bind (.state s) ?_
  rw [hx]
  exact .no (by simp [told, free]) <| .onFail <| .bind ring <| .bind hrel <| .bind hfill (.modify ..)

theorem Op.queueSkip_run {how : Nat} {s₁ s₂ : State} (hx : (s.queue q).st = .errored) (told : (s.queue q).told = true)
    (hhow : Runs (Op.skipHow q) s how s₁) (retire : Runs (Op.retireHead q how) s₁ () s₂) :
    let s₃ := s₂.modQueue q fun y => if y.st = .drained then y else { y with st := .enabled }
    Runs (Op.queueSkip q) s () (if how = 3 then s₃.queueError q .queueEntry 0 0 else s₃) := by
  intro s₃
  refine .bind (.state s) <| .no (not_not.2 hx) <| .no (by simp [told]) <| .orError <| .bind hhow <| .bind retire <| .bind (.modify ..) ?_
  exact .either (.modify ..) (.pure ..)

theorem Op.queueDrain_run {d : RingDesc} {s₁ s₂ : State} {fill : Nat}
    (st : ((s.queue q).st = .enabled ∨ (s.queue q).st = .running ∨ (s.queue q).st = .blocked) ∨ (s.queue q).st = .suspended)
    (ring : Runs (Op.queueRing q) s d s₁) (hfill : Runs (Op.queueSg q 23 d.fill) s₁ fill s₂) :
    Runs (Op.queueCommand q 7) s () (if fill = (s.queue q).rdpos.toNat then s₂.dropHead q fun y => { y with st := .drained, drain := none }
      else s₂.modQueue q fun y => { y with st := .running, drain := some fill }) := by
  refine .bind (.state s) <| .yes (by simpa [or_assoc] using st) <| .orError <| .bind ring <| .bind hfill ?_
  exact .either (.modify ..) (.modify ..)

end

/-- Settles O45: a command that retires nothing takes effect at once, and one that comes during a retirement waits. -/
theorem queueCommandsFollowTheTable : Obligations.QueueCommandsFollowTheTable := by
  refine ⟨fun q s boot h => ?_, fun q s boot h still none_ => ?_⟩
  · intro x quiet gives serving
    have does {cmd : Nat} {t : State} (real : cmd ≠ 0) (now : quiet s) (run : Runs (Op.queueCommand q cmd) s () t)
        (done : (t.queue q).retiring = 0) : s.keeping (.next (s.queueStep q cmd)) = .next (s.guarded (t.dropAnswers (.queue q))) :=
      congrArg (fun u => Host.Outcome.next (s.guarded u)) (exec_queueCommand boot h real now.1 now.2 run done)
    have kept {t : State} {f : Queue → Queue} (now : quiet t) (hf : ∀ y : Queue, (f y).retiring = y.retiring) :
        ((t.modQueue q f).queue q).retiring = 0 := by
      rw [State.queue_modQueue _ _ h, hf, now.1]
    have dropped (t : State) {f : Queue → Queue} (hf : ∀ y : Queue, (f y).retiring = y.retiring) :
        ((t.dropHead q f).queue q).retiring = 0 := by
      obtain ⟨y, e⟩ := t.queue_dropHead f h
      rw [e, hf]
    refine ⟨fun d s₁ rel s₂ fill s₃ now st told free ring hrel hfill now₃ => ?_, fun now st => ?_, fun now st => ?_, fun now st => ?_,
      fun now st => ?_, fun how s₁ s₂ now st told hhow retire now₂ => ?_, fun now st told => ?_, fun now st told => ⟨?_, ?_⟩,
      fun d s₁ fill s₂ now st ring hfill now₂ => ?_, fun busy => ?_⟩
    · exact does (cmd := 1) (by decide) now (.bind (.state s) (Op.queueEnable_run st told free ring hrel hfill)) (kept now₃ fun _ => rfl)
    · refine does (cmd := 1) (by decide) now (.bind (.state s) (.bind (.state s) ?_)) (kept now fun _ => rfl)
      rw [show (s.queue q).st = _ from st]
      exact .modify ..
    · exact does (cmd := 2) (by decide) now (.bind (.state s) (.yes st (.modify ..))) (dropped s fun _ => rfl)
    · exact does (cmd := 3) (by decide) now (.bind (.state s) (.yes ((serving_iff x).2 st) (.modify ..))) (dropped s fun _ => rfl)
    · exact does (cmd := 4) (by decide) now (.bind (.state s) (.yes st (.modify ..))) (kept now fun _ => rfl)
    · intro s₃
      refine ⟨Op.skipHow_begins now.1 hhow, does (cmd := 5) (by decide) now (.bind (.state s) (Op.queueSkip_run st told hhow retire)) ?_⟩
      split
      · exact State.queueError_queue _ _ _ _ h
      · refine kept now₂ fun y => ?_
        split <;> rfl
    · exact does (cmd := 6) (by decide) now (.bind (.state s) (.yes st (.yes told (.modify ..)))) (kept now fun _ => rfl)
    · exact does (cmd := 5) (by decide) now
        (.bind (.state s) (.bind (.state s) (.no (not_not.2 st) (.yes (by simp [show (s.queue q).told = _ from told]) (.modify ..)))))
        (kept now fun _ => rfl)
    · exact does (cmd := 6) (by decide) now (.bind (.state s) (.yes st (.no (by simp [show (s.queue q).told = _ from told]) (.modify ..))))
        (kept now fun _ => rfl)
    · refine does (cmd := 7) (by decide) now (Op.queueDrain_run st ring hfill) ?_
      split
      · exact dropped s₂ fun _ => rfl
      · exact kept now₂ fun _ => rfl
    · have later {n : Nat} (real : n ≠ 0) : s.keeping (.next (s.queueStep q n)) =
          .next (s.guarded (s.modQueue q fun y => { y with later := y.later ++ [n] })) :=
        congrArg (fun u => Host.Outcome.next (s.guarded u)) (State.queueStep_waits boot h real busy)
      exact ⟨later (by decide), later (by decide), later (by decide), later (by decide), later (by decide), later (by decide),
        later (by decide)⟩
  · intro x ignored serving
    have none_does {cmd : Nat} (real : cmd ≠ 0) (run : Runs (Op.queueCommand q cmd) s () s) :
        s.keeping (.next (s.queueStep q cmd)) = .next (s.dropAnswers (.queue q)) := by
      rw [exec_queueCommand boot h real still none_ run still]
      rfl
    refine ⟨fun a b => ?_, fun a => ?_, fun a => ?_, fun a => ?_, fun a => ?_, fun a => ?_, fun a b => ?_⟩
    · refine none_does (cmd := 1) (by decide) (.bind (.state s) (.bind (.state s) ?_))
      cases st : (s.queue q).st with
      | disabled => exact absurd st a
      | drained => exact absurd st b
      | enabled | running | blocked | errored | suspended => exact .pure ..
    · exact none_does (cmd := 2) (by decide) (.bind (.state s) (.no (not_not.2 a) (.pure ..)))
    · exact none_does (cmd := 3) (by decide) (.bind (.state s) (.no (mt (serving_iff x).1 a) (.pure ..)))
    · exact none_does (cmd := 4) (by decide) (.bind (.state s) (.no a (.pure ..)))
    · exact none_does (cmd := 5) (by decide) (.bind (.state s) (.bind (.state s) (.yes a (.pure ..))))
    · exact none_does (cmd := 6) (by decide) (.bind (.state s) (.no a (.pure ..)))
    · refine none_does (cmd := 7) (by decide) (.bind (.state s) (.no ?_ (.pure ..)))
      rw [Bool.or_eq_true, serving_iff, beq_iff_eq]
      exact not_or.2 ⟨a, b⟩

/-! ## Heads (R138 to R141, R147) -/

section
variable {q : Nat} {s t : State}

/-- Work of the distributor after which nothing of the queue is left to go on. -/
theorem State.queueWork_run {f : Op Unit} (run : Runs f s () t) (done : (t.queue q).retiring = 0) (none_ : (t.queue q).later = []) :
    s.queueWork q f = t.dropAnswers (.queue q) := by
  have done' : ((t.dropAnswers (.queue q)).queue q).retiring = 0 := done
  have none' : ((t.dropAnswers (.queue q)).queue q).later = [] := none_
  unfold State.queueWork
  rw [show f s = .ok ((), t) from run]
  simp only [done, if_true, State.goOnCommands, done', none', State.laterCommands]

theorem State.retires_not_mayLook (h : s.retires q = true) : s.mayLook q = false := by
  unfold State.retires at h
  unfold State.mayLook
  have busy : (s.queue q).retiring ≠ 0 := by simp_all
  simp [busy]

/-- A queue with a ready head is Running, and is one of the 64. -/
theorem State.headReady_parts (h : s.headReady q = true) : q < 64 ∧ (s.queue q).st = .running := by
  simp only [State.headReady, State.serves, Bool.and_eq_true, decide_eq_true_eq, beq_iff_eq] at h
  exact ⟨h.1.1.1.1, h.1.2⟩

theorem State.queue_countTurn (s : State) (h : q < 64) : ∃ n, (s.countTurn q).queue q = { s.queue q with served := n } :=
  ⟨_, State.queue_modQueue s _ h⟩

theorem exec_queueHeadSubmit {s₁ s₂ : State} {h : QueueHead} {x : RingDesc × Nat} (ready : s.headReady q = true)
    (look : s.mayLook q = true) (sel : s.selected = some q) (fill : Runs (Op.checkFill q) s x s₁) (ready₁ : s₁.headReady q = true)
    (head : (s₁.queue q).head = some h) (retire : Runs (Op.retireHead q 1) (s₁.countTurn q) () s₂)
    (done : (s₂.queue q).retiring = 0) (none_ : (s₂.queue q).later = []) :
    exec (.queueHeadSubmit q) s = .next (s.guarded (({ s₂ with
      kernels := s₂.kernels ++ [h.kernel s₂.nextId (s₂.queue q).ctx q], nextId := s₂.nextId + 1 } : State).dropAnswers (.queue q))) := by
  obtain ⟨below, running⟩ := State.headReady_parts ready
  have counted : ((s₁.countTurn q).queue q).head = some h := by
    obtain ⟨n, e⟩ := s₁.queue_countTurn below
    rw [e, head]
  have submit : Runs (Op.submit q) (s₁.countTurn q) () { s₂ with
      kernels := s₂.kernels ++ [h.kernel s₂.nextId (s₂.queue q).ctx q], nextId := s₂.nextId + 1 } := by
    refine .bind (.state _) ?_
    rw [counted]
    exact .orError (.bind retire (.modify ..))
  have work : Runs (Op.beginSubmit q) s () { s₂ with
      kernels := s₂.kernels ++ [h.kernel s₂.nextId (s₂.queue q).ctx q], nextId := s₂.nextId + 1 } :=
    .bind (.state s) <| .bind (.orError (.bind fill (.pure ..))) <| .bind (.state s₁) <| .yes ready₁ <| .bind (.modify ..) submit
  show execQueueHeadSubmit q s = _
  unfold execQueueHeadSubmit
  rw [if_neg (by simp [look])]
  simp only [running, ready, sel, beq_self_eq_true, Bool.and_self, if_true, reduceCtorEq, if_false]
  rw [State.queueWork_run work done none_]
  rfl

end

/-- Settles O46. -/
theorem queueHeadsComplete : Obligations.QueueHeadsComplete := by
  refine ⟨fun q s t done none_ h => ?_, fun q s look retires boot below => ?_,
    fun q s s₁ s₂ h x ready look sel fill ready₁ head retire done none_ =>
      exec_queueHeadSubmit ready look sel fill ready₁ head retire done none_,
    fun q s ready => ⟨rfl, fun same => ?_, fun mine changed => ?_⟩, fun h id ctx q => ⟨rfl, rfl, rfl, rfl⟩⟩
  · show State.keeping s (.next _) = _
    obtain ⟨look, run⟩ | ⟨retires, run⟩ := h
    · rw [if_pos look, State.queueWork_run run done none_]
      rfl
    · rw [if_neg (by simp [State.retires_not_mayLook retires]), State.queueGoOn, if_pos retires, State.queueWork_run run done none_]
      rfl
  · show State.keeping s (.next _) = _
    rw [if_neg (by simp [look]), State.queueGoOn, if_neg (by simp [retires]), if_pos ⟨boot, below⟩]
    rfl
  · show execQueuePriorityAge q s = _
    unfold execQueuePriorityAge
    rw [if_pos ready]
    dsimp only
    rw [if_neg (by tauto)]
    rfl
  · show execQueuePriorityAge q s = _
    unfold execQueuePriorityAge
    rw [if_pos ready]
    dsimp only
    rw [if_pos ⟨mine, changed⟩]
    rfl

/-! ## Engines (R294 to R308) -/

/-- A part of a core that a change leaves is left in every core. -/
theorem State.core_modCore_keeps {α : Type} (g : Core → α) (s : State) (c : Nat) {f : Core → Core} (h : ∀ x, g (f x) = g x) (d : Nat) :
    g ((s.modCore c f).core d) = g (s.core d) := by
  by_cases e : d = c
  · subst e
    by_cases lt : d < 192
    · rw [State.core_modCore_same s f lt, h]
    · rw [State.core_of_ge _ (Nat.le_of_not_lt lt), State.core_of_ge _ (Nat.le_of_not_lt lt)]
  · rw [State.core_modCore_other s f e]

section
variable {s t : State} {core : Nat} {x : Bool}

theorem State.engine_of_cores (h : t.cores = s.cores) (core : Nat) (x : Bool) : t.engine core x = s.engine core x := by
  unfold State.engine State.core
  rw [h]

theorem State.engine_modCore (s : State) (c : Nat) {f : Core → Core} (hc : ∀ k, (f k).copy = k.copy) (hx : ∀ k, (f k).xform = k.xform)
    (core : Nat) (x : Bool) : (s.modCore c f).engine core x = s.engine core x := by
  cases x with
  | false => exact State.core_modCore_keeps (·.copy) s c hc core
  | true => exact State.core_modCore_keeps (·.xform) s c hx core

theorem State.engine_modEngine (s : State) (x : Bool) (f : Engine → Engine) (h : core < 192) :
    (s.modEngine core x f).engine core x = f (s.engine core x) := by
  cases x <;> simp [State.engine, State.modEngine, State.core_modCore_same _ _ h]

theorem State.withdrawRemote_cores (s : State) (p : Asker → Nat → Bool) : (s.withdrawRemote p).cores = s.cores := by
  unfold State.withdrawRemote
  refine foldl_keeps State.cores (fun s o => ?_) _ _
  split <;> rfl

theorem State.engine_traceFrame (s : State) (task warp tag : Nat) (body : List Byte) (core : Nat) (x : Bool) :
    (s.traceFrame task warp tag body).engine core x = s.engine core x := by
  have put (s : State) (c wid tag : Nat) (body : List Byte) : (s.putFrame c wid tag body).engine core x = s.engine core x := by
    refine State.engine_modCore _ c ?_ ?_ core x <;> exact fun _ => rfl
  unfold State.traceFrame
  split
  · split
    · rfl
    · split
      · refine State.engine_modCore s _ ?_ ?_ core x <;> exact fun _ => rfl
      · dsimp only
        rw [put]
        split
        · exact put ..
        · rfl
  · rfl

/-- A command that fails stops its engine, and leaves the commands as they are (R300). -/
theorem State.engine_stopHead (s : State) (trap : Trap) (h : core < 192) (some_ : (s.engine core x).queue ≠ []) :
    (s.stopHead core x trap).engine core x = { s.engine core x with st := 3, pushed := false, todo := 0 } := by
  unfold State.stopHead
  split
  · next none_ => exact absurd none_ some_
  · exact (State.engine_traceFrame ..).trans ((State.engine_of_cores (State.withdrawRemote_cores ..) core x).trans
      (State.engine_modEngine s x _ h))

/-- An engine command in state 3, its record taken (R300, R358). -/
theorem State.engineCommand_eq (cmd : Nat) (st : (s.engine core x).st = 3) (pushed : (s.engine core x).pushed = true)
    (real : cmd = 1 ∨ cmd = 2) : s.engineCommand core x cmd =
      if cmd = 1 then (s.modHead core x fun c => c.again x).modEngine core x fun e => { e with st := 0, pushed := false, todo := 0 }
      else s.endHead core x 3 := by
  unfold State.engineCommand
  rw [if_neg (by omega), if_neg (by simp [pushed])]

/-- A head that may start, by what its guard says (R302). -/
theorem State.startHead_eq {cmd : EngineCmd} {rest : List EngineCmd} (head : (s.engine core x).queue = cmd :: rest)
    (idle : (s.engine core x).st = 0 ∨ (s.engine core x).st = 2) (may : s.mayRun cmd.ctx = true) (fresh : cmd.stopped = none) :
    (s.guardOf cmd = .run → s.startHead core x = s.modEngine core x fun e => { e with st := 1 }) ∧
    (s.guardOf cmd = .held → s.startHead core x = s.modEngine core x fun e => { e with st := 2 }) ∧
    ∀ s₁, s.guardOf cmd = .discard → Runs (Op.completionAdd (cmd.mover core x) 0 cmd)
        (s.modHead core x fun c => { c with dropped := true }) () s₁ →
      s.startHead core x = (s₁.endHead core x 3).dropAnswers (engineAsker core x) := by
  unfold State.startHead
  dsimp only
  rw [head]
  dsimp only
  rw [if_neg (by simpa [may, or_iff_not_imp_left] using idle), if_neg (by simp [fresh])]
  refine ⟨fun g => ?_, fun g => ?_, fun s₁ g add => ?_⟩
  · rw [g]
  · rw [g]
  · rw [g]
    dsimp only
    rw [show Op.completionAdd (cmd.mover core x) 0 cmd _ = .ok ((), s₁) from add]
    rfl

/-- The work of a running head, by how it ends. -/
theorem State.runHead_run {f : Mover → EngineCmd → Op Bool} {cmd : EngineCmd} {rest : List EngineCmd} {fin : Bool}
    (head : (s.engine core x).queue = cmd :: rest) (work : Runs (f (cmd.mover core x) cmd) s fin t) :
    s.runHead core x f = (if fin then t.endHead core x 1 else t).dropAnswers (engineAsker core x) := by
  unfold State.runHead
  rw [head]
  dsimp only
  rw [show f (cmd.mover core x) cmd s = .ok (fin, t) from work]
  cases fin <;> rfl

theorem State.runHead_fails {f : Mover → EngineCmd → Op Bool} {cmd : EngineCmd} {rest : List EngineCmd} {trap : Trap}
    (head : (s.engine core x).queue = cmd :: rest) (work : f (cmd.mover core x) cmd s = .error (.trapAt t trap)) :
    s.runHead core x f = (t.stopHead core x trap).dropAnswers (engineAsker core x) := by
  unfold State.runHead
  rw [head]
  dsimp only
  rw [work]
  rfl

theorem State.copyRuns_head {cmd : EngineCmd} (h : s.copyRuns core = some cmd) :
    ∃ rest, (s.engine core false).queue = cmd :: rest := by
  unfold State.copyRuns at h
  cases e : (s.engine core false).queue with
  | nil => simp [e] at h
  | cons c rest =>
    simp only [e] at h
    split at h
    · cases h
      exact ⟨rest, rfl⟩
    · cases h

end

/-- Settles O47: an engine's step is what its head's guard, its work or its command says. -/
theorem enginesComplete : Obligations.EnginesComplete := by
  refine ⟨fun core s => ⟨fun st pushed => ⟨?_, ?_⟩, fun st pushed => ⟨?_, ?_⟩⟩,
    fun core s cmd rest below head idle may fresh => ?_, fun core s s₁ cmd runs => ?_, fun cluster core s none_ next => ?_,
    fun cluster core s s₁ cmd rest fin found head may work => ?_⟩
  · exact congrArg (fun u => Host.Outcome.next (s.guarded u)) (State.engineCommand_eq 1 st pushed (.inl rfl))
  · exact congrArg (fun u => Host.Outcome.next (s.guarded u)) (State.engineCommand_eq 2 st pushed (.inr rfl))
  · exact congrArg (fun u => Host.Outcome.next (s.guarded u)) (State.engineCommand_eq 1 st pushed (.inl rfl))
  · exact congrArg (fun u => Host.Outcome.next (s.guarded u)) (State.engineCommand_eq 2 st pushed (.inr rfl))
  · obtain ⟨run, held, discard⟩ := State.startHead_eq head idle may fresh
    exact ⟨fun g => congrArg (fun u => Host.Outcome.next (s.guarded u)) (run g),
      fun g => congrArg (fun u => Host.Outcome.next (s.guarded u)) (held g),
      fun s₁ g add => congrArg (fun u => Host.Outcome.next (s.guarded u)) (discard s₁ g add)⟩
  · obtain ⟨rest, head⟩ := State.copyRuns_head runs
    refine ⟨fun plain work => ?_, fun ring work => ?_, fun trap plain work below some_ => ?_⟩
    · show execCopyCommandComplete core s = _
      unfold execCopyCommandComplete
      rw [runs]
      dsimp only
      rw [if_neg (by simp [plain]), State.runHead_run head work]
      rfl
    · show execRingCopyWrite core s = _
      unfold execRingCopyWrite
      rw [runs]
      dsimp only
      rw [if_pos ring, State.runHead_run head work]
      rfl
    · refine ⟨s.guarded ((s₁.stopHead core false trap).dropAnswers (.copy core)), ?_, ?_⟩
      · show execCopyCommandComplete core s = _
        unfold execCopyCommandComplete
        rw [runs]
        dsimp only
        rw [if_neg (by simp [plain]), State.runHead_fails head work]
        rfl
      · rw [show (s.guarded ((s₁.stopHead core false trap).dropAnswers (.copy core))).engine core false = _ from
          State.engine_stopHead s₁ trap below some_]
        exact ⟨rfl, rfl⟩
  · show execXformCommandStart cluster s = _
    unfold execXformCommandStart
    dsimp only
    rw [if_neg (by simpa using none_), next]
    rfl
  · show execXformCommandComplete cluster s = _
    unfold execXformCommandComplete
    rw [found]
    dsimp only
    rw [head]
    dsimp only
    rw [if_pos may, State.runHead_run head work]
    rfl

end Sys2Proof.Machine

/-!
PROOFS. O48 to O50: the life of a kernel and of its tasks, grace periods, and the steps of the matrix array (R147 to R162, R261 to R278,
R290, R291).
-/

namespace Sys2Proof.Machine

open Sys2Proof

/-! ## Kernels and tasks (R147 to R162) -/

section
variable {kid core ctx : Nat} {s : State} {k : Kernel}

theorem exec_kernelStart_plain {h : Nat} (hk : s.kernel? kid = some k) (free : s.freeHandle = some h) (ready : k.st = 2)
    (may : s.mayRun k.ctx = true) (room : s.recordRoom k.ctx = true) (cond : k.lr.cond = 0) :
    exec (.kernelStart kid) s = .next (s.guarded (s.startKernel kid h true)) := by
  show execKernelStart kid s = _
  unfold execKernelStart
  rw [hk, free]
  dsimp only
  rw [if_pos ⟨ready, may, room⟩, if_pos cond]
  rfl

theorem exec_kernelStart_cond {h x : Nat} {s₁ : State} (hk : s.kernel? kid = some k) (free : s.freeHandle = some h) (ready : k.st = 2)
    (may : s.mayRun k.ctx = true) (room : s.recordRoom k.ctx = true) (cond : k.lr.cond ≠ 0)
    (read : s.agentRead (.kernel kid) 0 k.ctx .load k.lr.cond.toNat 4 4 = (.ok x, s₁)) :
    exec (.kernelStart kid) s = .next (s.guarded ((s₁.startKernel kid h (x != 0)).dropAnswers (.kernel kid))) := by
  show execKernelStart kid s = _
  unfold execKernelStart
  rw [hk, free]
  dsimp only
  rw [if_pos ⟨ready, may, room⟩, if_neg cond, read]
  rfl

theorem exec_kernelExpansion (hk : s.kernel? kid = some k) (st : k.st = 3) (may : s.mayRun k.ctx = true) (room : s.recordRoom k.ctx = true) :
    exec (.kernelExpansion kid) s = .next (s.guarded (s.expand kid curveSteps)) := by
  show execKernelExpansion kid s = _
  unfold execKernelExpansion
  rw [hk]
  dsimp only
  rw [if_pos ⟨st, may, room⟩]
  rfl

/-- A step of expansion that finds every point pushed ends the expansion. -/
theorem State.expand_done (n : Nat) (hk : s.kernel? kid = some k) (st : k.st = 3) (all : k.lr.points ≤ k.pushed) :
    s.expand kid (n + 1) = ((s.modKernel kid fun k => { k with st := 4 }).trigger kid).lastEnded kid := by
  unfold State.expand
  rw [hk]
  dsimp only
  rw [if_neg (not_not.2 st), if_pos all]

/-- One that finds the continuation queue full leaves the state. -/
theorem State.expand_full (n : Nat) (hk : s.kernel? kid = some k) (st : k.st = 3) (more : k.pushed < k.lr.points)
    (full : (s.ctx k.ctx).cqCap ≤ (s.ctx k.ctx).cq.length) : s.expand kid (n + 1) = s := by
  unfold State.expand
  rw [hk]
  dsimp only
  rw [if_neg (not_not.2 st), if_neg (Nat.not_le.2 more), if_pos full]

theorem State.startKernel_go (s : State) (kid h : Nat) : s.startKernel kid h true = s.modKernel kid fun k =>
    { k with handle := some h, st := 3, live := k.lr.points, counted := 16 * (k.lr.warps + 1) * k.lr.points } := by
  simp only [State.startKernel, if_true]

theorem State.startKernel_cancel (s : State) (kid h : Nat) :
    s.startKernel kid h false = s.modKernel kid fun k => { k with handle := some h, st := 9 } := by
  simp only [State.startKernel, Bool.false_eq_true, if_false]

theorem Op.placeRecord_run {x : Cont} {room room' : Room} {k' : Kernel} {s₁ s₂ : State}
    (choose : Runs (Op.chooseRecord core ctx (s.byPriority ctx)) s (some (k, x, room)) s₁)
    (reread : Runs (Op.rereadRecord core k) s₁ k' s₂) (fits : s₂.roomFor core k'.lr = some room') :
    Runs (Op.placeRecord core ctx) s (some s₂.nextId) (s₂.takeRecord core k' x room') := by
  refine .bind (.state s) <| .bind choose <| .bind reread <| .bind (.state s₂) ?_
  rw [fits]
  exact .bind (.put ..) (.pure ..)

end

/-- Settles O48. -/
theorem kernelEventsComplete : Obligations.KernelEventsComplete := by
  refine ⟨fun kid h s k hk free ready may room => ⟨fun cond => ?_, fun x s₁ cond read => ⟨fun hx => ?_, fun hx => ?_⟩⟩,
    fun kid s k hk st may room => ⟨fun all => ?_, fun more full => ?_, exec_kernelExpansion hk st may room⟩,
    fun core ctx s at_ below may still => ?_,
    fun task s t ht timer core live may => ?_, fun task s t ht runs room live core done => ?_, fun kid s k hk runs joins done => ?_⟩
  · rw [exec_kernelStart_plain hk free ready may room cond, State.startKernel_go]
  · rw [exec_kernelStart_cond hk free ready may room cond read, show (x != 0) = true by simpa using hx, State.startKernel_go]
  · rw [exec_kernelStart_cond hk free ready may room cond read, show (x != 0) = false by simpa using hx, State.startKernel_cancel]
  · rw [exec_kernelExpansion hk st may room, show s.expand kid curveSteps = _ from State.expand_done 4095 hk st all]
  · rw [exec_kernelExpansion hk st may room, show s.expand kid curveSteps = _ from State.expand_full 4095 hk st more full]
    rfl
  · simp only [show exec (.corePlacement core) s = execCorePlacement core s from rfl, execCorePlacement, at_, below, may, still, and_self,
      if_true]
    refine ⟨fun t r back => ?_, fun t back place => ?_, fun k x room k' room' s₁ s₂ back place choose reread fits => ?_⟩
    · rw [back]
      rfl
    · rw [back, place]
      rfl
    · rw [back, place, show Op.placeRecord core ctx s = .ok _ from Op.placeRecord_run choose reread fits]
      rfl
  · show execTaskTimeout task s = _
    unfold execTaskTimeout
    rw [ht]
    dsimp only
    rw [if_pos ⟨timer, Option.isSome_iff_ne_none.2 core, live, may⟩]
    rfl
  · have ended : (!t.ended && (t.core.isSome || t.owes) && t.allDone) = true := by
      simpa [live, Option.isSome_iff_ne_none.2 core, Task.allDone] using done
    show execTaskEnd task s = _
    unfold execTaskEnd
    rw [ht]
    dsimp only
    rw [if_pos (by simp [runs, room]), if_pos ended]
    rfl
  · show execKernelComplete kid s = _
    unfold execKernelComplete
    rw [hk]
    dsimp only
    rw [if_pos runs, joins, List.length_nil, State.payJoins, hk]
    dsimp only
    rw [if_pos done]
    rfl

/-! ## Grace periods (R261 to R269) -/

/-- Settles O49. -/
theorem graceEventsComplete : Obligations.GraceEventsComplete := by
  refine ⟨fun ctx s runs req idle room => ?_, fun ctx s runs running clear stores out room => ?_, fun ctx s runs => ?_⟩
  · show execGracePeriodStart ctx s = _
    unfold execGracePeriodStart
    dsimp only
    rw [if_pos (by simp [runs, req, idle, room])]
    rfl
  · have unmarked : s.anyWarp ctx (·.mark) = false := by
      simp only [State.anyWarp, List.any_eq_false, Bool.and_eq_true, beq_iff_eq, List.any_eq_true, not_and, not_exists]
      intro t ht here w hw
      simp [clear t ht here w hw]
    show execGracePeriodEnd ctx s = _
    unfold execGracePeriodEnd
    dsimp only
    rw [if_pos (by simp [runs, running, unmarked, stores, out, room])]
    rfl
  · show execDeferredFreeDeliver ctx s = _
    unfold execDeferredFreeDeliver
    rw [if_pos runs]
    rfl

/-! ## The matrix array (R276 to R278, R290, R291) -/

/-- The heads of a pass have one plane, one task and one format with its leader, and 64 rows at most. -/
structure OnePass (lead : MatOp) (pass : List MatOp) : Prop where
  alike : ∀ o ∈ pass, o.physPlane = lead.physPlane ∧ o.task = lead.task ∧ o.afmt = lead.afmt
  rows : (pass.map (·.m)).sum ≤ 64

theorem OnePass.join {lead o : MatOp} {pass : List MatOp} (h : OnePass lead pass) : OnePass lead (if joins pass lead o then pass ++ [o] else pass) := by
  split
  · next yes =>
    simp only [joins, Bool.and_eq_true, beq_iff_eq, decide_eq_true_eq] at yes
    obtain ⟨⟨⟨⟨⟨-, plane⟩, task⟩, fmt⟩, -⟩, fits⟩ := yes
    refine ⟨fun x hx => ?_, by simpa using fits⟩
    obtain hx | hx := List.mem_append.1 hx
    · exact h.alike x hx
    · obtain rfl := List.mem_singleton.1 hx
      exact ⟨plane, task, fmt⟩
  · exact h

theorem Core.leader_mem {k : Core} {heads : List MatOp} {lead : MatOp} (h : k.leader heads = some lead) : lead ∈ heads := by
  unfold Core.leader at h
  split at h
  · cases h
  · obtain ⟨i, -, hi⟩ := List.exists_of_findSome?_eq_some h
    exact (List.mem_filter.1 (List.mem_of_find?_eq_some hi)).1

/-- The next pass, when there is one, is one pass with a head of the core. -/
theorem Core.nextPass_onePass {k : Core} (small : ∀ y ∈ k.ops, y.m ≤ 64) : k.nextPass = [] ∨ ∃ lead, OnePass lead k.nextPass := by
  unfold Core.nextPass
  dsimp only
  split
  · exact .inl rfl
  · next lead h =>
    have mine : lead ∈ k.ops := (List.mem_filter.1 (Core.leader_mem h)).1
    refine .inr ⟨lead, List.foldlRecOn _ _ (motive := OnePass lead) ⟨?_, ?_⟩ fun pass hp o _ => hp.join⟩
    · simp
    · simpa using small lead mine

/-- Settles O50. -/
theorem matrixEventsComplete : Obligations.MatrixEventsComplete := by
  refine ⟨fun k o x small ho hx => ?_, fun core s runs => ⟨fun lead rest idle next => ?_, fun busy => ?_, fun ns rest leaving => ?_,
    fun o rest drains fresh clean => ?_, fun idle room => ?_⟩⟩
  · obtain none_ | ⟨lead, pass⟩ := Core.nextPass_onePass small
    · simp [none_] at ho
    · obtain ⟨plane, task, fmt⟩ := pass.alike o ho
      obtain ⟨plane', task', fmt'⟩ := pass.alike x hx
      exact ⟨plane.trans plane'.symm, task.trans task'.symm, fmt.trans fmt'.symm, pass.rows⟩
  · show execMatrixPass core s = _
    unfold execMatrixPass
    dsimp only
    rw [if_neg (by simp [runs, idle]), next]
    rfl
  · show execPassLeavesArray core s = _
    unfold execPassLeavesArray
    dsimp only
    rw [if_neg (by simp [runs, busy])]
    rfl
  · show execPassRetire core s = _
    unfold execPassRetire
    dsimp only
    rw [if_neg (by simp [runs]), leaving]
    rfl
  · show execDrainPublish core s = _
    unfold execDrainPublish
    rw [if_neg (by simp [runs]), drains]
    dsimp only
    rw [if_neg (by simp [fresh]), clean]
    rfl
  · show execMatrixReset core s = _
    unfold execMatrixReset
    have hung : hungCycles ≤ (s.core core).idle := idle
    rw [if_pos (by simp [runs, hung, room])]
    rfl

end Sys2Proof.Machine

/-!
PROOFS. O51 and O52: the steps of a warp that no instruction makes, and the steps of the device (R41, R73, R120 to R127, R198, R210, R224,
R339, R350, R356 to R358).
-/

namespace Sys2Proof.Machine

open Sys2Proof

/-! ## Steps of a warp (R73, R123 to R127) -/

theorem State.late_iff (s : State) (r : WarpRef) (y : Wait) :
    s.late r y = true ↔ ∃ p ∈ y.parts, s.partUnmet r y p = true ∧ p.2.2.2 ≠ 0 ∧ p.2.2.2 ≤ y.elapsed := by
  simp [State.late, and_assoc]

section
variable {i : WarpId} {s : State} {r : WarpRef} {w : Warp}

theorem exec_wakeDelivery_woken {y : Wait} (at_ : s.warpAt i.core i.warp = some r) (hw : s.warp? r.task r.warp = some w)
    (blocked : w.st = .blocked) (wait : w.wait = some y) (woken : y.woken = true) :
    let u : State := { s with waiters := s.waiters.filter fun z => z.who != .warp r.task r.warp }
    exec (.wakeDelivery i) s = .next (s.guarded (if w.bad then u.stopBad (u.ctxOf r.task) r.task r.warp
      else u.modWarp r.task r.warp fun x => { x with st := .ready })) := by
  intro u
  show execWakeDelivery i s = _
  unfold execWakeDelivery
  rw [at_]
  dsimp only
  rw [hw]
  dsimp only
  rw [if_neg (not_not.2 blocked), if_pos (by simp [wait, woken])]
  rfl

theorem exec_wakeDelivery_asleep (at_ : s.warpAt i.core i.warp = some r) (hw : s.warp? r.task r.warp = some w)
    (blocked : w.st = .blocked) (asleep : ∀ y, w.wait = some y → y.woken = false) :
    exec (.wakeDelivery i) s = .next (s.guarded (s.wakesReach r)) := by
  have unwoken : ¬ (w.wait.map fun (y : Wait) => y.woken) = some true := by
    cases e : w.wait with
    | none => simp
    | some y => simp [asleep y e]
  show execWakeDelivery i s = _
  unfold execWakeDelivery
  rw [at_]
  dsimp only
  rw [hw]
  dsimp only
  rw [if_neg (not_not.2 blocked), if_neg unwoken]
  rfl

section
variable {y : Wait} (at_ : s.warpAt i.core i.warp = some r) (hw : s.warp? r.task r.warp = some w) (blocked : w.st = .blocked)
  (wait : w.wait = some y) (asleep : y.woken = false)
include at_ hw blocked wait asleep

theorem exec_waitRepresent_moved {s' : State} (boot : s.mgmt.boot = 3)
    (walk : s.walkAgain (s.warpWho r i.core w) (s.itemsAgain r y) = (false, s')) :
    exec (.waitRepresent i) s = .next (s.guarded ((s'.withdrawWaits r.task r.warp).modWarp r.task r.warp fun x =>
      { x with st := .ready, wait := none })) := by
  show execWaitRepresent i s = _
  unfold execWaitRepresent
  rw [at_]
  dsimp only
  rw [hw]
  dsimp only
  rw [wait]
  dsimp only
  rw [if_neg (by simp [blocked, asleep, boot]), walk, if_pos rfl]
  rfl

theorem exec_waitRepresent_again {s' : State} (boot : s.mgmt.boot = 3)
    (walk : s.walkAgain (s.warpWho r i.core w) (s.itemsAgain r y) = (true, s')) :
    let u := s'.presentAgain r.task r.warp
    let p := if y.entered then (true, u) else u.present r.task r.warp (y.items.filter fun z => !u.itemMet z)
    exec (.waitRepresent i) s = .next (s.guarded (p.2.modWarp r.task r.warp fun x =>
      { x with wait := x.wait.map fun y => { y with entered := p.1, woken := p.1 && p.2.allWoken r.task r.warp } })) := by
  intro u p
  show execWaitRepresent i s = _
  unfold execWaitRepresent
  rw [at_]
  dsimp only
  rw [hw]
  dsimp only
  rw [wait]
  dsimp only
  rw [if_neg (by simp [blocked, asleep, boot]), walk, if_neg (by simp)]
  rfl

theorem exec_sgWaitTimeout (may : s.mayRun (s.ctxOf r.task) = true) (known : ∀ x ∈ s.unsure r y, s.valueKnown r x = true)
    (late : s.late r y = true) (still : (s.learn r (s.unsure r y)).late r y = true) :
    exec (.sgWaitTimeout i) s = .next (s.guarded ((s.learn r (s.unsure r y)).takeFault r.task r.warp (w.lowestPc.getD 0)
      { cause := .sgWaitTimeout, mask := (s.learn r (s.unsure r y)).unmetMask r y })) := by
  show execSgWaitTimeout i s = _
  unfold execSgWaitTimeout
  rw [at_]
  dsimp only
  rw [hw]
  dsimp only
  rw [wait]
  dsimp only
  rw [if_neg (by simp [blocked, asleep, may, late]), if_neg (by simpa using known), if_pos still]
  rfl

end

end

/-- Settles O51. -/
theorem warpEventsComplete : Obligations.WarpEventsComplete := by
  refine fun i s r w at_ hw => ⟨fun run free stall long may => ?_, ?_, fun y => exec_wakeDelivery_woken at_ hw,
    exec_wakeDelivery_asleep at_ hw, fun y s' blocked wait asleep boot walk =>
      exec_waitRepresent_moved at_ hw blocked wait asleep boot walk, fun y s' blocked wait asleep boot walk =>
      exec_waitRepresent_again at_ hw blocked wait asleep boot walk,
    fun y blocked wait asleep may known => ?_⟩
  · show execStallSwitch i s = _
    unfold execStallSwitch
    rw [at_]
    dsimp only
    rw [hw]
    dsimp only
    rw [if_pos ⟨run, by simp [free], stall, long, may⟩]
    rfl
  · show execWarpQuantum i s = _
    unfold execWarpQuantum
    rw [at_]
    rfl
  · intro u late now still
    exact exec_sgWaitTimeout at_ hw blocked wait asleep may known ((s.late_iff r y).2 now) ((u.late_iff r y).2 still)

/-! ## A cycle (R350, R387) -/

/-- What a cycle's counts read: the time, the management registers, the freeze, the contexts, and the cycles of each core. -/
structure ClockView where
  time : Nat
  mgmt : Mgmt
  frozen : Bool
  debugSlot : Option Nat
  contexts : Vector Context 64
  cycles : Nat → Nat

def State.clockView (s : State) : ClockView :=
  { time := s.time, mgmt := s.mgmt, frozen := s.frozen, debugSlot := s.debugSlot, contexts := s.contexts,
    cycles := fun core => (s.core core).cycles }

theorem State.clockView_modCore (s : State) (core : Nat) {f : Core → Core} (h : ∀ c, (f c).cycles = c.cycles) :
    (s.modCore core f).clockView = s.clockView := by
  unfold State.clockView
  simp only [State.modCore_time, State.modCore_mgmt, State.modCore_frozen, State.modCore_debugSlot, State.modCore_contexts]
  congr
  funext d
  exact State.core_modCore_keeps (·.cycles) s core h d

theorem State.clockView_modWarp (s : State) (task warp : Nat) (f : Warp → Warp) : (s.modWarp task warp f).clockView = s.clockView := rfl

theorem State.clockView_beginFetch (s : State) (core : Nat) : (s.beginFetch core).clockView = s.clockView := by
  refine foldl_keeps State.clockView (fun b o => ?_) _ _
  refine (State.clockView_modWarp ..).trans (State.clockView_modCore _ _ ?_)
  exact fun _ => rfl

theorem State.clockView_laneCycle (s : State) (core lane : Nat) : (s.laneCycle core lane).clockView = s.clockView := by
  have counted (n : Nat) : (s.modCore core fun c =>
      { c with lanes := vmod c.lanes lane fun (l : Lane) => { l with h := vmod l.h n fun n => min (n + 1) counterTop } }).clockView =
      s.clockView := by
    refine State.clockView_modCore _ _ ?_
    exact fun _ => rfl
  unfold State.laneCycle
  dsimp only
  split
  · exact counted _
  · split
    · exact counted _
    · exact counted _

/-- The state in which a cycle's counts are made. -/
def State.counted (s : State) : State :=
  (List.range 192).foldl (fun (s : State) (core : Nat) =>
      (List.range 32).foldl (fun (s : State) (lane : Nat) => s.laneCycle core lane) s)
    ((List.range 192).foldl (fun (s : State) (core : Nat) => if s.coreRuns core then s.beginFetch core else s) s)

theorem State.clockView_counted (s : State) : s.counted.clockView = s.clockView := by
  refine (foldl_keeps State.clockView (fun b core => ?_) _ _).trans (foldl_keeps State.clockView (fun b core => ?_) _ _)
  · exact foldl_keeps State.clockView (fun b lane => b.clockView_laneCycle core lane) _ _
  · split
    · exact b.clockView_beginFetch core
    · rfl

section
variable {s t : State} (h : t.clockView = s.clockView)
include h

theorem State.time_of_clockView : t.time = s.time := congrArg ClockView.time h

theorem State.mgmt_of_clockView : t.mgmt = s.mgmt := congrArg ClockView.mgmt h

theorem State.cycles_of_clockView (core : Nat) : (t.core core).cycles = (s.core core).cycles :=
  congrFun (congrArg ClockView.cycles h) core

theorem State.coreRuns_of_clockView (core : Nat) : t.coreRuns core = s.coreRuns core := by
  have frozen : t.frozen = s.frozen := congrArg ClockView.frozen h
  have slot : t.debugSlot = s.debugSlot := congrArg ClockView.debugSlot h
  have ctxs : t.contexts = s.contexts := congrArg ClockView.contexts h
  simp only [State.coreRuns, State.mgmt_of_clockView h, frozen, slot, State.ctx, ctxs]

end

theorem vget_vmapIdx {α β : Type} {n : Nat} (v : Vector α n) (f : Nat → α → β) {i : Nat} (h : i < n) (d : α) (e : β) :
    vget (vmapIdx v f) i e = f i (vget v i d) := by
  simp [vget, vmapIdx, List.getD, h]

/-- The counts of a cycle, in the state in which they are made. -/
def State.afterCycle (s : State) : State :=
  { s with
    cores := vmapIdx s.cores fun core (c : Core) => if s.coreRuns core then c.cycle else c,
    tasks := s.tasks.map fun (t : Task) => match t.core with
      | some core => if s.coreRuns core && !t.ended then t.cycle else t
      | none => t,
    time := s.time + cycleTime s.mgmt.clkLvl }

theorem State.afterCycle_time (s : State) : s.afterCycle.time = s.time + cycleTime s.mgmt.clkLvl := rfl

theorem State.afterCycle_cycles {s : State} {core : Nat} (below : core < 192) (runs : s.coreRuns core = true) :
    (s.afterCycle.core core).cycles = (s.core core).cycles + 1 := by
  show (vget (vmapIdx s.cores fun core (c : Core) => if s.coreRuns core then c.cycle else c) core .reset).cycles = _
  rw [vget_vmapIdx _ _ below .reset, if_pos runs]
  rfl

theorem exec_profileCycle {s : State} (boot : s.mgmt.boot = 3) :
    exec .profileCycle s = .next (s.guarded s.counted.afterCycle) := by
  show execProfileCycle s = _
  unfold execProfileCycle State.counted
  rw [if_neg (not_not.2 boot)]
  rfl

theorem profileCycle_counts {s : State} (boot : s.mgmt.boot = 3) :
    ∃ t, exec .profileCycle s = .next t ∧ t.time = s.time + cycleTime s.mgmt.clkLvl ∧
      ∀ core, core < 192 → s.coreRuns core = true → (t.core core).cycles = (s.core core).cycles + 1 := by
  have view := s.clockView_counted
  refine ⟨_, exec_profileCycle boot, ?_, fun core below runs => ?_⟩
  · rw [State.guarded_time, State.afterCycle_time, State.time_of_clockView view, State.mgmt_of_clockView view]
  · have same : (s.guarded s.counted.afterCycle).core core = s.counted.afterCycle.core core := by
      unfold State.core
      rw [State.guarded_cores]
    rw [same, State.afterCycle_cycles below ((State.coreRuns_of_clockView view core).trans runs), State.cycles_of_clockView view]

/-- Settles O52. -/
theorem deviceEventsComplete : Obligations.DeviceEventsComplete := by
  refine ⟨fun core n s f runs fill => ?_, fun pa amt s boot aligned inside => ?_, fun core pa s boot owner => ?_,
    fun ctx s s₁ r may told next ring push => ?_, fun ctx s boot below low high => ?_, fun s => profileCycle_counts, fun x s r w issuer hw => ?_⟩
  · show execIcacheFill core n s = _
    unfold execIcacheFill
    rw [if_neg (by simp [runs]), fill]
    rfl
  · show execStalagmiteAddApply pa amt s = _
    unfold execStalagmiteAddApply
    rw [if_pos ⟨boot, aligned, inside⟩]
    rfl
  · show execOwnershipRecall core pa s = _
    unfold execOwnershipRecall
    rw [if_pos ⟨boot, owner⟩]
    rfl
  · show execFaultRecordPush ctx s = _
    unfold execFaultRecordPush
    dsimp only
    rw [if_neg (by simp [may, told]), next]
    dsimp only
    rw [if_neg ring, runAgent, show Op.pushRecord ctx r s = .ok ((), s₁) from push]
    rfl
  · show execContextStateError ctx s = _
    unfold execContextStateError
    rw [if_pos ⟨boot, below, low, high⟩]
    rfl
  · show execUnassignedOpcode x s = _
    unfold execUnassignedOpcode
    rw [issuer, Option.bind_some, hw]
    rfl

end Sys2Proof.Machine

/-!
PROOFS. O53: the events of a Karst port, and the accesses of peers and of the host (R365 to R373).
-/

namespace Sys2Proof.Machine

open Sys2Proof

/-! ## One port changed -/

section
variable {s : State} {port : Nat}

theorem State.port_modPort (s : State) (f : Port → Port) (h : port < 18) : (s.modPort port f).port port = f (s.port port) := by
  simp [State.port, State.modPort, vmod, vget, List.getD, h]

/-- Two changes that give a port the same are one. -/
theorem State.modPort_congr {f g : Port → Port} (h : port < 18) (e : f (s.port port) = g (s.port port)) :
    s.modPort port f = s.modPort port g := by
  have same : vmod s.ports port f = vmod s.ports port g := vmod_congr .reset h e
  simp only [State.modPort, same]

theorem State.modPort_id (s : State) (port : Nat) : (s.modPort port fun p => p) = s := by
  simp only [State.modPort, vmod_id]

/-! ## Flits (R365, R366) -/

theorem exec_flitReceive (f : Flit) (crcOk : Bool) (h : port < 18) (boot : s.mgmt.boot = 3)
    (carries : (s.port port).st = 2 ∨ (s.port port).st = 3 ∨ (s.port port).st = 4) :
    exec (.flitReceive port f crcOk) s = .next (s.guarded (
      if 8 ≤ ((s.port port).receive f crcOk).fails ∧ (s.port port).st ≠ 4 then (s.modPort port fun p => p.receive f crcOk).retrain port
      else s.modPort port fun p => p.receive f crcOk)) := by
  show execFlitReceive port f crcOk s = _
  unfold execFlitReceive
  dsimp only
  rw [if_pos ⟨h, boot, carries⟩, State.port_modPort _ _ h]
  rfl

theorem State.acknowledged_ports (s : State) (f : Flit) : (s.acknowledged f).ports = s.ports := by
  unfold State.acknowledged
  split <;> rfl

theorem exec_controlFlit {allow cls ack : Nat} (h : port < 18) (boot : s.mgmt.boot = 3) (hc : cls < 3)
    (carries : (s.port port).st = 2 ∨ (s.port port).st = 3 ∨ (s.port port).st = 4) :
    let u := ((s.port port).replay.filter fun f => decide (f.seq < ack)).foldl (fun (z : State) (f : Flit) => z.acknowledged f) s
    let rest := (s.port port).replay.filter fun f => decide (ack ≤ f.seq)
    exec (.controlFlit port allow cls ack) s = .next (s.guarded (u.modPort port fun p =>
      let x : Port := { p with allow := vmod p.allow cls fun n => n + allow, replay := rest }
      (if allow = 0 ∧ ∃ f ∈ rest, f.seq = ack then x.replayed rest.length else x).control.pump)) := by
  intro u rest
  have stays : u.port port = s.port port := by
    unfold State.port
    rw [show u.ports = s.ports from foldl_keeps State.ports State.acknowledged_ports _ _]
  have left : ((s.port port).replay.filter fun f => !decide (f.seq < ack)) = rest := by
    refine List.filter_congr fun f _ => ?_
    simp [← decide_not]
  show execControlFlit port allow cls ack s = _
  unfold execControlFlit
  dsimp only
  rw [if_pos ⟨h, boot, hc, carries⟩]
  refine congrArg (fun z => Host.Outcome.next (s.guarded z)) (State.modPort_congr h ?_)
  rw [show State.port _ port = s.port port from stays, left]
  simp

/-- A retraining that no outstanding request waits on changes its port alone (R367). -/
theorem State.retrain_alone (none_ : ∀ o ∈ s.outstanding, o.port ≠ port) :
    s.retrain port = s.modPort port fun p => { p with st := 5, was := 5, fails := 0 } := by
  have idle : (s.outstanding.filter fun o => o.port == port) = [] := by simpa using none_
  unfold State.retrain
  simp only [State.modPort_outstanding, idle, List.foldl_nil]

end

/-- Settles O53. -/
theorem linkEventsComplete : Obligations.LinkEventsComplete := by
  refine ⟨fun port s h boot => ?_, fun s peer tag op fresh outside => ?_⟩
  · intro p carries
    refine ⟨fun lanes rate peer st hl hr hp => ?_, fun st room => ?_, fun st => ⟨?_, State.retrain_alone⟩, fun f live => ⟨?_, ?_, ?_⟩,
      fun allow cls ack hc live => exec_controlFlit h boot hc live, fun cls peer tag op first => ?_, fun cls peer tag first => ?_,
      fun cls peer tag ok v o first asked room => ?_, fun pa size op v => ?_, fun pa len v short inside => ⟨?_, ?_⟩⟩
    · show execPortTrained port lanes rate peer s = _
      unfold execPortTrained
      dsimp only
      rw [if_pos ⟨h, boot, st, hl, hr, hp⟩]
      rfl
    · show execPortTrainingTimeout port s = _
      unfold execPortTrainingTimeout
      rw [if_pos ⟨h, boot, st, room⟩]
      rfl
    · show execPortRetrain port s = _
      unfold execPortRetrain
      dsimp only
      rw [if_pos ⟨h, boot, st⟩]
      rfl
    · rw [exec_flitReceive f false h boot live]
      simp only [Port.receive, Bool.not_false, if_true, Nat.succ_le_succ_iff]
      rfl
    · intro next
      rw [exec_flitReceive f true h boot live, if_neg (by simp [Port.receive, show f.seq = (s.port port).rxSeq from next])]
      refine congrArg (fun z => Host.Outcome.next (s.guarded z)) (State.modPort_congr h ?_)
      simp only [Port.receive, Bool.not_true, Bool.false_eq_true, if_false, next, ne_eq, not_true_eq_false, p]
    · intro other
      have same : (s.port port).receive f true = s.port port := by
        simp [Port.receive, show f.seq ≠ (s.port port).rxSeq from other]
      have still : (s.modPort port fun p => p.receive f true) = s :=
        (State.modPort_congr h same).trans (s.modPort_id port)
      rw [exec_flitReceive f true h boot live, still, same]
    · show execRemoteRequest port s = _
      unfold execRemoteRequest
      rw [if_neg (not_not.2 boot), show (s.port port).first msgAsks = _ from first]
      rfl
    · show execRemoteRequest port s = _
      unfold execRemoteRequest
      rw [if_neg (not_not.2 boot), show (s.port port).first msgAsks = _ from first]
      rfl
    · show execRemoteResponse port s = _
      unfold execRemoteResponse
      rw [if_neg (not_not.2 boot), show (s.port port).first _ = _ from first]
      dsimp only
      rw [asked]
      dsimp only
      rw [if_pos room]
      rfl
    · show execReductionResult pa size op v s = _
      unfold execReductionResult
      rw [if_pos boot]
      rfl
    · show execCxlMemAccess true pa len v s = _
      unfold execCxlMemAccess
      rw [if_pos ⟨rfl, boot, short, inside⟩]
      rfl
    · show execCxlMemAccess false pa len v s = _
      unfold execCxlMemAccess
      rw [if_neg (by simp)]
      rfl
  · have refused_ : s.serve peer tag op = s.respond peer tag false 1 := by
      unfold State.serve
      dsimp only
      rw [if_neg (by simp [fresh]), if_pos outside]
    refine ⟨refused_, fun a => ?_⟩
    rw [refused_]
    exact (State.respond_sameHomes s peer tag false 1).homeByte a

end Sys2Proof.Machine

/-!
PROOFS. O54 to O58: the host's writes of registers, the commands of the management ring and their completion, reset, boot, the clock and
attestation (R194, R339 to R346, R351, R356, R367 to R376, R379 to R397).
-/

namespace Sys2Proof.Machine

open Sys2Proof

/-! ## Registers (R6, R194, R341, R356, R376 to R392, R397) -/

theorem Mgmt.writeCfg_enables (m : Mgmt) {v : W64} (en : v.getLsbD 8 = true) (low : 4 ≤ (v.extractLsb' 0 4).toNat)
    (high : (v.extractLsb' 0 4).toNat ≤ 12) : m.writeCfg v =
      { m with mcIrq := v.getLsbD 16, mcLog := (v.extractLsb' 0 4).toNat, mcEn := true, mcFill := 0, mcDone := 0, busyCounts := false } := by
  unfold Mgmt.writeCfg
  dsimp only
  rw [en, decide_eq_true low, decide_eq_true high]
  rfl

theorem Mgmt.writeCfg_stops (m : Mgmt) {v : W64}
    (h : v.getLsbD 8 = false ∨ (v.extractLsb' 0 4).toNat < 4 ∨ 12 < (v.extractLsb' 0 4).toNat) : m.writeCfg v =
      { m with mcIrq := v.getLsbD 16, mcLog := (v.extractLsb' 0 4).toNat, mcEn := false } := by
  unfold Mgmt.writeCfg
  dsimp only
  refine if_neg fun e => ?_
  simp only [Bool.and_eq_true, decide_eq_true_eq] at e
  obtain ⟨⟨en, low⟩, high⟩ := e
  obtain off | small | large := h
  · exact absurd (off.symm.trans en) (by decide)
  · omega
  · omega

/-- A write of TRCCFG without EN starts no trace (R383). -/
theorem State.writeTrccfg_off (s : State) {core : Nat} {v : W64} (h : core < 192) (off : v.getLsbD 63 = false) :
    s.writeTrccfg core v true = s.modCore core fun c => { c with dbg := { c.dbg with trccfg := v &&& trccfgMask } } := by
  unfold State.writeTrccfg
  dsimp only
  rw [State.core_modCore_same _ _ h]
  refine if_pos ?_
  unfold DebugRegs.traceOn
  rw [BitVec.getLsbD_and, off]
  rfl

/-- Settles O54. -/
theorem registerWritesComplete : Obligations.RegisterWritesComplete := by
  refine ⟨fun off v s => rfl, fun ctx n i v s boot hc listed owned managed index slot => ?_, fun core off v s boot hc aligned => ?_,
    fun a s => ⟨fun boot => ?_, fun boot => ?_⟩, fun v s en low high => ?_, fun v s h => ?_, fun v s grows room => ?_,
    fun v s h => ?_, fun ctx va s s₁ x boot hc room read => ?_, fun ctx v s boot => ?_,
    fun w s r t susp ht => ⟨?_, fun thawed => ?_, fun frozen other => ?_⟩, fun core v s hc boot => ⟨?_, fun off => ?_⟩,
    fun s => ⟨fun slot => ?_, rfl⟩⟩
  · have dbg : n ≠ 0x40 ∨ s.debugSlot = some ctx := by
      by_cases h : n = 0x40
      · exact .inr (slot h)
      · exact .inl h
    show execRegisterWrite (.system ctx n i) v s = _
    unfold execRegisterWrite
    dsimp only
    rw [if_pos ⟨boot, hc, listed, owned, managed, index, dbg⟩]
    rfl
  · show execRegisterWrite (.debug core off) v s = _
    unfold execRegisterWrite
    dsimp only
    rw [if_pos ⟨boot, hc, aligned⟩]
    rfl
  · show Host.Outcome.next (s.writeBootgo a) = _
    unfold State.writeBootgo
    rw [if_neg (not_not.2 boot)]
  · show Host.Outcome.next (s.writeBootgo a) = _
    unfold State.writeBootgo
    rw [if_pos boot]
  · show Host.Outcome.next { s with mgmt := s.mgmt.writeCfg v } = _
    rw [Mgmt.writeCfg_enables _ en low high]
  · show Host.Outcome.next { s with mgmt := s.mgmt.writeCfg v } = _
    rw [Mgmt.writeCfg_stops _ h]
  · show Host.Outcome.next { s with mgmt := s.mgmt.writeFill v } = _
    unfold Mgmt.writeFill
    rw [if_neg (by omega)]
  · show Host.Outcome.next { s with mgmt := s.mgmt.writeFill v } = _
    unfold Mgmt.writeFill
    rw [if_pos h]
  · show execTlbinvWrite ctx va s = _
    unfold execTlbinvWrite
    rw [if_neg (by omega), read]
    rfl
  · show execFringWrite ctx v s = _
    unfold execFringWrite
    rw [if_pos boot]
    rfl
  · show s.keeping (.next (s.dresResume w.core w.warp)) = _
    unfold State.dresResume
    rw [susp]
    rfl
  · show s.keeping (.next (s.dresKill w.core w.warp)) = _
    unfold State.dresKill
    rw [susp]
    dsimp only
    rw [ht]
    dsimp only
    rw [if_neg (by simp [thawed])]
    rfl
  · show s.keeping (.next (s.dresKill w.core w.warp)) = _
    unfold State.dresKill
    rw [susp]
    dsimp only
    rw [ht]
    dsimp only
    rw [if_pos (by simp [frozen, other])]
    rfl
  · show execTraceEnable core v s = _
    unfold execTraceEnable
    rw [if_pos boot]
    rfl
  · show execTraceEnable core v s = _
    unfold execTraceEnable
    rw [if_pos boot, State.writeTrccfg_off s hc off]
    rfl
  · show s.keeping (.next s.freezeNow) = _
    unfold State.freezeNow
    rw [if_pos (Option.isSome_iff_ne_none.2 slot)]
    rfl

/-! ## Commands of the ring (R389 to R391) -/

section
variable {c : Command} {s t : State} {used : List (Nat × Nat)} {f : State → Ended}

/-- Every code of R390 names a command of the ring. -/
theorem exec_command {i : Instr} (h : Decode.command c = some i) : ∃ used f, ∀ s, exec i s = runCommand used f c s := by
  unfold Decode.command Decode.commandOf at h
  split at h <;> cases h <;> exact ⟨_, _, fun _ => rfl⟩

theorem runCommand_early (turn : s.ringCommand = some c) (boot : s.mgmt.boot ≠ 3) :
    runCommand used f c s = .next (s.finishCommand (commandTag c) 1 0 0) := by
  unfold runCommand
  rw [if_neg (not_not.2 turn), if_pos boot]

variable (turn : s.ringCommand = some c) (boot : s.mgmt.boot = 3) (unused : unusedZero c used = true)
include turn boot unused

theorem runCommand_done {r : Nat} (work : f s = .done t r) :
    runCommand used f c s = .next (({ t with mgmt := s.mgmt } : State).finishCommand (commandTag c) 0 0 r) := by
  unfold runCommand
  rw [if_neg (not_not.2 turn), if_neg (not_not.2 boot), if_neg (by simp [unused]), work]
  rfl

theorem runCommand_begun {b : Busy} (work : f s = .begun t b) :
    runCommand used f c s = .next { t with mgmt :=
      { s.mgmt with busy := some (commandTag c, b), busySlot := s.ringSlot s.mgmt.mcDone.toNat, busyCounts := true } } := by
  unfold runCommand
  rw [if_neg (not_not.2 turn), if_neg (not_not.2 boot), if_neg (by simp [unused]), work]
  rfl

end

/-- Settles O55. -/
theorem commandsRefusedEarly : Obligations.CommandsRefusedEarly := by
  intro c i s h turn boot
  obtain ⟨used, f, run⟩ := exec_command h
  rw [run, runCommand_early turn boot]

theorem State.tellSource_contexts (s : State) (peer : Nat) (cause : Option Nat) : (s.tellSource peer cause).contexts = s.contexts := by
  unfold State.tellSource
  split <;> rfl

/-- A migrated context that its destination accepts stands saved there, with its clusters as one partition (R346). -/
theorem State.migrateIn_done {c : Command} {s : State} {im : Image} (below : namedSlot c < 64) (peer : field c 9 1 < 64)
    (free : (s.ctx (namedSlot c)).st = 0) (aligned : field c 16 8 % 64 = 0) (inside : localRange (field c 16 8) 256 = true)
    (judged : s.judgeImage (namedSlot c) (field c 16 8) = .ok im) :
    ∃ t : State, s.migrateIn c = .done t 0 ∧ (t.ctx (namedSlot c)).st = 5 ∧
      (t.ctx (namedSlot c)).parts = s.migratedParts (namedSlot c) im.regs := by
  unfold State.migrateIn
  dsimp only
  rw [if_neg (by simp [Nat.not_le.2 below, Nat.not_le.2 peer, free, aligned, inside]), judged]
  dsimp only
  refine ⟨_, rfl, ?_⟩
  unfold State.ctx
  rw [State.tellSource_contexts]
  have set (u : State) (f : Context → Context) : vget (u.modCtx (namedSlot c) f).contexts (namedSlot c) .reset = f (u.ctx (namedSlot c)) :=
    State.ctx_modCtx_same u f below
  rw [set]
  exact ⟨rfl, rfl⟩

/-- Settles O56: each command's work, with legal operands, is done or begun. -/
theorem managementCommandsComplete : Obligations.ManagementCommandsComplete := by
  intro c s turn boot
  dsimp only
  refine ⟨fun below priv r0 r1 st u => ?_, fun below part mask st ok u => ?_, fun below st low high u => ?_, fun below st ok u => ?_,
    fun below st go u => ?_, fun below st aligned inside large u => ?_, fun t below st go back u => ?_, fun below st u => ?_,
    fun off p below peer st aligned at_ route u => ?_, fun im below peer st aligned inside judged u => ?_,
    fun named managed dbg other u => ?_, fun named u => ?_, fun below u => ?_, fun below go u => ?_, fun below st u => ?_,
    fun below st room u => ?_, fun below mask u => ?_, fun below entry pa len inside u => ?_, fun below ok u => ?_,
    fun none_ u => ?_, fun below u => ?_, fun room u => ?_, fun kind aligned inside ranges u => ?_⟩
  · refine runCommand_done turn boot u (f := State.create c) ?_
    exact if_neg (by simp [Nat.not_le.2 below, Nat.not_lt.2 priv, r0, r1, st])
  · have given : ((List.range 48).any fun i => (field c 16 8).testBit i && s.heldElsewhere (namedSlot c) i) = false := by
      simp only [List.any_eq_false, Bool.and_eq_true, not_and]
      intro i _ hi
      simp [ok i hi]
    refine runCommand_done turn boot u (f := State.assign c) (if_neg ?_)
    simp only [given, Bool.false_eq_true, or_false]
    omega
  · refine runCommand_done turn boot u (f := State.negotiate c) ?_
    exact (if_neg (by omega)).trans (if_neg (by omega))
  · refine runCommand_done turn boot u (f := State.start c) ?_
    exact if_neg (by simp [Nat.not_le.2 below, st, ok])
  · refine runCommand_begun turn boot u (f := State.preempt c) ?_
    exact (if_neg (by omega)).trans (if_neg (by simp [go]))
  · refine runCommand_begun turn boot u (f := State.save c) ?_
    exact (if_neg (by simp [Nat.not_le.2 below, st, aligned, inside])).trans (if_neg (by omega))
  · refine runCommand_done turn boot u (f := State.restore c) ?_
    refine (if_neg (by omega)).trans ((if_neg (by simp [go])).trans ?_)
    rw [show s.readBack (namedSlot c) = some t from back]
  · refine runCommand_done turn boot u (f := State.teardown c) ?_
    exact if_neg (by omega)
  · refine runCommand_begun turn boot u (f := State.migrateOut c) ?_
    refine (if_neg (by omega)).trans ?_
    rw [at_, route]
  · obtain ⟨t, work, saved, parts⟩ := State.migrateIn_done below peer st aligned inside judged
    exact ⟨t, runCommand_done turn boot u (f := State.migrateIn c) work, saved, parts⟩
  · refine runCommand_done turn boot u (f := State.srwrite c) ?_
    refine (if_neg ?_).trans (if_neg other)
    rintro (h | h | ⟨h, h'⟩)
    · simp [named] at h
    · simp [managed] at h
    · exact h' (dbg h)
  · refine runCommand_done turn boot u (f := State.srread c) ?_
    exact if_neg (by simp [named])
  · refine runCommand_done turn boot u (f := State.warpresume c) ?_
    exact if_neg (Nat.not_le.2 below)
  · refine runCommand_done turn boot u (f := State.warpkill c) ?_
    exact (if_neg (Nat.not_le.2 below)).trans (if_neg (by simp [go]))
  · refine runCommand_done turn boot u (f := State.portenable c) ?_
    exact if_neg (by omega)
  · refine runCommand_done turn boot u (f := State.portdisable c) ?_
    exact (if_neg (by omega)).trans (if_neg (by simp [room]))
  · have work : State.route c s = .done _ 0 := if_neg (by omega)
    exact runCommand_done turn boot u (f := State.route c) work
  · have work : State.exportRange c s = .done _ 0 := if_neg (by simp [Nat.not_le.2 below, Nat.not_le.2 entry, pa, len, inside])
    exact runCommand_done turn boot u (f := State.exportRange c) work
  · have work : State.window c s = .done _ 0 := if_neg (by simp [Nat.not_le.2 below, ok])
    exact runCommand_done turn boot u (f := State.window c) work
  · have work : State.debugset c s = .done _ 0 := if_pos none_
    exact runCommand_done turn boot u (f := State.debugset c) work
  · have work : State.debugset c s = .done _ 0 := (if_neg (by omega)).trans (if_neg (Nat.not_le.2 below))
    exact runCommand_done turn boot u (f := State.debugset c) work
  · refine runCommand_begun turn boot u (f := State.mgmtTlbinv c) ?_
    exact if_neg (Nat.not_le.2 room)
  · refine runCommand_begun turn boot u (f := State.checkpoint c) ?_
    exact if_neg (by simpa [Nat.not_lt.2 kind, aligned, inside] using ranges)

/-! ## Commands that go on after they begin (R195, R343 to R346, R374, R390) -/

/-- Settles O57. -/
theorem commandsComplete : Obligations.CommandsComplete := by
  refine ⟨fun ctx tag s busy boot st go => ?_, fun ctx pa n tag s busy boot st image => ?_,
    fun ctx cause peer tag s busy boot st => ⟨fun yes => ?_, fun no => ?_⟩, fun ctx s below st boot => ?_,
    fun s x rest tag first mine busy begun clear room => ?_, fun s tag list n target sga cxl a busy boot => ?_⟩
  · intro h
    have run : exec (.preemptComplete ctx) s = if h.queuesQuiet ctx && (h.residentTasks ctx).all fun t => h.canLeave t
        then .next ((s.guarded (h.swapOut ctx)).finishCommand tag 0 0 0) else s.keeping (.next h) := by
      show execPreemptComplete ctx s = _
      unfold execPreemptComplete
      rw [busy]
      dsimp only
      rw [if_neg (by simp [boot]), if_neg (not_not.2 st), if_neg (by simp [go])]
    refine ⟨fun quiet leave => ?_, fun stays => ?_⟩
    · rw [run, if_pos (by simpa [quiet] using leave)]
    · rw [run, if_neg]
      · rfl
      · rw [Bool.and_eq_true, List.all_eq_true, not_and]
        intro quiet leave
        obtain loud | ⟨t, ht, stuck⟩ := stays
        · simp [loud] at quiet
        · exact absurd (leave t ht) (by simp [stuck])
  · intro y
    show execSaveComplete ctx s = _
    unfold execSaveComplete
    rw [busy, image]
    dsimp only
    rw [if_neg (by simp [boot]), if_neg (not_not.2 st)]
  · show Host.Outcome.next (if s.mgmt.boot = 3 then s.answerMigration ctx cause else s) = _
    unfold State.answerMigration
    rw [if_pos boot, busy]
    dsimp only
    rw [if_neg (by simp [st]), if_pos yes]
  · show Host.Outcome.next (if s.mgmt.boot = 3 then s.answerMigration ctx cause else s) = _
    unfold State.answerMigration
    rw [if_pos boot, busy]
    dsimp only
    rw [if_neg (by simp [st]), if_neg no]
  · show execTeardownRelease ctx s = _
    unfold execTeardownRelease
    rw [if_neg (by omega)]
    rfl
  · intro r
    have held : (s.frozen && !x.begun) = false := by
      obtain thawed | on := begun
      · simp [thawed]
      · simp [on]
    have clear' : (s.guarded (s.began x)).usesCovered x = false := clear
    have room' : (s.guarded (s.began x)).recordRoom (x.from_.getD x.ctx) = true := by
      rw [mine]
      exact room
    show execInvalidationComplete s = _
    unfold execInvalidationComplete
    rw [first]
    dsimp only
    rw [held]
    simp only [Bool.false_eq_true, if_false, clear', room', Bool.not_true, Bool.or_self]
    rw [mine, State.guarded_mgmt, State.guarded_mgmt, busy]
  · intro y r
    show execCheckpointComplete s = _
    unfold execCheckpointComplete
    rw [busy]
    dsimp only
    rw [if_neg (not_not.2 boot)]

/-! ## Reset, boot, the clock and attestation (R12, R392 to R396) -/

/-- The level that the clock moves to, in the cases that R396 gives. -/
theorem nextLevel_down (m : Mgmt) {draw temp : Nat} (h : m.pwrCap < draw ∨ 1050 ≤ temp) : nextLevel m draw temp = m.clkLvl - 1 :=
  if_pos (by tauto)

theorem nextLevel_up (m : Mgmt) {draw temp : Nat} (room : draw + 50 ≤ m.pwrCap) (cool : temp < 1000) (below : m.clkLvl < m.clkMax) :
    nextLevel m draw temp = m.clkLvl + 1 :=
  (if_neg (by omega)).trans (if_pos ⟨room, cool, below⟩)

/-- Settles O58. -/
theorem bootAndAttestationComplete : Obligations.BootAndAttestationComplete := by
  refine ⟨fun s => ⟨fun boot => ⟨?_, ?_⟩, fun boot => ⟨?_, fun hot => ?_⟩, fun boot => ⟨fun ok => ?_, fun bad => ?_⟩,
      fun boot draw temp => ⟨⟨_, if_neg boot, nextLevel_down s.mgmt, nextLevel_up s.mgmt, rfl⟩, fun hot => ?_⟩⟩, fun fn s => ?_⟩
  · exact if_pos boot
  · show execHostReset s = _
    unfold execHostReset
    rw [boot]
    rfl
  · show execHostReset s = _
    unfold execHostReset
    rw [boot]
    rfl
  · exact if_pos ⟨boot, hot⟩
  · show execImageVerify s = _
    unfold execImageVerify
    rw [if_neg (not_not.2 boot), ok]
    rfl
  · show execImageVerify s = _
    unfold execImageVerify
    rw [if_neg (not_not.2 boot)]
    split
    · next ok => exact absurd ok bad
    · rfl
  · exact if_neg (by omega)
  · intro sends
    refine ⟨rfl, rfl, fun asym hash => ⟨fun a h => if_pos ⟨a, h⟩, fun none_ => if_neg (by tauto)⟩, rfl, fun _ _ => rfl, fun _ => rfl,
      fun index => ⟨fun bs some_ => ?_, fun none_ => ?_⟩⟩
    · show execGetMeasurements fn index s = _
      unfold execGetMeasurements
      rw [some_]
      rfl
    · show execGetMeasurements fn index s = _
      unfold execGetMeasurements
      rw [none_]
      rfl

end Sys2Proof.Machine

/-!
PROOFS. O3 to O6: the printed words, the turn of a step, and the words that no thread executes (R29, R41, R69, R391).
-/

namespace Sys2Proof.Machine

open Sys2Proof

/-! ## Words that no thread executes (R29, R69) -/

/-- With no participant, no thread executes the word. -/
theorem Ctx.executing_of_no_parts {c : Ctx} (hp : c.parts = []) : c.executing = [] := by
  simp [Ctx.executing, hp]

section
variable {s : State} {v : View}

theorem exec_exit_no_parts {w : EWord} (i : IssuesE encOfExit w .boundary s v) (hp : v.c.parts = []) :
    exec (.exit w) s = .next (v.ended .boundary s s) := by
  obtain ⟨t, ht, -⟩ := issueView_task i.view
  show execExit w s = _
  exact issueE_run i (.bind i.warp <| .bind (Op.task_run ht) <| .no_parts hp (.pure ..))

theorem exec_ifence_no_parts {w : EWord} (i : IssuesE encOfIfence w .straight s v) (hp : v.c.parts = []) :
    exec (.ifence w) s = .next (v.ended .straight s s) := by
  show execIfence w s = _
  exact issueE_run i (.no_parts hp (.pure ..))

theorem exec_trap_no_parts {w : EWord} (i : IssuesE encOfTrap w .straight s v) (hp : v.c.parts = []) :
    exec (.trap w) s = .next (v.ended .straight s s) := by
  show execTrap w s = _
  exact issueE_run i (.no_parts hp (.pure ..))

theorem exec_bkpt_no_parts {w : EWord} (i : IssuesE encOfBkpt w .straight s v) (hp : v.c.parts = []) :
    exec (.bkpt w) s = .next (v.ended .straight s s) := by
  show execBkpt w s = _
  exact issueE_run i (if_pos (by simp [hp]))

theorem exec_ipf_no_parts {w : JWord} (i : IssuesJ jumpEnc w .straight s v) (hp : v.c.parts = []) :
    exec (.ipf w) s = .next (v.ended .straight s s) := by
  show execIpf w s = _
  exact issueJ_run i (.no_parts hp (.pure ..))

theorem exec_vote_no_parts {w : KWord} (i : IssuesK encOfVote w .straight s v) (hp : v.c.parts = []) :
    exec (.vote w) s = .next (v.ended .straight s s) := by
  show execVote w s = _
  exact issueK_run i (.bind i.warp <| .no_parts (Ctx.executing_of_no_parts hp) (.pure ..))

/-- With no participant there is no value to fold. -/
theorem crossValues_of_no_parts {c : Ctx} (hp : c.parts = []) (x : Warp) (k : KWord) (sel : Selector) : crossValues c x k sel = [] := by
  rw [crossValues, Ctx.executing_of_no_parts hp, List.map_nil]

theorem exec_wred_no_parts {w : KWord} (i : IssuesK encOfWred w .straight s v) (hp : v.c.parts = []) :
    exec (.wred w) s = .next (v.ended .straight s s) := by
  show execWred w s = _
  refine issueK_run i (.bind i.warp ?_)
  rw [crossValues_of_no_parts hp]
  exact .pure ..

theorem exec_wscan_no_parts {w : KWord} (i : IssuesK encOfWscan w .straight s v) (hp : v.c.parts = []) :
    exec (.wscan w) s = .next (v.ended .straight s s) := by
  show execWscan w s = _
  refine issueK_run i (.bind i.warp ?_)
  rw [crossValues_of_no_parts hp]
  exact .pure ..

theorem exec_qnt_no_parts {w : KWord} (i : IssuesK encOfQnt w .straight s v) (hp : v.c.parts = []) :
    exec (.qnt w) s = .next (v.ended .straight s s) := by
  show execQnt w s = _
  exact issueK_run i (.bind i.warp <| .no_parts hp (.pure ..))

theorem exec_ginfo_no_parts {w : EWord} (i : IssuesE encOfGinfo w .straight s v) (hp : v.c.parts = []) :
    exec (.ginfo w) s = .next (v.ended .straight s s) := by
  show execGinfo w s = _
  exact issueE_run i (.bind i.warp <| .no_parts hp (.pure ..))

end

/-- Settles O6. -/
theorem wordsOfNoThreadDoNothing : Obligations.WordsOfNoThreadDoNothing := by
  refine ⟨⟨fun _ _ _ => exec_exit_no_parts, fun _ _ _ => exec_ipf_no_parts, fun _ _ _ => exec_ifence_no_parts,
      fun _ _ _ => exec_trap_no_parts, fun _ _ _ => exec_bkpt_no_parts⟩,
    ⟨fun _ _ _ => exec_vote_no_parts, fun _ _ _ => exec_wred_no_parts, fun _ _ _ => exec_wscan_no_parts,
      fun _ _ _ => exec_qnt_no_parts⟩,
    ⟨fun _ _ _ i hp => issueM_run (body := storeRun) i (.no_parts hp (.pure ..)),
      fun _ _ _ i hp => issueM_run (body := mergeRun) i (.no_parts hp (.pure ..)),
      fun _ _ _ i hp => issueE_run (body := fun c k => fenceRun (k.sub != 1) (k.sub != 2) c) i (.no_parts hp (.pure ..)),
      fun _ _ _ i hp => issueE_run (body := fun c _ => fenceRun true true c) i (.no_parts hp (.pure ..))⟩,
    ⟨fun _ _ _ => exec_ginfo_no_parts, fun w s v i hp => ?_, fun w s v i hp => ?_⟩,
    ⟨fun _ _ _ i hp => issueT_run (body := wloadRun) i (.no_parts hp (.pure ..)), fun w s v i hp => ?_,
      fun _ _ _ i hp => issueT_run (body := mmaRegRun) i (.no_parts hp (.pure ..)),
      fun _ _ _ i hp => issueT_run (body := mmaTileRun) i (.no_parts hp (.pure ..)),
      fun _ _ _ i hp => issueT_run (body := mmaShapeRun) i (.no_parts hp (.pure ..)),
      fun w s v i hp => ?_, fun w s v i hp => ?_, fun w s v i hp => ?_, fun w s v i hp => ?_⟩,
    ⟨fun w s v i hp => ?_, fun w s v i hp => ?_, fun w s v i hp => ?_, fun w s v i hp => ?_, fun w s v i hp => ?_,
      fun w s v i hp => ?_⟩,
    fun w s v i hp => ?_, fun w s v i hp => ?_, fun w s v i hp => ?_⟩
  · show execGpnum w s = _
    exact issueE_run i (.no_parts hp (.pure ..))
  · show execGpwait w s = _
    exact issueE_run i (.no_parts hp (.pure ..))
  · show execWfree w s = _
    exact issueT_run i (.no_parts hp (.pure ..))
  · show execAccrd w s = _
    exact issueT_run i (.no_parts hp (.pure ..))
  · show execAccwr w s = _
    exact issueT_run i (.no_parts hp (.pure ..))
  · show execAccz w s = _
    exact issueT_run i (.no_parts hp (.pure ..))
  · show execDrain w s = _
    exact issueT_run i (.no_parts hp (.pure ..))
  · show execTdld w s = _
    exact issueT_run i (.no_parts hp (.pure ..))
  · show execCtld w s = _
    exact issueT_run i (.no_parts hp (.pure ..))
  · show execCtinv w s = _
    exact issueT_run i (.no_parts hp (.pure ..))
  · show execTld w s = _
    exact issueT_run i (.no_parts hp (.pure ..))
  · show execTst w s = _
    exact issueT_run i (.no_parts hp (.pure ..))
  · show execBixrd w s = _
    exact issueT_run i (.no_parts hp (.pure ..))
  · show execGset w s = _
    exact issueE_run i (.no_parts hp (.pure ..))
  · show execGclr w s = _
    exact issueE_run i (.no_parts hp (.pure ..))
  · show execStadv w s = _
    exact issueE_run i (.no_parts hp (.pure ..))

/-! ## The printed words (R41, R216, R238) -/

/-- Settles O3: the printed words are decoded, and an opcode absent from R40 is the unassigned row. -/
theorem printedWordsDecode : Obligations.PrintedWordsDecode := by
  refine ⟨⟨by decide +kernel, by decide +kernel, by decide +kernel, by decide +kernel⟩, fun w ho => ?_⟩
  show Decode.byOpcode (w.toNat % 1024) w.toNat = _
  rw [Decode.byOpcode_unassigned ho, BitVec.ofNat_toNat, BitVec.setWidth_eq]

/-! ## Whose turn the step is (R389, R391) -/

theorem step_event {s : State} {rest : List Turn} {i : Instr} (h : s.agenda = .event i :: rest) :
    step s = exec i { s with agenda := rest, issuer := none } := by
  unfold step State.nextTurn
  rw [h]

theorem step_ring {s : State} {rest : List Turn} (h : s.agenda = .ring :: rest) :
    step s = ({ s with agenda := rest } : State).ringTurn.outcome := by
  unfold step State.nextTurn
  rw [h]

theorem step_issue {s : State} {rest : List Turn} {core wid : Nat} (h : s.agenda = .issue core wid :: rest) :
    step s = (({ s with agenda := rest } : State).coreTurn core wid).outcome := by
  unfold step State.nextTurn
  rw [h]

/-- The turn of the ring runs the command that it decodes. -/
theorem State.ringTurn_run {s : State} {c : Command} {i : Instr} (hc : s.ringCommand = some c) (hi : Decode.command c = some i) :
    s.ringTurn = .run i { s with issuer := none } := by
  unfold State.ringTurn
  rw [hc]
  dsimp only
  rw [hi]

/-- A command of an unknown code ends with STATUS 2 once the device runs. -/
theorem State.ringTurn_unknown {s : State} {c : Command} (hc : s.ringCommand = some c) (hi : Decode.command c = none)
    (hb : s.mgmt.boot = 3) : s.ringTurn = .rest (s.finishCommand (commandTag c) 2 0 0) := by
  unfold State.ringTurn
  rw [hc]
  dsimp only
  rw [hi]
  dsimp only
  rw [if_pos hb]

/-- Settles O5. -/
theorem stepRunsOtherTurns : Obligations.StepRunsOtherTurns := by
  refine ⟨fun s rest i h => step_event h, fun s rest c h hc => ⟨fun i hi => ?_, fun hi hb => ?_⟩⟩
  · rw [step_ring h, State.ringTurn_run (s := { s with agenda := rest }) hc hi]
    rfl
  · rw [step_ring h, State.ringTurn_unknown (s := { s with agenda := rest }) hc hi hb]
    rfl

/-- A warp whose word is fetched, without a pending fault and with its threads in regions, runs the decoded word. -/
theorem State.turnWarp_run {s u : State} {t : Task} {core : Nat} {r : WarpRef} {w : Warp} {pc : W64} {x : InstrWord}
    (hc : w.pendingCause = none) (hpc : w.lowestPc = some pc) (hu : w.unentered = []) (hw : s.nextWord t core w pc = (.word x, u)) :
    s.turnWarp t core r w
      = .run (decodeWord x) { (u.modWarp r.task r.warp .fetched).traceIssue core r w pc with issuer := some r } := by
  simp [State.turnWarp, hc, hpc, hw, hu]

/-- Settles O4: the turn of a warp, its checks passed one after the other. -/
theorem stepRunsDecodedWord : Obligations.StepRunsDecodedWord := by
  intro s u rest core wid r t w w' pc x s₀ s₁ ha hr ht hw hi hm hw' hc hpc hu hn
  have turn : s₀.coreTurn core wid
      = s₀.keepingTurn (.run (decodeWord x) { (u.modWarp r.task r.warp .fetched).traceIssue core r w' pc with issuer := some r }) := by
    unfold State.coreTurn
    rw [hr]
    dsimp only
    rw [ht, hw]
    dsimp only
    rw [if_pos hi]
    show s₀.keepingTurn (match (if (s₁.ctx t.ctx).moving then s₁.halt r.task r.warp else s₁).warp? r.task r.warp with
      | some w => (if (s₁.ctx t.ctx).moving then s₁.halt r.task r.warp else s₁).turnWarp t core r w
      | none => .rest (if (s₁.ctx t.ctx).moving then s₁.halt r.task r.warp else s₁)) = _
    rw [if_neg (by simp [hm]), hw']
    dsimp only
    rw [State.turnWarp_run hc hpc hu hn]
  rw [step_issue ha]
  show (s₀.coreTurn core wid).outcome = _
  rw [turn]
  rfl

end Sys2Proof.Machine

/-!
PROOFS. O60: what taking a fault leaves unchanged (R79, R352, R355).
-/

namespace Sys2Proof.Machine

open Sys2Proof

/-! ## What a state holds beside its warps' threads -/

/-- A task keeps its scratchpad, its tiles, its descriptors, its code tables and its guards. -/
structure Task.SameStore (y x : Task) : Prop where
  scratch : y.scratch = x.scratch
  tileMem : y.tileMem = x.tileMem
  td : y.td = x.td
  ctSlots : y.ctSlots = x.ctSlots
  gd : y.gd = x.gd

theorem Task.SameStore.refl (x : Task) : x.SameStore x := ⟨rfl, rfl, rfl, rfl, rfl⟩

theorem Task.SameStore.trans {x y z : Task} (h : z.SameStore y) (k : y.SameStore x) : z.SameStore x :=
  ⟨h.scratch.trans k.scratch, h.tileMem.trans k.tileMem, h.td.trans k.td, h.ctSlots.trans k.ctSlots, h.gd.trans k.gd⟩

/-- Two states hold the same outside the registers of their warps; the vaults while no core traces. -/
structure State.SameOutside (s t : State) : Prop where
  management : SameManagement s t
  host : t.host = s.host
  mem : t.mem = s.mem
  owners : t.owners = s.owners
  words : ∀ c pa, (t.core c).word? pa = (s.core c).word? pa
  traceOn : ∀ c, (t.core c).dbg.traceOn = (s.core c).dbg.traceOn
  vault : (∀ c, (s.core c).dbg.traceOn = false) → t.vault = s.vault
  task : ∀ {task x}, s.task? task = some x → ∃ y, t.task? task = some y ∧ y.SameStore x

theorem SameManagement.refl (s : State) : SameManagement s s := ⟨rfl, rfl, rfl, rfl, rfl⟩

theorem SameManagement.trans {s t u : State} (h : SameManagement s t) (k : SameManagement t u) : SameManagement s u :=
  ⟨k.mgmt.trans h.mgmt, k.routes.trans h.routes, k.exports.trans h.exports, k.rwin.trans h.rwin, k.rwrng.trans h.rwrng⟩

namespace State.SameOutside

variable {s t u : State}

theorem of_cores (m : SameManagement s t) (host : t.host = s.host) (mem : t.mem = s.mem) (owners : t.owners = s.owners)
    (cores : t.cores = s.cores) (vault : t.vault = s.vault) (tasks : t.tasks = s.tasks) : s.SameOutside t where
  management := m
  host := host
  mem := mem
  owners := owners
  words c pa := by simp only [State.core, cores]
  traceOn c := by simp only [State.core, cores]
  vault _ := vault
  task {_ x} h := ⟨x, by simpa only [State.task?, tasks] using h, .refl x⟩

theorem refl (s : State) : s.SameOutside s := of_cores (.refl s) rfl rfl rfl rfl rfl rfl

theorem trans (h : s.SameOutside t) (k : t.SameOutside u) : s.SameOutside u where
  management := h.management.trans k.management
  host := k.host.trans h.host
  mem := k.mem.trans h.mem
  owners := k.owners.trans h.owners
  words c pa := (k.words c pa).trans (h.words c pa)
  traceOn c := (k.traceOn c).trans (h.traceOn c)
  vault off := (k.vault fun c => (h.traceOn c).trans (off c)).trans (h.vault off)
  task e := by
    obtain ⟨y, hy, yx⟩ := h.task e
    obtain ⟨z, hz, zy⟩ := k.task hy
    exact ⟨z, hz, zy.trans yx⟩

theorem homeByte (h : s.SameOutside t) (a : Nat) : t.homeByte a = s.homeByte a := by
  simp only [State.homeByte, State.ownerOf, h.mem, h.owners, h.words]

theorem modCore (s : State) (c : Nat) {f : Core → Core} (hw : ∀ k pa, (f k).word? pa = k.word? pa)
    (ht : ∀ k, (f k).dbg.traceOn = k.dbg.traceOn) : s.SameOutside (s.modCore c f) where
  management := ⟨rfl, rfl, rfl, rfl, rfl⟩
  host := rfl
  mem := rfl
  owners := rfl
  words d pa := State.core_modCore_keeps (·.word? pa) s c (fun k => hw k pa) d
  traceOn d := State.core_modCore_keeps (·.dbg.traceOn) s c ht d
  vault _ := rfl
  task {_ x} h := ⟨x, h, .refl x⟩

theorem modTask (s : State) (a : Nat) {f : Task → Task} (hid : ∀ t, (f t).id = t.id) (hf : ∀ t, (f t).SameStore t) :
    s.SameOutside (s.modTask a f) where
  management := ⟨rfl, rfl, rfl, rfl, rfl⟩
  host := rfl
  mem := rfl
  owners := rfl
  words _ _ := rfl
  traceOn _ := rfl
  vault _ := rfl
  task {task x} h := by
    refine ⟨_, by rw [State.task?_modTask s a hid, h]; rfl, ?_⟩
    dsimp only
    split
    · exact hf x
    · exact .refl x

theorem modWarp (s : State) (a b : Nat) (f : Warp → Warp) : s.SameOutside (s.modWarp a b f) := by
  refine modTask s a ?_ ?_
  · exact fun _ => rfl
  · exact fun _ => ⟨rfl, rfl, rfl, rfl, rfl⟩

end State.SameOutside

/-! ## What a warp holds -/

/-- A warp holds the registers, predicates, flags, PCs and stochastic states of another. -/
structure Warp.HoldsAs (z w : Warp) : Prop where
  s : z.s = w.s
  q : z.q = w.q
  flags : z.flags = w.flags
  g : ∀ i, (z.thread i).g = (w.thread i).g
  p : ∀ i, (z.thread i).p = (w.thread i).p
  pc : ∀ i, (z.thread i).pc = (w.thread i).pc
  seed : ∀ i, (z.thread i).seed = (w.thread i).seed

theorem Warp.HoldsAs.of_fields {z w : Warp} (ht : z.threads = w.threads) (hs : z.s = w.s) (hq : z.q = w.q) (hf : z.flags = w.flags) :
    z.HoldsAs w := by
  have thread (i : Tid) : z.thread i = w.thread i := by simp only [Warp.thread, ht]
  exact ⟨hs, hq, hf, fun i => by rw [thread], fun i => by rw [thread], fun i => by rw [thread], fun i => by rw [thread]⟩

theorem Warp.HoldsAs.refl (w : Warp) : w.HoldsAs w := .of_fields rfl rfl rfl rfl

theorem Warp.HoldsAs.trans {x y z : Warp} (h : z.HoldsAs y) (k : y.HoldsAs x) : z.HoldsAs x :=
  ⟨h.s.trans k.s, h.q.trans k.q, h.flags.trans k.flags, fun i => (h.g i).trans (k.g i), fun i => (h.p i).trans (k.p i),
    fun i => (h.pc i).trans (k.pc i), fun i => (h.seed i).trans (k.seed i)⟩

theorem Warp.HoldsAs.with_st {z w : Warp} (h : z.HoldsAs w) (st : WarpState) : ({ z with st := st } : Warp).HoldsAs w :=
  .trans (y := z) (.of_fields rfl rfl rfl rfl) h

/-- What each change of one thread leaves in every thread, a change of threads leaves. -/
theorem Warp.modThreads_keeps {α : Type} (g : Thread → α) (w : Warp) (ts : List Tid) {f : Thread → Thread} (h : ∀ th, g (f th) = g th)
    (i : Tid) : g ((w.modThreads ts f).thread i) = g (w.thread i) :=
  foldl_keeps (fun z => g (z.thread i)) (fun z t => by
    rw [Warp.thread_modThread]
    split
    · exact h _
    · rfl) w ts

/-- What a change of threads leaves of the warp itself. -/
theorem Warp.modThreads_warp {α : Type} (g : Warp → α) (w : Warp) (ts : List Tid) (f : Thread → Thread)
    (h : ∀ w t, g (w.modThread t f) = g w) : g (w.modThreads ts f) = g w :=
  foldl_keeps g h w ts

theorem Warp.loseLatches_holdsAs (w : Warp) : w.loseLatches.HoldsAs w where
  s := Warp.modThreads_warp (·.s) w _ _ fun _ _ => rfl
  q := Warp.modThreads_warp (·.q) w _ _ fun _ _ => rfl
  flags := Warp.modThreads_warp (·.flags) w _ _ fun _ _ => rfl
  g := Warp.modThreads_keeps (·.g) w _ fun _ => rfl
  p := Warp.modThreads_keeps (·.p) w _ fun _ => rfl
  pc := Warp.modThreads_keeps (·.pc) w _ fun _ => rfl
  seed := Warp.modThreads_keeps (·.seed) w _ fun _ => rfl

/-! ## Changes that disturb no warp -/

/-- A change of state that leaves what is outside the warps, and what every warp holds but its latches. -/
structure State.Undisturbed (s t : State) : Prop extends State.SameOutside s t where
  warp : ∀ {task warp w}, s.warp? task warp = some w → ∃ z, t.warp? task warp = some z ∧ z.HoldsAs w

namespace State.Undisturbed

variable {s t u : State}

theorem of_tasks (h : s.SameOutside t) (k : t.tasks = s.tasks) : s.Undisturbed t :=
  ⟨h, fun {_ _ w} e => ⟨w, by simpa only [State.warp?, State.task?, k] using e, .refl w⟩⟩

theorem refl (s : State) : s.Undisturbed s := .of_tasks (.refl s) rfl

theorem trans (h : s.Undisturbed t) (k : t.Undisturbed u) : s.Undisturbed u :=
  ⟨h.toSameOutside.trans k.toSameOutside, fun e => by
    obtain ⟨y, hy, yx⟩ := h.warp e
    obtain ⟨z, hz, zy⟩ := k.warp hy
    exact ⟨z, hz, zy.trans yx⟩⟩

theorem foldl {α : Type} {f : State → α → State} (hf : ∀ (s : State) a, s.Undisturbed (f s a)) (s : State) (l : List α) :
    s.Undisturbed (l.foldl f s) :=
  List.foldlRecOn l f (motive := s.Undisturbed) (.refl s) fun s' h a _ => h.trans (hf s' a)

theorem modCore (s : State) (c : Nat) {f : Core → Core} (hw : ∀ k pa, (f k).word? pa = k.word? pa)
    (ht : ∀ k, (f k).dbg.traceOn = k.dbg.traceOn) : s.Undisturbed (s.modCore c f) :=
  .of_tasks (.modCore s c hw ht) rfl

theorem modTask (s : State) (a : Nat) {f : Task → Task} (hid : ∀ t, (f t).id = t.id) (hf : ∀ t, (f t).SameStore t)
    (hw : ∀ t, (f t).warps = t.warps) : s.Undisturbed (s.modTask a f) := by
  refine ⟨.modTask s a hid hf, fun {task warp w} h => ⟨w, ?_, .refl w⟩⟩
  obtain ⟨x, hx, xw⟩ := Option.bind_eq_some_iff.1 h
  rw [State.warp?, State.task?_modTask s a hid, hx]
  by_cases e : x.id = a <;> simp [e, hw, xw]

theorem modWarp (s : State) (a b : Nat) {f : Warp → Warp} (hf : ∀ w, (f w).HoldsAs w) : s.Undisturbed (s.modWarp a b f) := by
  refine ⟨.modWarp s a b f, fun {task warp w} h => ⟨_, by rw [State.warp?_modWarp, h]; rfl, ?_⟩⟩
  dsimp only
  split
  · exact hf w
  · exact .refl w

theorem withdrawWaits (s : State) (task warp : Nat) : s.Undisturbed (s.withdrawWaits task warp) := by
  have ended : s.Undisturbed (s.endAppends task warp) := by
    unfold State.endAppends
    split
    · exact .refl s
    · exact .of_tasks (.of_cores ⟨rfl, rfl, rfl, rfl, rfl⟩ rfl rfl rfl rfl rfl rfl) rfl
  have told (s : State) (o : Outstanding) : s.Undisturbed (match s.routeTo o.peer with
      | some port => s.sendOn port 0 (.withdraw o.peer o.tag)
      | none => s) := by
    split
    · exact .of_tasks (.of_cores ⟨rfl, rfl, rfl, rfl, rfl⟩ rfl rfl rfl rfl rfl rfl) rfl
    · exact .refl s
  have gone (s : State) (o : List Outstanding) : s.Undisturbed { s with outstanding := o } :=
    .of_tasks (.of_cores ⟨rfl, rfl, rfl, rfl, rfl⟩ rfl rfl rfl rfl rfl rfl) rfl
  have withdrawn (s : State) (p : Asker → Nat → Bool) : s.Undisturbed (s.withdrawRemote p) := (gone s _).trans (foldl told _ _)
  exact (ended.trans (withdrawn _ _)).trans (.of_tasks (.of_cores ⟨rfl, rfl, rfl, rfl, rfl⟩ rfl rfl rfl rfl rfl rfl) rfl)

theorem dropTurns (s : State) (task warp : Nat) : s.Undisturbed (s.dropTurns task warp) := by
  unfold State.dropTurns
  refine .trans (.modCore s _ ?_ ?_) (.foldl (fun s o => ?_) _ _)
  · exact fun _ _ => rfl
  · exact fun _ => rfl
  · split
    · split
      · refine .trans (.modTask s task ?_ ?_ ?_) (.modCore _ _ ?_ ?_)
        · exact fun _ => rfl
        · exact fun _ => ⟨rfl, rfl, rfl, rfl, rfl⟩
        · exact fun _ => rfl
        · exact fun _ _ => rfl
        · exact fun _ => rfl
      · exact .refl s
    · exact .refl s

theorem keepCached (s : State) (x : Trap) : s.Undisturbed (s.keepCached x) := by
  unfold State.keepCached
  split
  · exact .of_tasks (.of_cores ⟨rfl, rfl, rfl, rfl, rfl⟩ rfl rfl rfl rfl rfl rfl) rfl
  · exact .refl s

/-- A frame of a core that traces goes to the vaults. -/
theorem putFrame (s : State) {core : Nat} (on : (s.core core).dbg.traceOn = true) (wid tag : Nat) (body : List Byte) :
    s.Undisturbed (s.putFrame core wid tag body) := by
  unfold State.putFrame
  refine .trans (t := { s with vault := _ }) ?_ (.modCore _ core (fun _ _ => rfl) fun _ => rfl)
  refine .of_tasks ⟨⟨rfl, rfl, rfl, rfl, rfl⟩, rfl, rfl, rfl, fun _ _ => rfl, fun _ => rfl, fun off => ?_, fun {_ x} h => ⟨x, h, .refl x⟩⟩ rfl
  exact absurd (on.symm.trans (off core)) nofun

theorem traceOn_of_tracer {task warp core : Nat} (h : s.tracer task warp = some core) : (s.core core).dbg.traceOn = true := by
  obtain ⟨t, -, h⟩ := Option.bind_eq_some_iff.1 h
  obtain ⟨c, -, h⟩ := Option.bind_eq_some_iff.1 h
  dsimp only at h
  split at h
  · next on =>
    simp only [Bool.and_eq_true] at on
    cases h
    exact on.1.1
  · simp at h

theorem traceFrame (s : State) (task warp tag : Nat) (body : List Byte) : s.Undisturbed (s.traceFrame task warp tag body) := by
  unfold State.traceFrame
  split
  · next core t hc ht =>
    have on := traceOn_of_tracer hc
    split
    · exact .refl s
    · next w hw =>
      split
      · exact .modCore s core (fun _ _ => rfl) fun _ => rfl
      · dsimp only
        split
        · have synced := putFrame s on w.id 1 (s.syncBody t warp w)
          exact synced.trans (putFrame _ ((synced.traceOn core).trans on) ..)
        · exact putFrame s on ..
  · exact .refl s

theorem freeze (s : State) : s.Undisturbed s.freeze := by
  unfold State.freeze
  split
  · exact .refl s
  · have traced : s.Undisturbed (s.traceAll 7) := foldl (fun s₁ _ => foldl (fun s₂ _ => traceFrame s₂ ..) s₁ _) s _
    exact traced.trans (.of_tasks (.of_cores ⟨rfl, rfl, rfl, rfl, rfl⟩ rfl rfl rfl rfl rfl rfl) rfl)

theorem select (s : State) (core lane : Nat) (r : WarpRef) (slot : Nat) : s.Undisturbed (s.select core lane r slot) := by
  have rested : s.Undisturbed (s.restLane core lane) := by
    refine .foldl (fun s p => ?_) s _
    split
    · exact .modWarp s _ _ fun w => w.loseLatches_holdsAs.with_st .ready
    · exact .refl s
  refine (rested.trans (.modWarp _ r.task r.warp ?_)).trans (.modCore _ core (fun _ _ => rfl) fun _ => rfl)
  exact fun _ => .of_fields rfl rfl rfl rfl

theorem switchPoint (s : State) (task warp : Nat) : s.Undisturbed (s.switchPoint task warp) := by
  unfold State.switchPoint
  split
  · exact .refl s
  split
  · split
    · exact .refl s
    split
    · exact .refl s
    · refine (Undisturbed.modWarp s task warp fun w => ?_).trans (select ..)
      split
      · exact w.loseLatches_holdsAs.with_st .ready
      · exact .refl w
  · exact .refl s

theorem queueRecord (s : State) (ctx : Nat) (r : FaultRec) : s.Undisturbed (s.queueRecord ctx r) :=
  .of_tasks (.of_cores ⟨rfl, rfl, rfl, rfl, rfl⟩ rfl rfl rfl rfl rfl rfl) rfl

/-- TAKING A FAULT changes no data outside the latches of the warps. -/
theorem takeFault (s : State) (task warp : Nat) (pc : W64) (x : Trap) : s.Undisturbed (s.takeFault task warp pc x) := by
  unfold State.takeFault
  refine (keepCached s x).trans ?_
  dsimp only
  split
  · exact .refl _
  split
  · exact .refl _
  have frozen (b : Bool) (s : State) : s.Undisturbed (if b then s.freeze else s) := by
    cases b
    · exact .refl s
    · exact freeze s
  refine .trans (.trans (.trans (.trans (.trans (.trans (.modWarp _ task warp ?_) (withdrawWaits ..)) (dropTurns ..)) (queueRecord ..))
    (traceFrame ..)) (frozen ..)) (switchPoint ..)
  exact fun _ => .of_fields rfl rfl rfl rfl

end State.Undisturbed

end Sys2Proof.Machine

/-!
PROOFS. O60: the warp that a fault suspends, and its record (R79, R352).
-/

namespace Sys2Proof.Machine

open Sys2Proof

/-! ## The warps of a state -/

/-- The warps of a state, with the numbers of their tasks. -/
def State.crews (s : State) : List (Nat × List Warp) := s.tasks.map fun t => (t.id, t.warps)

theorem State.warp?_eq_crews (s : State) (task warp : Nat) :
    s.warp? task warp = (s.crews.find? fun x => x.1 == task).bind fun x => x.2[warp]? := by
  simp only [State.warp?, State.task?, State.crews, List.find?_map, Option.bind_map]
  rfl

theorem State.warp?_of_crews {s t : State} (h : t.crews = s.crews) (task warp : Nat) : t.warp? task warp = s.warp? task warp := by
  rw [State.warp?_eq_crews, State.warp?_eq_crews, h]

theorem State.crews_of_tasks {s t : State} (h : t.tasks = s.tasks) : t.crews = s.crews := by
  simp only [State.crews, h]

/-- A change of a task that leaves its number and its warps. -/
theorem State.crews_modTask (s : State) (a : Nat) {f : Task → Task} (h : ∀ t, ((f t).id, (f t).warps) = (t.id, t.warps)) :
    (s.modTask a f).crews = s.crews := by
  simp only [State.crews, State.modTask, List.map_map]
  refine List.map_congr_left fun t _ => ?_
  dsimp only [Function.comp_apply]
  split
  · exact h t
  · rfl

theorem State.crews_dropTurns (s : State) (task warp : Nat) : (s.dropTurns task warp).crews = s.crews := by
  unfold State.dropTurns
  refine foldl_keeps State.crews (fun s o => ?_) _ _
  split
  · split
    · refine State.crews_modTask s task ?_
      exact fun _ => rfl
    · rfl
  · rfl

/-! ## A suspended warp at a switch point (R73) -/

/-- Every warp of a number is Suspended. -/
def State.Halted (s : State) (r : WarpRef) : Prop :=
  ∀ x ∈ s.crews, x.1 = r.task → ∀ w, x.2[r.warp]? = some w → w.st = .suspended

variable {s t : State} {r : WarpRef}

theorem State.Halted.of_crews (h : s.Halted r) (k : t.crews = s.crews) : t.Halted r := fun x hx => h x (k ▸ hx)

theorem State.halted_modWarp (s : State) (r : WarpRef) {f : Warp → Warp} (h : ∀ w, (f w).st = .suspended) :
    (s.modWarp r.task r.warp f).Halted r := by
  intro x hx hr w hw
  simp only [State.crews, State.modWarp, State.modTask, List.map_map, List.mem_map, Function.comp_apply] at hx
  obtain ⟨t, -, rfl⟩ := hx
  by_cases e : t.id = r.task
  · rw [if_pos e] at hw
    obtain ⟨y, -, rfl⟩ : ∃ y, t.warps[r.warp]? = some y ∧ f y = w := by simpa using hw
    exact h y
  · rw [if_neg e] at hr
    exact absurd hr e

/-- A change of a Suspended warp that leaves Suspended warps changes nothing. -/
theorem State.Halted.crews_modWarp (h : s.Halted r) {f : Warp → Warp} (hf : ∀ w, w.st = .suspended → f w = w) :
    (s.modWarp r.task r.warp f).crews = s.crews := by
  simp only [State.crews, State.modWarp, State.modTask, List.map_map]
  refine List.map_congr_left fun t ht => ?_
  dsimp only [Function.comp_apply]
  split
  · next e =>
    refine congrArg (Prod.mk t.id) (List.ext_getElem? fun i => ?_)
    rw [List.getElem?_modify]
    split
    · next i_eq =>
      subst i_eq
      cases hw : t.warps[r.warp]? with
      | none => rfl
      | some w =>
        exact congrArg some (hf w (h (t.id, t.warps) (List.mem_map.2 ⟨t, ht, rfl⟩) e w hw))
    · simp
  · rfl

/-- The lanes name a Suspended warp as Suspended. -/
theorem State.Halted.laneWarps (h : s.Halted r) {core lane : Nat} {p : WarpRef × Nat × WarpState} (hp : p ∈ s.laneWarps core lane)
    (e : p.1 = r) : p.2.2 = .suspended := by
  subst e
  simp only [State.laneWarps, List.mem_flatMap, List.mem_map, List.mem_filter] at hp
  obtain ⟨t, ⟨ht, -⟩, ⟨w, i⟩, ⟨hw, -⟩, rfl⟩ := hp
  exact h (t.id, t.warps) (List.mem_map.2 ⟨t, ht, rfl⟩) rfl w (List.mem_zipIdx_iff_getElem?.1 hw)

theorem State.warp?_modWarp_other (s : State) {a r : WarpRef} (h : a ≠ r) (f : Warp → Warp) :
    (s.modWarp a.task a.warp f).warp? r.task r.warp = s.warp? r.task r.warp := by
  have other : ¬(a.task = r.task ∧ a.warp = r.warp) := fun e => h (WarpRef.mk.injEq .. ▸ e)
  simp [State.warp?_modWarp, other]

/-- A lane that runs another warp leaves a Suspended one as it is. -/
theorem State.Halted.warp?_select (h : s.Halted r) {core lane slot : Nat} {a : WarpRef} (ha : a ≠ r) :
    (s.select core lane a slot).warp? r.task r.warp = s.warp? r.task r.warp := by
  have rested : (s.restLane core lane).warp? r.task r.warp = s.warp? r.task r.warp := by
    refine List.foldlRecOn _ _ (motive := fun t : State => t.warp? r.task r.warp = s.warp? r.task r.warp) rfl fun t e p hp => ?_
    split
    · next running =>
      refine (State.warp?_modWarp_other t (fun e => ?_) _).trans e
      exact absurd (running.symm.trans (h.laneWarps hp e)) nofun
    · exact e
  exact (State.warp?_modWarp_other _ ha _).trans rested

/-- A Suspended warp is not the next ready one. -/
theorem State.Halted.nextReady (h : s.Halted r) {core lane after slot : Nat} {a : WarpRef}
    (e : s.nextReady core lane after = some (a, slot)) : a ≠ r := by
  rintro rfl
  obtain ⟨k, -, hk⟩ := List.exists_of_findSome?_eq_some e
  obtain ⟨p, hp, hpr⟩ := Option.map_eq_some_iff.1 hk
  have found := List.mem_of_find?_eq_some hp
  rw [List.mem_filter] at found
  obtain ⟨inLane, ready⟩ := found
  have halted := h.laneWarps inLane (congrArg Prod.fst hpr)
  simp [halted] at ready

/-- A switch point leaves a Suspended warp as it is. -/
theorem State.Halted.warp?_switchPoint (h : s.Halted r) :
    (s.switchPoint r.task r.warp).warp? r.task r.warp = s.warp? r.task r.warp := by
  unfold State.switchPoint
  split
  · rfl
  split
  · split
    · rfl
    split
    · rfl
    · next next =>
      have same := h.crews_modWarp (f := fun w => if w.st = .running then { w.loseLatches with st := .ready } else w)
        fun w e => if_neg (by simp [e])
      exact ((h.of_crews same).warp?_select (h.nextReady next)).trans (State.warp?_of_crews same ..)
  · rfl

/-! ## Fault taking writes no context but for the record -/

theorem State.contexts_dropTurns (s : State) (task warp : Nat) : (s.dropTurns task warp).contexts = s.contexts := by
  unfold State.dropTurns
  refine foldl_keeps State.contexts (fun s o => ?_) _ _
  split
  · split <;> rfl
  · rfl

theorem State.contexts_withdrawWaits (s : State) (task warp : Nat) : (s.withdrawWaits task warp).contexts = s.contexts := by
  refine (State.Spares.withdrawRemote (s.endAppends task warp) _).contexts.trans ?_
  unfold State.endAppends
  split <;> rfl

theorem State.contexts_traceFrame (s : State) (task warp tag : Nat) (body : List Byte) :
    (s.traceFrame task warp tag body).contexts = s.contexts := by
  have put (s : State) (core wid tag : Nat) (body : List Byte) : (s.putFrame core wid tag body).contexts = s.contexts := rfl
  unfold State.traceFrame
  split
  · split
    · rfl
    · split
      · rfl
      · dsimp only
        rw [put]
        split
        · exact put ..
        · rfl
  · rfl

theorem State.contexts_switchPoint (s : State) (task warp : Nat) : (s.switchPoint task warp).contexts = s.contexts := by
  have rested (s : State) (core lane : Nat) : (s.restLane core lane).contexts = s.contexts := by
    refine foldl_keeps State.contexts (fun s p => ?_) s _
    split <;> rfl
  have selected (s : State) (core lane : Nat) (r : WarpRef) (slot : Nat) : (s.select core lane r slot).contexts = s.contexts :=
    rested s core lane
  unfold State.switchPoint
  split
  · rfl
  split
  · split
    · rfl
    split
    · rfl
    · exact (selected ..).trans rfl
  · rfl

theorem State.ctx_of_contexts (h : t.contexts = s.contexts) (c : Nat) : t.ctx c = s.ctx c := by
  simp only [State.ctx, h]

/-! ## The fault (R79, R352, R355) -/

section
variable {task warp : Nat} {x : Trap} {k : Task} {w : Warp} (pc : W64)

/-- The state in which the record of a fault is queued: its warp is suspended, and its waits and turns are gone. -/
def State.haltedBy (s : State) (task warp : Nat) (y : Suspension) : State :=
  ((s.modWarp task warp fun w => w.suspended y).withdrawWaits task warp).dropTurns task warp

/-- A fault that is no debug cause: the warp stops, its record waits in its context, a frame is written, and the lane may switch. -/
theorem State.takeFault_eq (ht : s.task? task = some k) (hw : k.warps[warp]? = some w) (hd : x.cause.isDebug = false) :
    s.takeFault task warp pc x = ((((s.keepCached x).haltedBy task warp (w.suspensionOf x)).queueRecord k.ctx
      ((s.keepCached x).warpRecord k warp w pc x)).traceFrame task warp 5
        (BitVec.ofNat 8 x.cause.code :: (List.replicate 7 0 ++ toBytes 8 pc.toNat ++ toBytes 2 x.mask.toNat))).switchPoint task warp := by
  have kept : (s.keepCached x).task? task = some k := by simpa only [State.task?, State.keepCached_tasks] using ht
  unfold State.takeFault
  simp only [kept, hw, hd]
  rfl

theorem State.crews_haltedBy (s : State) (y : Suspension) :
    (s.haltedBy task warp y).crews = (s.modWarp task warp fun w => w.suspended y).crews :=
  (State.crews_dropTurns ..).trans (State.crews_of_tasks (State.withdrawWaits_tasks ..))

theorem State.contexts_haltedBy (s : State) (y : Suspension) : (s.haltedBy task warp y).contexts = s.contexts :=
  (State.contexts_dropTurns ..).trans (State.contexts_withdrawWaits ..)

/-- The warp of a fault is suspended as it stands. -/
theorem State.takeFault_warp? (ht : s.task? task = some k) (hw : k.warps[warp]? = some w) (hd : x.cause.isDebug = false) :
    (s.takeFault task warp pc x).warp? task warp = some (w.suspended (w.suspensionOf x)) := by
  rw [State.takeFault_eq pc ht hw hd]
  have crews (r : FaultRec) (body : List Byte) :
      ((((s.keepCached x).haltedBy task warp (w.suspensionOf x)).queueRecord k.ctx r).traceFrame task warp 5 body).crews =
        ((s.keepCached x).modWarp task warp fun z => z.suspended (w.suspensionOf x)).crews := by
    refine (State.crews_of_tasks (State.traceFrame_tasks ..)).trans (Eq.trans ?_ (State.crews_haltedBy _ _))
    rfl
  have halted := State.halted_modWarp (s.keepCached x) ⟨task, warp⟩ (f := fun z => z.suspended (w.suspensionOf x)) fun _ => rfl
  refine ((halted.of_crews (crews _ _)).warp?_switchPoint).trans ?_
  have kept : (s.keepCached x).warp? task warp = some w := by
    simp only [State.warp?, State.task?, State.keepCached_tasks] at ht ⊢
    simp [ht, hw]
  rw [State.warp?_of_crews (crews _ _), State.warp?_modWarp, kept]
  simp

/-- The record of a fault joins those that wait in its context. -/
theorem State.takeFault_pend (ht : s.task? task = some k) (hw : k.warps[warp]? = some w) (hc : k.ctx < 64) (hd : x.cause.isDebug = false) :
    ((s.takeFault task warp pc x).ctx k.ctx).pend = (s.ctx k.ctx).pend ++ [(s.keepCached x).warpRecord k warp w pc x] := by
  have kept : (s.keepCached x).contexts = s.contexts := by
    unfold State.keepCached
    split <;> rfl
  rw [State.takeFault_eq pc ht hw hd, State.ctx_of_contexts (State.contexts_switchPoint ..),
    State.ctx_of_contexts (State.contexts_traceFrame ..), State.queueRecord, State.ctx_modCtx_same _ _ hc,
    State.ctx_of_contexts ((State.contexts_haltedBy ..).trans kept)]

end

/-- Settles O60. -/
theorem faultsSuspendTheirWarp : Obligations.FaultsSuspendTheirWarp := by
  intro s task warp pc x k w ht hw hc hd u
  have spared := State.Undisturbed.takeFault s task warp pc x
  exact ⟨⟨_, State.takeFault_warp? pc ht hw hd, rfl, rfl, rfl, rfl, rfl, rfl, rfl, rfl⟩,
    ⟨_, State.takeFault_pend pc ht hw hc hd, rfl, rfl, rfl, rfl, rfl, rfl⟩, spared.management, spared.homeByte⟩

end Sys2Proof.Machine

/-!
PROOFS. O59: what the instructions that compute leave unchanged (R28 to R30, R56, R76, R98).
-/

namespace Sys2Proof.Machine

open Sys2Proof

/-! ## One element of a file, one predicate of a predicate file -/

theorem vget_vset_other {α : Type} {n i j : Nat} (v : Vector α n) (x d : α) (h : i ≠ j) : vget (vset v i x) j d = vget v j d := by
  simp [vget, vset, List.getD, List.getElem?_set_ne h]

theorem getLsbD_setPred_other (p : BitVec 8) {i n : Nat} (b : Bool) (h : i ≠ n) : (setPred p i b).getLsbD n = p.getLsbD n := by
  by_cases lt : n < 8
  · have away : n < i ∨ n - i ≠ 0 := by omega
    cases b
    · simp [setPred, lt, away]
    · simp [setPred, lt]
      omega
  · rw [BitVec.getLsbD_of_ge _ _ (Nat.le_of_not_lt lt), BitVec.getLsbD_of_ge _ _ (Nat.le_of_not_lt lt)]

/-! ## What an instruction may write in its warp -/

/-- The registers, predicates and latches that an instruction may write, and the threads for which it may. -/
structure Scope where
  s : Nat → Prop
  q : Nat → Prop
  g : Nat → Prop
  p : Nat → Prop
  k : Nat → Prop
  tids : Tid → Prop

variable {S : Scope}

/-- A thread is changed within a scope. -/
structure Thread.Within (S : Scope) (x y : Thread) : Prop where
  g : ∀ n, ¬S.g n → vget y.g n 0 = vget x.g n 0
  p : ∀ n, ¬S.p n → y.p.getLsbD n = x.p.getLsbD n
  k : ∀ n, ¬S.k n → vget y.k n .cleared = vget x.k n .cleared

namespace Thread.Within

theorem of_fields {x y : Thread} (hg : y.g = x.g) (hp : y.p = x.p) (hk : y.k = x.k) : Thread.Within S x y :=
  ⟨fun _ _ => by rw [hg], fun _ _ => by rw [hp], fun _ _ => by rw [hk]⟩

theorem refl (x : Thread) : Thread.Within S x x := .of_fields rfl rfl rfl

theorem trans {x y z : Thread} (h : Thread.Within S x y) (k : Thread.Within S y z) : Thread.Within S x z :=
  ⟨fun n o => (k.g n o).trans (h.g n o), fun n o => (k.p n o).trans (h.p n o), fun n o => (k.k n o).trans (h.k n o)⟩

theorem setG (x : Thread) {n : Nat} (v : W32) (h : S.g n) : Thread.Within S x (x.setG n v) :=
  ⟨fun _ o => vget_vset_other _ _ _ fun e => o (e ▸ h), fun _ _ => rfl, fun _ _ => rfl⟩

theorem setP (x : Thread) {n : Nat} (b : Bool) (h : S.p n) : Thread.Within S x (x.setP n b) :=
  ⟨fun _ _ => rfl, fun _ o => getLsbD_setPred_other _ _ fun e => o (e ▸ h), fun _ _ => rfl⟩

theorem setK (x : Thread) {n : Nat} (v : W64) (h : S.k n) : Thread.Within S x (x.setK n v) :=
  ⟨fun _ _ => rfl, fun _ _ => rfl, fun _ o => vget_vset_other _ _ _ fun e => o (e ▸ h)⟩

theorem writeG (x : Thread) {n : Nat} (wd : Width) (v : W64) (h : S.g n) (h' : wd ≠ .w32 → S.g (n + 1)) :
    Thread.Within S x (x.writeG n wd v) := by
  cases wd with
  | w32 => exact setG x _ h
  | w64 => exact (setG x _ h).trans (setG _ _ (h' nofun))
  | w128 => exact (setG x _ h).trans (setG _ _ (h' nofun))

end Thread.Within

/-- A warp is changed within a scope. -/
structure Warp.Within (S : Scope) (w z : Warp) : Prop where
  flags : z.flags = w.flags
  s : ∀ n, ¬S.s n → vget z.s n 0 = vget w.s n 0
  q : ∀ n, ¬S.q n → z.q.getLsbD n = w.q.getLsbD n
  thread : ∀ i, Thread.Within S (w.thread i) (z.thread i)
  idle : ∀ i, ¬S.tids i → (z.thread i).g = (w.thread i).g ∧ (z.thread i).p = (w.thread i).p ∧ (z.thread i).k = (w.thread i).k ∧
    (z.thread i).seed = (w.thread i).seed

namespace Warp.Within

/-- A change of anything else is within every scope. -/
theorem of_same {w z : Warp} (hf : z.flags = w.flags) (hs : z.s = w.s) (hq : z.q = w.q)
    (ht : ∀ i, (z.thread i).g = (w.thread i).g ∧ (z.thread i).p = (w.thread i).p ∧ (z.thread i).k = (w.thread i).k ∧
      (z.thread i).seed = (w.thread i).seed) : Warp.Within S w z :=
  ⟨hf, fun _ _ => by rw [hs], fun _ _ => by rw [hq], fun i => .of_fields (ht i).1 (ht i).2.1 (ht i).2.2.1, fun i _ => ht i⟩

theorem of_threads {w z : Warp} (hf : z.flags = w.flags) (hs : z.s = w.s) (hq : z.q = w.q) (ht : z.threads = w.threads) :
    Warp.Within S w z :=
  .of_same hf hs hq fun i => by simp only [Warp.thread, ht, and_self]

theorem refl (w : Warp) : Warp.Within S w w := .of_threads rfl rfl rfl rfl

theorem trans {w x z : Warp} (h : Warp.Within S w x) (k : Warp.Within S x z) : Warp.Within S w z where
  flags := k.flags.trans h.flags
  s n o := (k.s n o).trans (h.s n o)
  q n o := (k.q n o).trans (h.q n o)
  thread i := (h.thread i).trans (k.thread i)
  idle i o := by
    obtain ⟨hg, hp, hk, hseed⟩ := h.idle i o
    obtain ⟨kg, kp, kk, kseed⟩ := k.idle i o
    exact ⟨kg.trans hg, kp.trans hp, kk.trans hk, kseed.trans hseed⟩

theorem foldl {α : Type} {f : Warp → α → Warp} {l : List α} (h : ∀ w, ∀ a ∈ l, Warp.Within S w (f w a)) (w : Warp) :
    Warp.Within S w (l.foldl f w) :=
  List.foldlRecOn l f (motive := Warp.Within S w) (.refl w) fun x k a ha => k.trans (h x a ha)

theorem modThread (w : Warp) {t : Tid} {f : Thread → Thread} (ht : S.tids t) (hf : ∀ x, Thread.Within S x (f x)) :
    Warp.Within S w (w.modThread t f) where
  flags := rfl
  s _ _ := rfl
  q _ _ := rfl
  thread i := by
    rw [Warp.thread_modThread]
    split
    · exact hf _
    · exact .refl _
  idle i o := by
    have other : t ≠ i := fun e => o (e ▸ ht)
    rw [Warp.thread_modThread, if_neg other]
    exact ⟨rfl, rfl, rfl, rfl⟩

theorem modThreads (w : Warp) {ts : List Tid} {f : Thread → Thread} (ht : ∀ t ∈ ts, S.tids t) (hf : ∀ x, Thread.Within S x (f x)) :
    Warp.Within S w (w.modThreads ts f) :=
  foldl (f := fun w t => w.modThread t f) (fun w t m => modThread w (ht t m) hf) w

/-- A change of threads in nothing that an instruction computes. -/
theorem modThreads_same (w : Warp) (ts : List Tid) {f : Thread → Thread} (hg : ∀ x, (f x).g = x.g) (hp : ∀ x, (f x).p = x.p)
    (hk : ∀ x, (f x).k = x.k) (hs : ∀ x, (f x).seed = x.seed) : Warp.Within S w (w.modThreads ts f) :=
  .of_same (Warp.modThreads_warp (·.flags) w _ _ fun _ _ => rfl) (Warp.modThreads_warp (·.s) w _ _ fun _ _ => rfl)
    (Warp.modThreads_warp (·.q) w _ _ fun _ _ => rfl) fun i => ⟨Warp.modThreads_keeps (·.g) w ts hg i,
      Warp.modThreads_keeps (·.p) w ts hp i, Warp.modThreads_keeps (·.k) w ts hk i, Warp.modThreads_keeps (·.seed) w ts hs i⟩

theorem commit (w : Warp) (ts : List Tid) : Warp.Within S w (w.modThreads ts .commit) :=
  modThreads_same w ts (fun _ => rfl) (fun _ => rfl) (fun _ => rfl) fun _ => rfl

theorem setS (w : Warp) (active : List Tid) {n : Nat} (v : W64) (h : S.s n) : Warp.Within S w (w.setS active n v) := by
  have written : Warp.Within S w { w with s := vset w.s n v } :=
    ⟨rfl, fun _ o => vget_vset_other _ _ _ fun e => o (e ▸ h), fun _ _ => rfl, fun i => .refl _, fun _ _ => ⟨rfl, rfl, rfl, rfl⟩⟩
  unfold Warp.setS
  dsimp only
  split
  · exact written.trans (commit ..)
  · exact written

theorem setQ (w : Warp) (active : List Tid) {n : Nat} (b : Bool) (h : S.q n) : Warp.Within S w (w.setQ active n b) := by
  have written : Warp.Within S w { w with q := setPred w.q n b } :=
    ⟨rfl, fun _ _ => rfl, fun _ o => getLsbD_setPred_other _ _ fun e => o (e ▸ h), fun i => .refl _, fun _ _ => ⟨rfl, rfl, rfl, rfl⟩⟩
  unfold Warp.setQ
  dsimp only
  split
  · exact written.trans (commit ..)
  · exact written

end Warp.Within

/-! ## The scope of a word (R28 to R30, R98) -/

/-- How many registers the results fill: four for a 128-bit result, else those of the width. -/
def resultSpan (wd : Width) (outs : List (Tid × AluOut)) : Nat :=
  if outs.any (fun o => o.2.high.isSome) then 4 else match wd with
    | .w32 => 1
    | _ => 2

/-- A predicate that one of the results writes. -/
def writesPred (outs : List (Tid × AluOut)) (n : Nat) : Bool := outs.any fun o => o.2.pred.any fun p => p.1 == n

/-- What the results of a word may write: D and the registers that a wider result takes, the predicates, and LT. -/
def resultScope (c : Ctx) (h : Head) (wd : Width) (outs : List (Tid × AluOut)) : Scope where
  s n := c.u = true ∧ (h.d.toNat - 0x80 = n ∨ resultSpan wd outs = 4 ∧ h.d.toNat - 0x80 + 1 = n)
  q n := c.u = true ∧ writesPred outs n = true
  g n := c.u = false ∧ h.d.toNat ≤ n ∧ n < h.d.toNat + resultSpan wd outs
  p n := c.u = false ∧ writesPred outs n = true
  k n := h.lt.toNat = n
  tids i := c.u = true ∨ i ∈ c.parts

section
variable {c : Ctx} {h : Head} {wd : Width} {outs : List (Tid × AluOut)}

theorem resultSpan_pos : 1 ≤ resultSpan wd outs := by
  unfold resultSpan
  split
  · decide
  · cases wd <;> decide

theorem resultSpan_pair (e : wd ≠ .w32) : 2 ≤ resultSpan wd outs := by
  unfold resultSpan
  split
  · decide
  · cases wd with
    | w32 => exact absurd rfl e
    | w64 => exact .refl
    | w128 => exact .refl

theorem resultSpan_wide {o : Tid × AluOut} (ho : o ∈ outs) (e : o.2.high.isSome = true) : resultSpan wd outs = 4 :=
  if_pos (List.any_eq_true.2 ⟨o, ho, e⟩)

theorem putThread_within (hu : c.u = false) (x : Thread) (v : W64) : Thread.Within (resultScope c h wd outs) x (putThread h wd x v) := by
  have d : (resultScope c h wd outs).g h.d.toNat := ⟨hu, Nat.le_refl _, Nat.lt_add_of_pos_right resultSpan_pos⟩
  have d' (e : wd ≠ .w32) : (resultScope c h wd outs).g (h.d.toNat + 1) :=
    ⟨hu, Nat.le_succ _, Nat.add_lt_add_left (resultSpan_pair e) _⟩
  unfold putThread
  dsimp only
  split
  · exact (Thread.Within.writeG x wd _ d d').trans (.setK _ _ rfl)
  · exact .setK _ _ rfl

theorem putUniform_within (hu : c.u = true) (w : Warp) (v : W64) : Warp.Within (resultScope c h wd outs) w (putUniform c h wd w v) := by
  have latched (w : Warp) (v : W64) : Warp.Within (resultScope c h wd outs) w (w.modThreads allTids fun th => th.setK h.lt.toNat v) :=
    .modThreads w (fun _ _ => .inl hu) fun x => .setK x v rfl
  unfold putUniform
  dsimp only
  split
  · have d : (resultScope c h wd outs).s (h.d.toNat - 0x80) := ⟨hu, .inl rfl⟩
    exact (Warp.Within.setS w c.active _ d).trans (latched ..)
  · exact latched ..

theorem putResult_within {i : Tid} (hi : c.u = false → i ∈ c.parts) (w : Warp) (v : W64) :
    Warp.Within (resultScope c h wd outs) w (putResult c h wd w i v) := by
  unfold putResult
  split
  · next hu => exact putUniform_within hu w v
  · next hu =>
    have hu : c.u = false := by simpa using hu
    exact .modThread w (.inr (hi hu)) fun x => putThread_within hu x v

theorem putWide_within {i : Tid} (hi : c.u = false → i ∈ c.parts) (wide : resultSpan wd outs = 4) (w : Warp) (lo hi' : W64) :
    Warp.Within (resultScope c h wd outs) w (putWide c h.d w i lo hi') := by
  unfold putWide
  dsimp only
  split
  · next hu =>
    split
    · have d : (resultScope c h wd outs).s (h.d.toNat - 0x80) := ⟨hu, .inl rfl⟩
      have d' : (resultScope c h wd outs).s (h.d.toNat - 0x80 + 1) := ⟨hu, .inr ⟨wide, rfl⟩⟩
      exact (Warp.Within.setS w c.active lo d).trans (.setS _ _ _ d')
    · exact .refl w
  · next hu =>
    have hu : c.u = false := by simpa using hu
    have reg (m : Nat) (lt : m < 4) : (resultScope c h wd outs).g (h.d.toNat + m) :=
      ⟨hu, Nat.le_add_right .., by rw [wide]; omega⟩
    split
    · exact .modThread w (.inr (hi hu)) fun x => (Thread.Within.writeG x .w64 lo (reg 0 (by decide)) fun _ => reg 1 (by decide)).trans
        (.writeG _ .w64 hi' (reg 2 (by decide)) fun _ => reg 3 (by decide))
    · exact .refl w

theorem putPred_within {i : Tid} (hi : c.u = false → i ∈ c.parts) {n : Nat} (hn : writesPred outs n = true) (w : Warp) (b : Bool) :
    Warp.Within (resultScope c h wd outs) w (putPred c n w i b) := by
  unfold putPred
  split
  · exact .refl w
  split
  · next hu => exact .setQ w c.active b ⟨hu, hn⟩
  · next hu =>
    have hu : c.u = false := by simpa using hu
    exact .modThread w (.inr (hi hu)) fun x => .setP x b ⟨hu, hn⟩

/-- The result of one unit is written within the scope of the word. -/
theorem applyOut_within {o : Tid × AluOut} (ho : o ∈ outs) (hi : c.u = false → o.1 ∈ c.parts) (w : Warp) :
    Warp.Within (resultScope c h wd outs) w (applyOut c h wd w o) := by
  have seeded (w : Warp) : Warp.Within (resultScope c h wd outs) w (match o.2.seed with
      | some s => w.modThread o.1 fun th => { th with seed := s }
      | none => w) := by
    split
    · refine .modThread w ?_ fun x => .of_fields rfl rfl rfl
      by_cases hu : c.u = true
      · exact .inl hu
      · exact .inr (hi (by simpa using hu))
    · exact .refl w
  have predicates (w : Warp) : Warp.Within (resultScope c h wd outs) w (o.2.pred.foldl (fun w p => putPred c p.1 w o.1 p.2) w) :=
    .foldl (fun w p hp => putPred_within hi (List.any_eq_true.2 ⟨o, ho, List.any_eq_true.2 ⟨p, hp, beq_self_eq_true _⟩⟩) w p.2) w
  unfold applyOut
  dsimp only
  refine .trans ?_ ((predicates _).trans (seeded _))
  split
  · next wide => exact putWide_within hi (resultSpan_wide ho (by simp [wide])) w _ _
  · exact putResult_within hi w _
  · exact .refl w

/-- The units of an instruction are participants, but for the lowest thread of a uniform one. -/
theorem Ctx.units_parts {i : Tid} (hi : i ∈ c.units) (hu : c.u = false) : i ∈ c.parts := by
  simpa [Ctx.units, hu] using hi

theorem applyAll_within (f : Tid → AluOut) (w : Warp) :
    let outs := c.units.map fun u => (u, f u)
    Warp.Within (resultScope c h wd outs) w (applyAll c h wd outs w) := by
  intro outs
  refine .foldl (fun w o ho => applyOut_within ho (fun hu => ?_) w) w
  obtain ⟨i, hi, rfl⟩ := List.mem_map.1 ho
  exact Ctx.units_parts hi hu

end

/-! ## The end of the instruction (R18, R77, R380) -/

/-- The counts that end with an instruction. -/
def Warp.counted (w : Warp) : Warp :=
  { w with done := 0, wait := none, stall := w.stall.filter (· == .sumpSwitch), stalled := 0, issued := min (w.issued + 1) (2 ^ 48 - 1) }

/-- What the end of a straight instruction does to its warp. -/
def Warp.settled (w : Warp) (c : Ctx) (before : Warp) : Warp :=
  let w := (w.countRegion before (c.executing.filter fun t => !w.done.getLsbD t.val)).counted
  if c.mslot.isSome then w.nextSlot else w.modThreads c.active fun th => { th with pc := nextPc th.pc }

theorem Warp.countRegion_within (w before : Warp) (ts : List Tid) : Warp.Within S w (w.countRegion before ts) := by
  refine .foldl (fun w t _ => ?_) w
  split
  · exact .modThreads_same (f := fun th => { th with region := { th.region with count := th.region.count + 1 } }) w [t] (fun _ => rfl)
      (fun _ => rfl) (fun _ => rfl) fun _ => rfl
  · exact .refl w

theorem Warp.passed_within (w : Warp) (ts : List Tid) : Warp.Within S w (w.modThreads ts fun th => { th with pc := nextPc th.pc }) :=
  .modThreads_same w ts (fun _ => rfl) (fun _ => rfl) (fun _ => rfl) fun _ => rfl

theorem Warp.nextSlot_within (w : Warp) : Warp.Within S w w.nextSlot := by
  unfold Warp.nextSlot
  split
  · exact .refl w
  split
  · exact .of_threads rfl rfl rfl rfl
  · exact (w.passed_within w.activeSet).trans (.of_threads rfl rfl rfl rfl)

/-- The end of an instruction writes nothing that an instruction computes. -/
theorem Warp.settled_within (w : Warp) (c : Ctx) (before : Warp) : Warp.Within S w (w.settled c before) := by
  unfold Warp.settled
  dsimp only
  have counts (ts : List Tid) : Warp.Within S w (w.countRegion before ts).counted :=
    (w.countRegion_within before ts).trans (.of_threads rfl rfl rfl rfl)
  split
  · exact (counts _).trans (Warp.nextSlot_within _)
  · exact (counts _).trans (Warp.passed_within _ _)

theorem settle_straight (c : Ctx) (before : Warp) (s : State) :
    settle c .straight before s =
      ({ s with answers := s.answers.filter fun (a : Answer) => a.who != Asker.warp c.task c.warp } : State).modWarp c.task c.warp
        fun w => w.settled c before := by
  unfold settle Warp.settled Warp.counted
  simp

/-- The debug check of an instruction disturbs no warp. -/
theorem debugCheck_undisturbed (c : Ctx) (s : State) : s.Undisturbed (debugCheck c s) := by
  unfold debugCheck
  split
  · exact .refl s
  have touched : s.Undisturbed (s.modWarp c.task c.warp fun w => { w with touched := [] }) := .modWarp s _ _ fun _ => .of_fields rfl rfl rfl rfl
  dsimp only
  split
  · exact touched
  split
  · exact touched.trans (.takeFault ..)
  · exact touched

/-- Without a debug cause the debug check leaves the warp but for the accesses noted. -/
theorem debugCheck_warp? {c : Ctx} {s : State} {w : Warp} (hw : s.warp? c.task c.warp = some w)
    (quiet : ∀ b xs, debugCause (s.core c.core) c.ctx c.wid c.pc b xs = none) :
    (debugCheck c s).warp? c.task c.warp = some { w with touched := [] } := by
  have same : (s.modWarp c.task c.warp fun w => { w with touched := [] }).core c.core = s.core c.core := rfl
  unfold debugCheck
  rw [hw]
  simp only [same, quiet]
  simp [State.warp?_modWarp, hw]

/-! ## The instruction (R98) -/

/-- FLAGS joined with no flag stay. -/
theorem Warp.orFlags_zero (w : Warp) : w.orFlags 0 = w := by simp [Warp.orFlags]

section
variable {s : State} {v : View} {outs : List (Tid × AluOut)} {wd : Width}

/-- The warp of an instruction that computes, once it has ended and before any debug cause. -/
def View.computed (v : View) (wd : Width) (outs : List (Tid × AluOut)) : Warp :=
  (applyAll v.c v.h wd outs (v.w.orFlags (raisedFlags outs))).settled v.c v.w

/-- The state of an instruction that computes, once it has ended and before any debug cause. -/
def View.settledResults (v : View) (s : State) (wd : Width) (outs : List (Tid × AluOut)) : State :=
  settle v.c .straight v.w (v.results s wd outs)

theorem View.results_warp? (hw : s.warp? v.c.task v.c.warp = some v.w) :
    (v.results s wd outs).warp? v.c.task v.c.warp = some (applyAll v.c v.h wd outs (v.w.orFlags (raisedFlags outs))) := by
  unfold View.results View.onWarp
  by_cases e : raisedFlags outs = 0
  · rw [if_pos e, State.warp?_modWarp, hw, e, Warp.orFlags_zero]
    simp
  · rw [if_neg e, State.warp?_modWarp, State.warp?_modWarp, hw]
    simp

theorem View.settledResults_warp? (hw : s.warp? v.c.task v.c.warp = some v.w) :
    (v.settledResults s wd outs).warp? v.c.task v.c.warp = some (v.computed wd outs) := by
  have kept := View.results_warp? (wd := wd) (outs := outs) hw
  unfold View.settledResults
  rw [settle_straight, State.warp?_modWarp]
  exact (congrArg _ kept).trans (by simp [View.computed])

/-- The end of an instruction, but for a debug cause, changes one warp alone. -/
theorem View.settledResults_outside (v : View) (s : State) : s.SameOutside (v.settledResults s wd outs) := by
  have results : s.SameOutside (v.results s wd outs) := by
    unfold View.results View.onWarp
    split
    · exact .modWarp ..
    · exact .trans (.modWarp ..) (.modWarp ..)
  have answered (s : State) (as : List Answer) : s.SameOutside { s with answers := as } :=
    .of_cores ⟨rfl, rfl, rfl, rfl, rfl⟩ rfl rfl rfl rfl rfl rfl
  unfold View.settledResults
  rw [settle_straight]
  exact (results.trans (answered _ _)).trans (.modWarp _ v.c.task v.c.warp fun w => w.settled v.c v.w)

theorem View.settledResults_other {task warp : Nat} (h : task ≠ v.c.task ∨ warp ≠ v.c.warp) :
    (v.settledResults s wd outs).warp? task warp = s.warp? task warp := by
  have other (s : State) (f : Warp → Warp) : (s.modWarp v.c.task v.c.warp f).warp? task warp = s.warp? task warp :=
    State.warp?_modWarp_other s (a := ⟨v.c.task, v.c.warp⟩) (r := ⟨task, warp⟩) (by rintro e; cases e; simp at h) f
  unfold View.settledResults
  rw [settle_straight, other]
  show (v.results s wd outs).warp? task warp = _
  unfold View.results View.onWarp
  rw [other]
  split
  · rfl
  · exact other ..

theorem View.settledResults_core (v : View) (s : State) (core : Nat) : (v.settledResults s wd outs).core core = s.core core := by
  unfold View.settledResults
  rw [settle_straight]
  show (v.results s wd outs).core core = _
  unfold View.results View.onWarp
  split <;> rfl

end

/-- What an instruction that computes writes in its warp lies in its scope. -/
theorem View.computed_within (v : View) (wd : Width) (f : Tid → AluOut) :
    let outs := v.c.units.map fun u => (u, f u)
    Warp.Within (resultScope v.c v.h wd outs) (v.w.orFlags (raisedFlags outs)) (v.computed wd outs) :=
  (applyAll_within f _).trans (Warp.settled_within ..)

/-- Settles O59: the results lie in the scope of the word, and the end of the instruction disturbs nothing else. -/
theorem computingChangesOnlyResults : Obligations.ComputingChangesOnlyResults := by
  intro i x wd f hc w s t v is outs span writes flags ran
  obtain rfl : v.ended .straight s (v.results s (wd (v.seenK w)) outs) = t := by simpa [(hc w s v is).1 flags] using ran
  have hw := issueView_warp is.view
  have before := v.settledResults_outside s (wd := wd (v.seenK w)) (outs := outs)
  have ended := debugCheck_undisturbed v.c (v.settledResults s (wd (v.seenK w)) outs)
  have same := before.trans ended.toSameOutside
  have within : Warp.Within (resultScope v.c v.h (wd (v.seenK w)) outs) (v.w.orFlags (raisedFlags outs)) (v.computed (wd (v.seenK w)) outs) :=
    v.computed_within _ (f v.c (v.seenK w) v.w)
  have settled := View.settledResults_warp? (wd := wd (v.seenK w)) (outs := outs) hw
  obtain ⟨z, hz, held⟩ := ended.warp settled
  refine ⟨⟨rfl, rfl, rfl, rfl, rfl⟩, same.host, same.homeByte, fun task warp y other hy => ?_, fun task x hx => ?_, same.vault,
    z, hz, held.flags.trans within.flags, fun n h₁ h₂ => ?_, fun tid n h => ?_, fun n h => ?_, fun tid n h => ?_, fun hu tid idle => ?_,
    fun quiet => ?_⟩
  · obtain ⟨z, hz, held⟩ := ended.warp ((View.settledResults_other other).trans hy)
    exact ⟨z, hz, held.s, held.q, held.flags, fun tid => ⟨held.g tid, held.p tid, held.pc tid⟩⟩
  · obtain ⟨y, hy, kept⟩ := same.task hx
    exact ⟨y, hy, kept.scratch, kept.tileMem, kept.td, kept.ctSlots, kept.gd⟩
  · rw [held.s]
    refine within.s n ?_
    rintro ⟨hu, d | ⟨wide, d⟩⟩
    · exact h₁.elim (by simp [hu]) (· d)
    · exact h₂.elim (by simp [hu]) (·.elim (· wide) (· d))
  · rw [held.g]
    refine (within.thread tid).g n ?_
    rintro ⟨hu, low, high⟩
    rcases h with h | h | h
    · simp [hu] at h
    · exact absurd low (Nat.not_le_of_lt h)
    · exact absurd high (Nat.not_lt_of_le h)
  · rw [held.q]
    refine within.q n ?_
    rintro ⟨hu, hn⟩
    exact h.elim (by simp [hu]) fun e => absurd (e.symm.trans hn) nofun
  · rw [held.p]
    refine (within.thread tid).p n ?_
    rintro ⟨hu, hn⟩
    exact h.elim (by simp [hu]) fun e => absurd (e.symm.trans hn) nofun
  · obtain ⟨hg, hp, -, hseed⟩ := within.idle tid (by rintro (e | e); exacts [absurd (hu.symm.trans e) nofun, idle e])
    exact ⟨(held.g tid).trans hg, (held.p tid).trans hp, (held.seed tid).trans hseed⟩
  · have stays := debugCheck_warp? settled fun b xs => (v.settledResults_core s v.c.core).symm ▸ quiet b xs
    obtain rfl : { v.computed (wd (v.seenK w)) outs with touched := [] } = z := Option.some.inj (stays.symm.trans hz)
    refine fun tid => ⟨fun n h => (within.thread tid).k n h, fun hu idle => ?_⟩
    obtain ⟨-, -, hk, -⟩ := within.idle tid (by rintro (e | e); exacts [absurd (hu.symm.trans e) nofun, idle e])
    exact hk

end Sys2Proof.Machine
